-- ==== Sys2Proof/Word.lean ====
section
/-! DEFINITION. The word types of the GN-96 and nothing else: widths the spec fixes once. -/

namespace Sys2Proof

/-- A scalar or address register, an address or a program counter (R40). -/
abbrev Word := BitVec 64

/-- The smallest addressable unit; every multi-byte value is little-endian (R6). -/
abbrev Byte := BitVec 8

/-- A tenancy tag: partition in bits 15..10, generation in bits 9..0 (R7). -/
abbrev Tag := BitVec 16

/-- The 1,024 bytes of a vector register, result-queue entry, queue entry or plane group (R47). -/
abbrev VBits := BitVec 8192

/-- A predicate register: bit n is lane n (R48). -/
abbrev Lanes := BitVec 256

/-- The 512 bytes of a scale register (R54). -/
abbrev XBits := BitVec 4096

/-- The 64 values of an accumulator row (R53). -/
abbrev RowBits := BitVec 2048

/-- The 128 bytes of an operand-latch row or of a tile row (R196, R295). -/
abbrev LatchBits := BitVec 1024

/-- The 64 bytes of a memory line. -/
abbrev LineBits := BitVec 512

end Sys2Proof
end

