-- ==== Sys2Proof/Syntax.lean ====
section
/-! DEFINITION. The syntax of the GN-96: the operands that slot words name and one constructor for every
row of the opcode table, slot operations first and then the events of the device (spec/95). -/

namespace Sys2Proof

/-- The guard of a slot word (R49, R50, R115): the predicate in G and its negation GN. -/
structure Guard where
  pred : BitVec 4
  neg : Bool
  deriving DecidableEq, Repr

/-- A scalar operand (R43): s0 to s63, a0 to a31, or the loop index i0 to i5. -/
inductive SReg where
  | s (n : BitVec 6)
  | a (n : BitVec 5)
  | i (n : BitVec 3)
  deriving DecidableEq, Repr

/-- A vector source operand (R44): vN, tN, or queue n read at offset j, advancing or not. -/
inductive VSrc where
  | v (n : BitVec 11)
  | t (n : BitVec 4)
  | k (n : BitVec 4) (j : BitVec 3) (adv : Bool)
  deriving DecidableEq, Repr

/-- A vector destination operand (R45): vN, the producer end of queue n, or none named (2047). -/
inductive VDst where
  | v (n : BitVec 11)
  | k (n : BitVec 4)
  | none
  deriving DecidableEq, Repr

/-- The V-slot, FS and FK format codes 0 to 9 (R119), in code order. -/
inductive Fmt where
  | f32 | bf16 | f16 | e4m3 | e5m2 | e2m1 | i32 | i16 | i8 | i64
  deriving DecidableEq, Repr

/-- The M-slot paired formats 0 to 7 (R119), in code order. -/
inductive MFmt where
  | bf16 | f16 | e4m3 | e5m2 | e4m3e5m2 | e2m1 | vq2 | i8
  deriving DecidableEq, Repr

/-- The rounding modes 0 to 4 (R74), in code order. -/
inductive RM where
  | rne | rtz | rup | rdn | rna
  deriving DecidableEq, Repr

/-- The row of an M-slot operation (R118): ROW, or i0 when RX is 1. -/
inductive MRow where
  | imm (n : BitVec 6)
  | i0
  deriving DecidableEq, Repr

/-- An accumulator row name (R53): acc(ACC), or acc(ACC + aK). -/
structure AccRef where
  row : BitVec 12
  ax : Option (BitVec 5)
  deriving DecidableEq, Repr

/-- The operation of an atomic (R227), in the order of W. -/
inductive AtomOp where
  | add | min | max | and | or | xchg | cas
  deriving DecidableEq, Repr

/-- The width of a remote load or store (R232), in the order of W. -/
inductive RWidth where
  | b | h | w | d | v64 | v
  deriving DecidableEq, Repr

/-- The data register of a remote load or store (R232). -/
inductive RData where
  | scalar (r : SReg)
  | vector (n : BitVec 11)
  deriving DecidableEq, Repr

/-- The target of VLATCH (R250): a local range, or a tile entry in the .T form. -/
inductive LatchDst where
  | plain (ab : BitVec 5) (off : BitVec 20)
  | tile (e : BitVec 6)
  deriving DecidableEq, Repr

/-- Who waits on a word of host memory (R443): a parked task or a barrier packet. -/
inductive Waiter where
  | task (core ctx : Nat)
  | packet (q idx : Nat)
  deriving DecidableEq, Repr

/-- A tagged element that the sump sweeper visits (R391). -/
inductive SweepElem where
  | ctx (core ctx : Nat)
  | result (core ctx n : Nat)
  | vreg (core n : Nat)
  | accRow (core n : Nat)
  | scale (core n : Nat)
  | plane (core n : Nat)
  | latch (core n : Nat)
  | localLine (core line : Nat)
  /-- A line of global memory in the cache part of a core's store, by its address. -/
  | partLine (core key : Nat)
  | tile (core e : Nat)
  | stash (core e : Nat)
  | queue (quad k : Nat)
  | queueEntry (quad k pos : Nat)
  | quadBarrier (quad b : Nat)
  | dieBarrier (die b : Nat)
  | cacheLine (die idx : Nat)
  | spillEntry (die idx : Nat)
  | hbmLine (line : Nat)
  deriving DecidableEq, Repr

/-- A unit that start-up brings to READY (R427, R428). -/
inductive StartUnit where
  | host
  | stack (n : Nat)
  | die (n : Nat)
  | port (n : Nat)
  deriving DecidableEq, Repr

/-- The unit kinds of an error record, 1 to 7 in this order (R430). -/
inductive UnitKind where
  | core | dieCache | wellhead | port | dispatcher | walker | power
  deriving DecidableEq, Repr

/-- The instructions: every row of the opcode table. -/
inductive Instr where
  -- C slot (R122)
  /-- C_NOP: no operation. -/
  | cNop (g : Guard)
  /-- BR: branch by displacement (R138). -/
  | br (g : Guard) (disp : BitVec 22)
  /-- BRL: branch and link (R138). -/
  | brl (g : Guard) (disp : BitVec 22)
  /-- JMP: jump (R138). -/
  | jmp (g : Guard) (sa : SReg) (disp : BitVec 22)
  /-- JMPL: jump and link (R138). -/
  | jmpl (g : Guard) (sa : SReg) (disp : BitVec 22)
  /-- RET: return to s63 (R123, R138). -/
  | ret (g : Guard)
  /-- LOOP: push a loop level, count in a register (R140). -/
  | loop (g : Guard) (sa : SReg) (imm : BitVec 22)
  /-- LOOPI: push a loop level, immediate count (R140). -/
  | loopi (g : Guard) (count : BitVec 14) (imm : BitVec 22)
  /-- LOOP_P: push a pipelined loop level (R140). -/
  | loopP (g : Guard) (sa : SReg) (stages : BitVec 4) (imm : BitVec 22)
  /-- LBRK: pop the innermost level (R144). -/
  | lbrk (g : Guard)
  /-- LCONT: loop back at once (R144). -/
  | lcont (g : Guard)
  /-- LDELTA: set one delta of the update table (R143). -/
  | ldelta (g : Guard) (r : BitVec 5) (d : BitVec 3) (sa : SReg)
  /-- SYNC: issue ordering point (R146). -/
  | sync (g : Guard) (mask : BitVec 4) (land : Bool)
  /-- SAFE: safe point (R147). -/
  | safe (g : Guard) (map : BitVec 22)
  /-- WAITX: wait for a pump transfer (R148). -/
  | waitx (g : Guard) (ch : BitVec 3) (sa : SReg)
  /-- PARK_YIELD: park with an immediate wake (R149). -/
  | parkYield (g : Guard)
  /-- PARK_TIME: park for a time (R149). -/
  | parkTime (g : Guard) (sa : SReg)
  /-- PARK_WORD: park until a word differs (R149). -/
  | parkWord (g : Guard) (sa sb : SReg)
  /-- PARK_QUEUE: park until a queue holds an entry (R149). -/
  | parkQueue (g : Guard) (k : BitVec 4)
  /-- TSPAWN: start a task (R150). -/
  | tspawn (g : Guard) (ctx : BitVec 4) (prio : BitVec 2) (sa sb : SReg)
  /-- TEXIT: end the task (R151). -/
  | texit (g : Guard)
  /-- HALT: end the task and record a halt code (R151). -/
  | halt (g : Guard) (code : BitVec 16)
  /-- BARQ: set a quad barrier count (R152). -/
  | barq (g : Guard) (b : BitVec 4) (sa : SReg)
  /-- BARD: set a die barrier count (R152). -/
  | bard (g : Guard) (b : BitVec 4) (sa : SReg)
  /-- BARA: arrive at a barrier (R152). -/
  | bara (g : Guard) (b : BitVec 4) (die : Bool)
  /-- BARW: wait for a barrier (R152). -/
  | barw (g : Guard) (b : BitVec 4) (die : Bool)
  /-- PGWAIT: wait for a page-table write (R153). -/
  | pgwait (g : Guard) (sa : SReg)
  /-- TRAP: software trap (R154). -/
  | trap (g : Guard) (n : BitVec 22)
  /-- ERET: return from a handler (R155, R277). -/
  | eret (g : Guard)
  /-- MFS: read a system register (R156). -/
  | mfs (g : Guard) (sd : SReg) (num : BitVec 12)
  /-- MTS: write a system register (R156). -/
  | mts (g : Guard) (num : BitVec 12) (sa : SReg)
  /-- GENINC: step a generation; privileged (R157). -/
  | geninc (g : Guard) (sd sp : SReg)
  /-- GENRD: read a generation; privileged (R157). -/
  | genrd (g : Guard) (sd sp : SReg)
  /-- SWEEP: steer the sump sweeper; privileged (R157). -/
  | sweep (g : Guard) (sa : SReg) (start : Bool) (rate : BitVec 4)
  /-- CKPT: close a checkpoint interval; privileged (R157, R438). -/
  | ckpt (g : Guard) (sp : SReg)
  -- S slot (R124)
  /-- S_NOP: no operation. -/
  | sNop (g : Guard)
  /-- ADD (R158). -/
  | add (g : Guard) (sd sa sb : SReg)
  /-- SUB (R158). -/
  | sub (g : Guard) (sd sa sb : SReg)
  /-- MUL (R158). -/
  | mul (g : Guard) (sd sa sb : SReg)
  /-- MULHU (R158). -/
  | mulhu (g : Guard) (sd sa sb : SReg)
  /-- MULHS (R158). -/
  | mulhs (g : Guard) (sd sa sb : SReg)
  /-- DIVU (R159). -/
  | divu (g : Guard) (sd sa sb : SReg)
  /-- DIVS (R159). -/
  | divs (g : Guard) (sd sa sb : SReg)
  /-- REMU (R159). -/
  | remu (g : Guard) (sd sa sb : SReg)
  /-- REMS (R159). -/
  | rems (g : Guard) (sd sa sb : SReg)
  /-- AND (R158). -/
  | and (g : Guard) (sd sa sb : SReg)
  /-- OR (R158). -/
  | or (g : Guard) (sd sa sb : SReg)
  /-- XOR (R158). -/
  | xor (g : Guard) (sd sa sb : SReg)
  /-- ANDN (R158). -/
  | andn (g : Guard) (sd sa sb : SReg)
  /-- SHL (R158). -/
  | shl (g : Guard) (sd sa sb : SReg)
  /-- SHR (R158). -/
  | shr (g : Guard) (sd sa sb : SReg)
  /-- SRA (R158). -/
  | sra (g : Guard) (sd sa sb : SReg)
  /-- ROL (R158). -/
  | rol (g : Guard) (sd sa sb : SReg)
  /-- MIN (R158). -/
  | min (g : Guard) (sd sa sb : SReg)
  /-- MAX (R158). -/
  | max (g : Guard) (sd sa sb : SReg)
  /-- MINU (R158). -/
  | minu (g : Guard) (sd sa sb : SReg)
  /-- MAXU (R158). -/
  | maxu (g : Guard) (sd sa sb : SReg)
  /-- CLZ (R158). -/
  | clz (g : Guard) (sd sa : SReg)
  /-- CTZ (R158). -/
  | ctz (g : Guard) (sd sa : SReg)
  /-- POPC (R158). -/
  | popc (g : Guard) (sd sa : SReg)
  /-- SEXT (R158). -/
  | sext (g : Guard) (sd sa : SReg) (w : BitVec 7)
  /-- ZEXT (R158). -/
  | zext (g : Guard) (sd sa : SReg) (w : BitVec 7)
  /-- MOV (R158). -/
  | mov (g : Guard) (sd sa : SReg)
  /-- ADDX (R158). -/
  | addx (g : Guard) (sd sa sb : SReg) (sh : BitVec 3)
  /-- ADDI (R160). -/
  | addi (g : Guard) (sd sa : SReg) (imm : BitVec 15)
  /-- ANDI (R160). -/
  | andi (g : Guard) (sd sa : SReg) (imm : BitVec 15)
  /-- ORI (R160). -/
  | ori (g : Guard) (sd sa : SReg) (imm : BitVec 15)
  /-- XORI (R160). -/
  | xori (g : Guard) (sd sa : SReg) (imm : BitVec 15)
  /-- SHLI (R160). -/
  | shli (g : Guard) (sd sa : SReg) (sh : BitVec 6)
  /-- SHRI (R160). -/
  | shri (g : Guard) (sd sa : SReg) (sh : BitVec 6)
  /-- SRAI (R160). -/
  | srai (g : Guard) (sd sa : SReg) (sh : BitVec 6)
  /-- LI (R161). -/
  | li (g : Guard) (sd : SReg) (imm : BitVec 29)
  /-- LIH (R161). -/
  | lih (g : Guard) (sd : SReg) (imm : BitVec 29)
  /-- CEQ (R162). -/
  | ceq (g : Guard) (pd : BitVec 4) (sa sb : SReg)
  /-- CNE (R162). -/
  | cne (g : Guard) (pd : BitVec 4) (sa sb : SReg)
  /-- CLT (R162). -/
  | clt (g : Guard) (pd : BitVec 4) (sa sb : SReg)
  /-- CLE (R162). -/
  | cle (g : Guard) (pd : BitVec 4) (sa sb : SReg)
  /-- CLTU (R162). -/
  | cltu (g : Guard) (pd : BitVec 4) (sa sb : SReg)
  /-- CLEU (R162). -/
  | cleu (g : Guard) (pd : BitVec 4) (sa sb : SReg)
  /-- CEQI (R162). -/
  | ceqi (g : Guard) (pd : BitVec 4) (sa : SReg) (imm : BitVec 15)
  /-- CLTI (R162). -/
  | clti (g : Guard) (pd : BitVec 4) (sa : SReg) (imm : BitVec 15)
  /-- CLTUI (R162). -/
  | cltui (g : Guard) (pd : BitVec 4) (sa : SReg) (imm : BitVec 15)
  /-- SEL (R163). -/
  | sel (g : Guard) (sd sa sb : SReg) (pn : BitVec 4)
  /-- FADD (R164). -/
  | fadd (g : Guard) (sd sa sb : SReg)
  /-- FMUL (R164). -/
  | fmul (g : Guard) (sd sa sb : SReg)
  /-- FMIN (R164). -/
  | fmin (g : Guard) (sd sa sb : SReg)
  /-- FMAX (R164). -/
  | fmax (g : Guard) (sd sa sb : SReg)
  /-- FTOI (R164). -/
  | ftoi (g : Guard) (sd sa : SReg)
  /-- ITOF (R164). -/
  | itof (g : Guard) (sd sa : SReg)
  -- P slot (R125)
  /-- P_NOP: no operation. -/
  | pNop (g : Guard)
  /-- PAND (R189). -/
  | pand (g : Guard) (pd pa pb : BitVec 4)
  /-- POR (R189). -/
  | por (g : Guard) (pd pa pb : BitVec 4)
  /-- PXOR (R189). -/
  | pxor (g : Guard) (pd pa pb : BitVec 4)
  /-- PANDN (R189). -/
  | pandn (g : Guard) (pd pa pb : BitVec 4)
  /-- PNOT (R189). -/
  | pnot (g : Guard) (pd pa : BitVec 4)
  /-- PSETI (R189). -/
  | pseti (g : Guard) (pd : BitVec 4) (n : BitVec 8)
  /-- PLANES (R189). -/
  | planes (g : Guard) (pd pa : BitVec 4) (n : BitVec 9)
  /-- PBCST (R189). -/
  | pbcst (g : Guard) (pd pa : BitVec 4) (n : BitVec 8)
  /-- PANY (R189). -/
  | pany (g : Guard) (pd pa : BitVec 4)
  /-- PALL (R189). -/
  | pall (g : Guard) (pd pa : BitVec 4)
  /-- PROT (R189). -/
  | prot (g : Guard) (pd pa : BitVec 4) (n : BitVec 8)
  /-- XLD (R190). -/
  | xld (g : Guard) (xd : BitVec 4) (ab : BitVec 5) (off : BitVec 11)
  /-- XSET (R192). -/
  | xset (g : Guard) (xd : BitVec 4) (n : BitVec 8)
  /-- XMOV (R192). -/
  | xmov (g : Guard) (xd xa : BitVec 4)
  /-- QFMT (R193). -/
  | qfmt (g : Guard) (k : BitVec 4) (fs fk : Fmt) (rm : RM) (sat : Bool)
  -- V slots (R126)
  /-- V_NOP (R168). -/
  | vNop (g : Guard)
  /-- VADD (R174). -/
  | vadd (g : Guard) (f : Fmt) (rm : RM) (vd : VDst) (va vb : VSrc)
  /-- VSUB (R174). -/
  | vsub (g : Guard) (f : Fmt) (rm : RM) (vd : VDst) (va vb : VSrc)
  /-- VMUL (R174). -/
  | vmul (g : Guard) (f : Fmt) (rm : RM) (vd : VDst) (va vb : VSrc)
  /-- VFMA (R174). -/
  | vfma (g : Guard) (f : Fmt) (rm : RM) (vd : VDst) (va vb vc : VSrc)
  /-- VFMS (R174). -/
  | vfms (g : Guard) (f : Fmt) (rm : RM) (vd : VDst) (va vb vc : VSrc)
  /-- VFNMA (R174). -/
  | vfnma (g : Guard) (f : Fmt) (rm : RM) (vd : VDst) (va vb vc : VSrc)
  /-- VMIN (R174). -/
  | vmin (g : Guard) (f : Fmt) (rm : RM) (vd : VDst) (va vb : VSrc)
  /-- VMAX (R174). -/
  | vmax (g : Guard) (f : Fmt) (rm : RM) (vd : VDst) (va vb : VSrc)
  /-- VABS (R174). -/
  | vabs (g : Guard) (f : Fmt) (rm : RM) (vd : VDst) (va : VSrc)
  /-- VNEG (R174). -/
  | vneg (g : Guard) (f : Fmt) (rm : RM) (vd : VDst) (va : VSrc)
  /-- VRCP (R175). -/
  | vrcp (g : Guard) (f : Fmt) (rm : RM) (vd : VDst) (va : VSrc)
  /-- VRSQ (R175). -/
  | vrsq (g : Guard) (f : Fmt) (rm : RM) (vd : VDst) (va : VSrc)
  /-- VSQRT (R175). -/
  | vsqrt (g : Guard) (f : Fmt) (rm : RM) (vd : VDst) (va : VSrc)
  /-- VEXP2 (R175). -/
  | vexp2 (g : Guard) (f : Fmt) (rm : RM) (vd : VDst) (va : VSrc)
  /-- VLOG2 (R175). -/
  | vlog2 (g : Guard) (f : Fmt) (rm : RM) (vd : VDst) (va : VSrc)
  /-- VCMPEQ (R176). -/
  | vcmpeq (g : Guard) (f : Fmt) (rm : RM) (pd : BitVec 4) (va vb : VSrc)
  /-- VCMPLT (R176). -/
  | vcmplt (g : Guard) (f : Fmt) (rm : RM) (pd : BitVec 4) (va vb : VSrc)
  /-- VCMPLE (R176). -/
  | vcmple (g : Guard) (f : Fmt) (rm : RM) (pd : BitVec 4) (va vb : VSrc)
  /-- VCMPNE (R176). -/
  | vcmpne (g : Guard) (f : Fmt) (rm : RM) (pd : BitVec 4) (va vb : VSrc)
  /-- VCLASS (R177). -/
  | vclass (g : Guard) (f : Fmt) (rm : RM) (pd : BitVec 4) (va : VSrc) (mask : BitVec 9)
  /-- VSEL (R178). -/
  | vsel (g : Guard) (f : Fmt) (rm : RM) (vd : VDst) (va vb : VSrc) (pc : BitVec 4)
  /-- VCVT (R181). -/
  | vcvt (g : Guard) (fd : Fmt) (rm : RM) (vd : VDst) (va : VSrc) (fs : Fmt) (sat : Bool) (part : BitVec 4)
  /-- VQNT (R182). -/
  | vqnt (g : Guard) (fd : Fmt) (rm : RM) (vd : VDst) (va vc : VSrc) (fs : Fmt) (sat : Bool) (part : BitVec 4)
  /-- VCBDEC (R183). -/
  | vcbdec (g : Guard) (fd : Fmt) (rm : RM) (vd : VDst) (va : VSrc) (part : BitVec 4)
  /-- VROUND (R184). -/
  | vround (g : Guard) (f : Fmt) (rm : RM) (vd : VDst) (va : VSrc)
  /-- VIADD (R179). -/
  | viadd (g : Guard) (f : Fmt) (rm : RM) (vd : VDst) (va vb : VSrc)
  /-- VISUB (R179). -/
  | visub (g : Guard) (f : Fmt) (rm : RM) (vd : VDst) (va vb : VSrc)
  /-- VIMUL (R179). -/
  | vimul (g : Guard) (f : Fmt) (rm : RM) (vd : VDst) (va vb : VSrc)
  /-- VIMIN (R179). -/
  | vimin (g : Guard) (f : Fmt) (rm : RM) (vd : VDst) (va vb : VSrc)
  /-- VIMAX (R179). -/
  | vimax (g : Guard) (f : Fmt) (rm : RM) (vd : VDst) (va vb : VSrc)
  /-- VAND (R179). -/
  | vand (g : Guard) (f : Fmt) (rm : RM) (vd : VDst) (va vb : VSrc)
  /-- VOR (R179). -/
  | vor (g : Guard) (f : Fmt) (rm : RM) (vd : VDst) (va vb : VSrc)
  /-- VXOR (R179). -/
  | vxor (g : Guard) (f : Fmt) (rm : RM) (vd : VDst) (va vb : VSrc)
  /-- VSHL (R179). -/
  | vshl (g : Guard) (f : Fmt) (rm : RM) (vd : VDst) (va vb : VSrc)
  /-- VSHR (R179). -/
  | vshr (g : Guard) (f : Fmt) (rm : RM) (vd : VDst) (va vb : VSrc)
  /-- VSRA (R179). -/
  | vsra (g : Guard) (f : Fmt) (rm : RM) (vd : VDst) (va vb : VSrc)
  /-- VICMPEQ (R176). -/
  | vicmpeq (g : Guard) (f : Fmt) (rm : RM) (pd : BitVec 4) (va vb : VSrc)
  /-- VICMPLT (R176). -/
  | vicmplt (g : Guard) (f : Fmt) (rm : RM) (pd : BitVec 4) (va vb : VSrc)
  /-- VIABS (R179). -/
  | viabs (g : Guard) (f : Fmt) (rm : RM) (vd : VDst) (va : VSrc)
  /-- VPOPC (R179). -/
  | vpopc (g : Guard) (f : Fmt) (rm : RM) (vd : VDst) (va : VSrc)
  /-- VMOV (R185). -/
  | vmov (g : Guard) (f : Fmt) (rm : RM) (vd : VDst) (va : VSrc)
  /-- VBCST (R185). -/
  | vbcst (g : Guard) (f : Fmt) (rm : RM) (vd : VDst) (va : VSrc) (n : BitVec 11)
  /-- VPERM (R185). -/
  | vperm (g : Guard) (f : Fmt) (rm : RM) (vd : VDst) (va vb : VSrc)
  /-- VROTL (R185). -/
  | vrotl (g : Guard) (f : Fmt) (rm : RM) (vd : VDst) (va : VSrc) (n : BitVec 11)
  /-- VEXTR (R185). -/
  | vextr (g : Guard) (f : Fmt) (rm : RM) (vd : VDst) (va vb : VSrc) (n : BitVec 11)
  /-- VINS (R185). -/
  | vins (g : Guard) (f : Fmt) (rm : RM) (vd : VDst) (va vb : VSrc) (n : BitVec 11)
  /-- VZIP (R185). -/
  | vzip (g : Guard) (f : Fmt) (rm : RM) (vd : VDst) (va vb : VSrc) (h : Bool)
  /-- VUNZIP (R185). -/
  | vunzip (g : Guard) (f : Fmt) (rm : RM) (vd : VDst) (va vb : VSrc) (o : Bool)
  /-- VIOTA (R185). -/
  | viota (g : Guard) (f : Fmt) (rm : RM) (vd : VDst)
  /-- VCOMPR (R186). -/
  | vcompr (g : Guard) (f : Fmt) (rm : RM) (vd : VDst) (va : VSrc) (pc : BitVec 4)
  /-- VEXPND (R186). -/
  | vexpnd (g : Guard) (f : Fmt) (rm : RM) (vd : VDst) (va : VSrc) (pc : BitVec 4)
  /-- VRSUM (R187). -/
  | vrsum (g : Guard) (f : Fmt) (rm : RM) (vd : VDst) (va : VSrc) (pc : BitVec 4)
  /-- VRMAX (R187). -/
  | vrmax (g : Guard) (f : Fmt) (rm : RM) (vd : VDst) (va : VSrc) (pc : BitVec 4)
  /-- VRMIN (R187). -/
  | vrmin (g : Guard) (f : Fmt) (rm : RM) (vd : VDst) (va : VSrc) (pc : BitVec 4)
  /-- VSCAN (R187, R88). -/
  | vscan (g : Guard) (f : Fmt) (rm : RM) (vd : VDst) (va : VSrc) (pc : BitVec 4)
  /-- VDOT (R187). -/
  | vdot (g : Guard) (f : Fmt) (rm : RM) (vd : VDst) (va vb : VSrc) (pc : BitVec 4)
  /-- VARGMX (R188). -/
  | vargmx (g : Guard) (f : Fmt) (rm : RM) (vd : VDst) (va : VSrc) (pc : BitVec 4)
  -- M slot (R127)
  /-- M_NOP (R198). -/
  | mNop (g : Guard)
  /-- MPUSH (R206). -/
  | mpush (g : Guard) (f : MFmt) (vs : VSrc) (row : MRow)
  /-- MPUSHT (R206, R207). -/
  | mpusht (g : Guard) (f : MFmt) (e : BitVec 6) (row : MRow)
  /-- MSHIFT (R209). -/
  | mshift (g : Guard) (f : MFmt) (acc : AccRef) (vs : VSrc) (row : MRow) (xa xb : BitVec 4) (ovr : Bool)
  /-- MSHIFTL (R209). -/
  | mshiftl (g : Guard) (f : MFmt) (acc : AccRef) (row : MRow) (xa xb : BitVec 4) (ovr : Bool)
  /-- MSHIFTT (R209). -/
  | mshiftt (g : Guard) (f : MFmt) (acc : AccRef) (e : BitVec 6) (row : MRow) (xa xb : BitVec 4) (ovr : Bool)
  /-- MFLIP (R208). -/
  | mflip (g : Guard)
  /-- MDRAIN (R213). -/
  | mdrain (g : Guard) (f : Fmt) (acc : AccRef) (vd : BitVec 11) (row : MRow) (rm : RM) (sat : Bool)
  /-- MZERO (R212). -/
  | mzero (g : Guard) (acc : AccRef)
  /-- MADDV (R211). -/
  | maddv (g : Guard) (f : Fmt) (acc : AccRef) (vs : VSrc) (row : MRow) (ovr : Bool)
  /-- MDRAINZ (R213). -/
  | mdrainz (g : Guard) (f : Fmt) (acc : AccRef) (vd : BitVec 11) (row : MRow) (rm : RM) (sat : Bool)
  -- L slot (R128)
  /-- L_NOP: no operation. -/
  | lNop (g : Guard)
  /-- LDS (R222). -/
  | lds (g : Guard) (w : BitVec 2) (sx : Bool) (sd : SReg) (ab : BitVec 5) (sa : SReg) (off : BitVec 20)
  /-- STS (R222). -/
  | sts (g : Guard) (w : BitVec 2) (sv : SReg) (ab : BitVec 5) (sa : SReg) (off : BitVec 20)
  /-- VLD (R222). -/
  | vld (g : Guard) (len : BitVec 3) (vd : BitVec 11) (ab : BitVec 5) (sa : SReg) (off : BitVec 20)
  /-- VST (R222). -/
  | vst (g : Guard) (len : BitVec 3) (vd : BitVec 11) (ab : BitVec 5) (sa : SReg) (off : BitVec 20)
  /-- VLDS (R223). -/
  | vlds (g : Guard) (w : BitVec 2) (vd : BitVec 11) (ab : BitVec 5) (off : BitVec 20) (sa : SReg)
  /-- VSTS (R223). -/
  | vsts (g : Guard) (w : BitVec 2) (vd : BitVec 11) (ab : BitVec 5) (off : BitVec 20) (sa : SReg)
  /-- VLDX (R223). -/
  | vldx (g : Guard) (w : BitVec 2) (vd : BitVec 11) (ab : BitVec 5) (sa : SReg) (vx : BitVec 11)
  /-- VSTX (R223). -/
  | vstx (g : Guard) (w : BitVec 2) (vd : BitVec 11) (ab : BitVec 5) (sa : SReg) (vx : BitVec 11)
  /-- GATHR (R224; cnt holds c - 1). -/
  | gathr (g : Guard) (glob res : Bool) (vx : BitVec 11) (ab : BitVec 5) (sa : SReg) (f : BitVec 6) (cnt : BitVec 7) (pr : BitVec 4)
  /-- ATOML (R225, R227). -/
  | atoml (g : Guard) (op : AtomOp) (f : Fmt) (sd : SReg) (ab : BitVec 5) (sa : SReg) (off : BitVec 20)
  /-- LDG (R226). -/
  | ldg (g : Guard) (w : BitVec 2) (sx : Bool) (sd : SReg) (ab : BitVec 5) (sa : SReg) (off : BitVec 20) (pr : BitVec 4)
  /-- STG (R226). -/
  | stg (g : Guard) (w : BitVec 2) (sv : SReg) (ab : BitVec 5) (sa : SReg) (off : BitVec 20)
  /-- VLDG (R226). -/
  | vldg (g : Guard) (len : BitVec 3) (vd : BitVec 11) (ab : BitVec 5) (sa : SReg) (off : BitVec 20) (pr : BitVec 4)
  /-- VSTG (R226). -/
  | vstg (g : Guard) (len : BitVec 3) (vd : BitVec 11) (ab : BitVec 5) (sa : SReg) (off : BitVec 20)
  /-- ATOMG (R227). -/
  | atomg (g : Guard) (op : AtomOp) (f : Fmt) (sd : SReg) (ab : BitVec 5) (sa : SReg) (off : BitVec 20)
  /-- WATOM (R227). -/
  | watom (g : Guard) (op : AtomOp) (f : Fmt) (sd : SReg) (ab : BitVec 5) (sa : SReg) (off : BitVec 20)
  /-- WATOMR (R228). -/
  | watomr (g : Guard) (op : AtomOp) (f : Fmt) (vd : BitVec 11) (ab : BitVec 5) (sa : SReg) (off : BitVec 20)
  /-- PGREQ (R229). -/
  | pgreq (g : Guard) (wr : Bool) (ab : BitVec 5) (sa : SReg) (off : BitVec 20)
  /-- CDISC (R230). -/
  | cdisc (g : Guard) (ab : BitVec 5) (off : BitVec 20) (sa : SReg)
  /-- CFLUSH (R230). -/
  | cflush (g : Guard) (inv : Bool) (ab : BitVec 5) (off : BitVec 20) (sa : SReg)
  /-- SMAP (R231). -/
  | smap (g : Guard) (e : BitVec 4) (ab : BitVec 5) (off : BitVec 20) (sg sz : SReg)
  /-- SUNMAP (R231). -/
  | sunmap (g : Guard) (e : BitVec 4)
  /-- SFLUSH (R231). -/
  | sflush (g : Guard) (e : BitVec 4)
  /-- SDISC (R231). -/
  | sdisc (g : Guard) (e : BitVec 4)
  /-- RLDG (R233). -/
  | rldg (g : Guard) (wd : RWidth) (d : RData) (ab : BitVec 5) (off : BitVec 20) (sa : SReg)
  /-- RSTG (R233). -/
  | rstg (g : Guard) (wd : RWidth) (d : RData) (ab : BitVec 5) (off : BitVec 20) (sa : SReg)
  /-- RSTP (R233). -/
  | rstp (g : Guard) (wd : RWidth) (d : RData) (ab : BitVec 5) (off : BitVec 20) (sa : SReg)
  /-- RATOM (R233). -/
  | ratom (g : Guard) (op : AtomOp) (f : Fmt) (sd : SReg) (ab : BitVec 5) (off : BitVec 20) (sa : SReg)
  /-- RFENCE (R233). -/
  | rfence (g : Guard)
  -- E slot (R129)
  /-- E_NOP: no operation. -/
  | eNop (g : Guard)
  /-- PCOPY (R239). -/
  | pcopy (g : Guard) (ch : BitVec 3) (ab : BitVec 5) (off : BitVec 20) (sd : SReg)
  /-- PCOPYT (R240). -/
  | pcopyt (g : Guard) (ch : BitVec 3) (ab : BitVec 5) (off : BitVec 20) (sd : SReg)
  /-- PCOPYR (R241). -/
  | pcopyr (g : Guard) (ch : BitVec 3) (ab : BitVec 5) (off : BitVec 20) (sd : SReg)
  /-- PSTAT (R243). -/
  | pstat (g : Guard) (ch : BitVec 3) (sd : SReg)
  /-- PSTAT_ERR (R243). -/
  | pstatErr (g : Guard) (ch : BitVec 3) (sd : SReg)
  /-- PSTAT_CLR (R243). -/
  | pstatClr (g : Guard) (ch : BitVec 3) (sd : SReg)
  /-- TBIND (R245; rows holds rows - 1). -/
  | tbind (g : Guard) (e : BitVec 6) (lvl : BitVec 3) (ab : BitVec 5) (sa : SReg) (ac : BitVec 5) (n : BitVec 3) (rows : BitVec 6) (pair : Bool)
  /-- TFILL (R247). -/
  | tfill (g : Guard) (e : BitVec 6)
  /-- TDRAIN (R247). -/
  | tdrain (g : Guard) (e : BitVec 6)
  /-- TFREE (R247). -/
  | tfree (g : Guard) (e : BitVec 6)
  /-- TSTATE (R247). -/
  | tstate (g : Guard) (e : BitVec 6) (sd : SReg)
  /-- VSEND (R249). -/
  | vsend (g : Guard) (sa : SReg) (ab : BitVec 5) (off : BitVec 20) (num len : BitVec 8)
  /-- VLATCH (R250). -/
  | vlatch (g : Guard) (t : LatchDst) (sender : BitVec 5) (num : BitVec 8)
  /-- VSTAT (R251). -/
  | vstat (g : Guard) (sd : SReg)
  /-- QPUSH (R253). -/
  | qpush (g : Guard) (k : BitVec 4) (ab : BitVec 5) (off : BitVec 20)
  /-- QADV (R253). -/
  | qadv (g : Guard) (k n : BitVec 4)
  /-- QCFG (R252). -/
  | qcfg (g : Guard) (k : BitVec 4) (prod cons : BitVec 2)
  /-- QRST (R252). -/
  | qrst (g : Guard) (k : BitVec 4)
  /-- GSRCH (R254). -/
  | gsrch (g : Guard) (ab : BitVec 5) (off : BitVec 20) (sd : SReg)
  /-- GSTAT (R254, R348). -/
  | gstat (g : Guard) (sd sa : SReg)
  /-- RLYDONE (R255, R330). -/
  | rlydone (g : Guard) (n : BitVec 8)
  /-- RLYFREE (R255, R330). -/
  | rlyfree (g : Guard) (n : BitVec 8)
  /-- RLYSTASH (R255, R330). -/
  | rlystash (g : Guard) (n : BitVec 8)
  /-- RLYPOP (R255, R330). -/
  | rlypop (g : Guard) (n : BitVec 8)
  /-- CRES (R256). -/
  | cres (g : Guard) (sd : SReg) (ab : BitVec 5) (sa : SReg)
  /-- CREL (R256). -/
  | crel (g : Guard) (ab : BitVec 5) (sa : SReg)
  /-- SPLIT (R257). -/
  | split (g : Guard) (n : BitVec 4)
  -- Events of the device (spec/95)
  /-- SPLIT_OCCUPANCY_END (R257). -/
  | splitOccupancyEnd (core : Nat)
  /-- BUNDLE_FETCH (R111). -/
  | bundleFetch (core : Nat)
  /-- RESULT_DELIVERY (R263). -/
  | resultDelivery (core : Nat)
  /-- LOAD_DATA_RETURN (R308). -/
  | loadDataReturn (core : Nat)
  /-- XLD_LANDING (R191). -/
  | xldLanding (core : Nat)
  /-- CONTRIBUTION_LANDING (R203). -/
  | contributionLanding (core : Nat)
  /-- PUSH_LANDING (R202). -/
  | pushLanding (core : Nat)
  /-- QUEUE_PRODUCER_LANDING (R58). -/
  | queueProducerLanding (quad k : Nat)
  /-- STALL_PARK (R29). -/
  | stallPark (core ctx : Nat)
  /-- TASK_WAKE (R28). -/
  | taskWake (core ctx : Nat)
  /-- PRIORITY_PROMOTION (R30). -/
  | priorityPromotion (core ctx : Nat)
  /-- TURN_END (R31). -/
  | turnEnd (core : Nat)
  /-- SWITCH_BEGIN (R32). -/
  | switchBegin (core : Nat)
  /-- SWITCH_END (R32). -/
  | switchEnd (core : Nat)
  /-- PLACEMENT_START (R24). -/
  | placementStart (launch entry : Nat)
  /-- STASH_FILL (R288). -/
  | stashFill (core e sector : Nat)
  /-- TILE_FILL_COMPLETE (R296). -/
  | tileFillComplete (core e : Nat)
  /-- TILE_DRAIN_COMPLETE (R296). -/
  | tileDrainComplete (core e : Nat)
  /-- PUMP_JOB_START (R236). -/
  | pumpJobStart (core ch : Nat)
  /-- PUMP_JOB_COMPLETE (R236). -/
  | pumpJobComplete (core ch : Nat)
  /-- PUMP_JOB_HALT (R242). -/
  | pumpJobHalt (core ch : Nat)
  /-- ENGINE_RANGE_JOB_COMPLETE (R230). -/
  | engineRangeJobComplete (core : Nat)
  /-- WELLHEAD_UPDATE (R306). -/
  | wellheadUpdate (core : Nat)
  /-- VOLLEY_DRIVE (R249). -/
  | volleyDrive (core ctx : Nat)
  /-- SPILL_STALL_RELEASE (R303). -/
  | spillStallRelease (die : Nat)
  /-- HELD_POSTING_RELEASE (R374). -/
  | heldPostingRelease (part : Nat)
  /-- NOTIFY_WRITE (R354). -/
  | notifyWrite (offset width : Nat) (value : BitVec 64)
  /-- PACKET_FETCH (R355). -/
  | packetFetch (q : Nat)
  /-- LAUNCH (R358). -/
  | launch (q idx : Nat)
  /-- LAUNCH_COMPLETE (R26). -/
  | launchComplete (launch : Nat)
  /-- COPY (R358). -/
  | copy (q idx : Nat)
  /-- RALLY_LOAD (R324). -/
  | rallyLoad (q idx : Nat)
  /-- GEN (R358). -/
  | gen (q idx : Nat)
  /-- BARRIER (R358). -/
  | barrier (q idx : Nat)
  /-- BARRIER_CONDITION_MET (R358). -/
  | barrierConditionMet (q idx : Nat)
  /-- FENCE (R358). -/
  | fence (q idx : Nat)
  /-- HOST_WORD_POLL (R443). -/
  | hostWordPoll (w : Waiter)
  /-- SLICE_END (R363). -/
  | sliceEnd (quad : Nat)
  /-- SLICE_START (R364). -/
  | sliceStart (quad : Nat)
  /-- SPACING_OVERRUN (R397). -/
  | spacingOverrun (core ctx : Nat) (ns : BitVec 48)
  /-- CONTEXT_SAVE (R395). -/
  | contextSave (quad : Nat)
  /-- SAVE (R399). -/
  | save (part : Nat)
  /-- RESTORE (R404). -/
  | restore (part : Nat)
  /-- SHOOTDOWN (R372). -/
  | shootdown (part : Nat) (value : BitVec 64)
  /-- SHOOTDOWN_ACK (R282). -/
  | shootdownAck (part core : Nat)
  /-- SHOOTDOWN_DONE (R372). -/
  | shootdownDone (part : Nat)
  /-- MIGRATION_START (R376). -/
  | migrationStart (part rec : Nat)
  /-- MIGRATION_LINE_MOVE (R376). -/
  | migrationLineMove (part rec : Nat)
  /-- MIGRATION_FINISH (R377). -/
  | migrationFinish (part rec : Nat)
  /-- MIGRATION_DONE (R377). -/
  | migrationDone (part rec : Nat)
  /-- SWEEP_PASS_START (R392). -/
  | sweepPassStart
  /-- SWEEP_ELEMENT (R391). -/
  | sweepElement (e : SweepElem)
  /-- SWEEP_PASS_COMPLETE (R392). -/
  | sweepPassComplete
  /-- RALLY_ENTRY_START (R326). -/
  | rallyEntryStart (part : Nat)
  /-- RALLY_ENTRY_COMPLETE (R329). -/
  | rallyEntryComplete (part : Nat)
  /-- RALLY_INCREMENT_TIMEOUT (R330). -/
  | rallyIncrementTimeout (rtag : Nat)
  /-- GSE_QUERY_PACKET (R339). -/
  | gseQueryPacket (stack : Nat)
  /-- GSE_ROUND (R343). -/
  | gseRound (stack slot : Nat)
  /-- GSE_FORWARDED_REQUEST (R339). -/
  | gseForwardedRequest (stack : Nat)
  /-- GSE_QUERY_COMPLETE (R347). -/
  | gseQueryComplete (stack slot : Nat)
  /-- FLIT_SEND (R410). -/
  | flitSend (port : Nat)
  /-- FLIT_RECEIVE (R408). -/
  | flitReceive (port : Nat) (payload : BitVec 512) (ctl : BitVec 32)
  /-- REPORT_TIMER (R409). -/
  | reportTimer (port : Nat)
  /-- REPORT_RECEIVE (R409). -/
  | reportReceive (port : Nat) (payload : BitVec 512) (ctl : BitVec 32)
  /-- FABRIC_READ (R419). -/
  | fabricRead
  /-- FABRIC_WRITE (R419). -/
  | fabricWrite
  /-- FABRIC_POSTED_WRITE (R416). -/
  | fabricPostedWrite
  /-- FABRIC_ATOMIC (R419). -/
  | fabricAtomic
  /-- FABRIC_RESPONSE (R233). -/
  | fabricResponse
  /-- STALE_NOTICE (R418). -/
  | staleNotice
  /-- ANNOUNCE (R418). -/
  | announce
  /-- ANNOUNCE_SEND (R418). -/
  | announceSend (node : Nat)
  /-- RALLY_INCREMENT (R330). -/
  | rallyIncrement
  /-- POSTED_WRITE_GAP_TIMEOUT (R416). -/
  | postedWriteGapTimeout (src : Nat)
  /-- ESCAPE_MOVE (R417). -/
  | escapeMove (port vc : Nat)
  /-- REMOTE_TIMEOUT (R420). -/
  | remoteTimeout (rtag : Nat)
  /-- PORT_TRAINING_DONE (R413). -/
  | portTrainingDone (port : Nat) (peer : BitVec 10) (pport : BitVec 5)
  /-- NODE_ID_WRITE (R428). -/
  | nodeIdWrite (value : BitVec 64)
  /-- COLD_RESET (R423). -/
  | coldReset
  /-- WARM_RESET (R424). -/
  | warmReset
  /-- FUNCTION_RESET (R425). -/
  | functionReset
  /-- START_GROUP_BEGIN (R426). -/
  | startGroupBegin (group : Nat)
  /-- UNIT_READY (R428). -/
  | unitReady (u : StartUnit) (ok : Bool)
  /-- CORRECTED_ERROR (R432). -/
  | correctedError (kind : UnitKind) (index : Nat) (addr : BitVec 64) (part : Nat)
  /-- CORRECTED_THRESHOLD (R432). -/
  | correctedThreshold (kind : UnitKind) (index : Nat)
  /-- UNCORRECTABLE_LINE_ERROR (R435). -/
  | uncorrectableLineError (cache : Bool) (line : Nat)
  /-- TAG_PARITY_ERROR (R436). -/
  | tagParityError (die line : Nat)
  /-- ERROR_INJECT (R434). -/
  | errorInject (value : BitVec 64)
  /-- INJECTED_REPORT (R434). -/
  | injectedReport (kind : UnitKind) (index cls : Nat) (addr detail : BitVec 64)
  /-- CKPT_CLOSE_DONE (R438). -/
  | ckptCloseDone (part : Nat)
  /-- ROLLBACK (R440). -/
  | rollback (part : Nat)
  /-- ROLLBACK_DONE (R440). -/
  | rollbackDone (part : Nat)
  /-- POWER_CONTROL_TICK (R441). -/
  | powerControlTick (watts : BitVec 13)
  /-- REGISTER_WRITE (R10). -/
  | registerWrite (offset : Nat) (value : BitVec 64)
  /-- TLB_WALK_COMPLETE (R218). -/
  | tlbWalkComplete (core : Nat)
  deriving DecidableEq, Repr

end Sys2Proof
end

