-- ==== Sys2Proof/Machine/Limits.lean ====
section
/-! DEFINITION. What the spec's instruction entries require of their fields, and the facts about operands
and formats that those limits use. -/

namespace Sys2Proof.Machine

/-- A scalar source names s, a or i0 to i5 (R43). -/
def scalarOk : SReg → Bool
  | .s _ => true
  | .a _ => true
  | .i n => n.toNat < 6

/-- A scalar destination names s or a (R43, R215). -/
def scalarDst : SReg → Bool
  | .s _ => true
  | .a _ => true
  | .i _ => false

/-- CAS takes two registers of one kind, so s63 and a31 are excluded (R227). -/
def casPair : SReg → Bool
  | .s n => n.toNat < 63
  | .a n => n.toNat < 31
  | .i _ => false

/-- A vector source names v0 to v1535, tN or a queue form (R44). -/
def vectorOk : VSrc → Bool
  | .v n => n.toNat < 1536
  | .t _ => true
  | .k _ _ _ => true

/-- A vector destination names v0 to v1535, kN or nothing (R45). -/
def vectorDstOk : VDst → Bool
  | .v n => n.toNat < 1536
  | .k _ => true
  | .none => true

/-- The width of an element in bits (R47, R68, R72). -/
def fmtWidth : Fmt → Nat
  | .f32 => 32 | .bf16 => 16 | .f16 => 16 | .e4m3 => 8 | .e5m2 => 8 | .e2m1 => 4
  | .i32 => 32 | .i16 => 16 | .i8 => 8 | .i64 => 64

/-- The elements of a 1,024-byte operand (R47): 8,192 bits over the width. -/
def fmtCount : Fmt → Nat
  | .f32 => 256 | .bf16 => 512 | .f16 => 512 | .e4m3 => 1024 | .e5m2 => 1024 | .e2m1 => 2048
  | .i32 => 256 | .i16 => 512 | .i8 => 1024 | .i64 => 128

/-- Format class FA: F32, BF16, F16 (R167). -/
def fmtFA : Fmt → Bool
  | .f32 => true | .bf16 => true | .f16 => true | _ => false

/-- Format class FL: FA and E4M3, E5M2, E2M1 (R167). -/
def fmtFL : Fmt → Bool
  | .f32 => true | .bf16 => true | .f16 => true | .e4m3 => true | .e5m2 => true | .e2m1 => true | _ => false

/-- Format class IN: I32, I16, I8, I64 (R167). -/
def fmtInt : Fmt → Bool
  | .i32 => true | .i16 => true | .i8 => true | .i64 => true | _ => false

/-- The formats that MDRAIN converts to: V codes 0 to 7 (R198). -/
def fmtDrains : Fmt → Bool
  | .i8 => false | .i64 => false | _ => true

/-- The drain units of a register in a format (R213). -/
def drainUnits : Fmt → Nat
  | .f32 => 4 | .i32 => 4 | .bf16 => 8 | .f16 => 8 | .i16 => 8 | .e4m3 => 16 | .e5m2 => 16 | .e2m1 => 32
  | .i8 => 0 | .i64 => 0

/-- The scaled matrix formats, codes 2 to 6 (R82). -/
def mfmtScaled : MFmt → Bool
  | .bf16 => false | .f16 => false | .i8 => false | _ => true

/-- The part of a conversion from ni to no elements lies below its bound (R180). -/
def partOk (ni no : Nat) (part : BitVec 4) : Bool :=
  if no < ni then part.toNat < ni / no else part.toNat < no / ni

/-- The row operand, when ROW holds it, lies below the limit of R198 or R213. -/
def rowBelow (limit : Nat) : MRow → Bool
  | .imm n => n.toNat < limit
  | .i0 => true

/-- A static ACC is below 3,072 (R53). -/
def accOk (a : AccRef) : Bool := a.row.toNat < 3072

/-- The operation and format pairs of an atomic (R227). -/
def atomOk (op : AtomOp) (f : Fmt) : Bool :=
  f == .i32 || f == .i64 || (f == .f32 && op == .add)

/-- The operation and format pairs of WATOMR (R228). -/
def watomrOk (op : AtomOp) (f : Fmt) : Bool :=
  (op == .add && (f == .f32 || f == .bf16 || f == .i32)) ||
    ((op == .min || op == .max) && (f == .f32 || f == .i32))

/-- The data register of a remote access fits its width (R232, R215). -/
def remoteDataOk (wd : RWidth) (d : RData) (load : Bool) : Bool :=
  match d with
  | .scalar r => (wd != .v64 && wd != .v) && (if load then scalarDst r else scalarOk r)
  | .vector n => (wd == .v64 || wd == .v) && n.toNat < 1536

/-- The numbers of R61 (R62). -/
def sysKnown (num : BitVec 12) : Bool :=
  let n := num.toNat
  n < 8 || (0x10 ≤ n && n ≤ 0x15) || (0x40 ≤ n && n ≤ 0x5F)

/-- The numbers of R61 whose access is RW: PARK.THRESH, TRAP.PC, TRAP.VEC and KFMT.N (R62). -/
def sysWritable (num : BitVec 12) : Bool :=
  let n := num.toNat
  n == 5 || n == 0x11 || n == 0x15 || (0x40 ≤ n && n ≤ 0x4F)

/-- What the entry of an instruction requires of its fields beyond their shape: the value limits whose
breach is reason 3 of R130. The length test of LOOP (R140) needs the bundle and stands in Decode. (Log 14: DEDUCED) -/
def limits : Instr → Bool
  -- C slot (R122)
  | .cNop _ => true
  | .br _ _ => true
  | .brl _ _ => true
  | .jmp _ sa _ => scalarOk sa
  | .jmpl _ sa _ => scalarOk sa
  | .ret _ => true
  | .loop _ sa _ => scalarOk sa
  | .loopi _ _ _ => true
  | .loopP _ sa stages _ => scalarOk sa && 1 ≤ stages.toNat && stages.toNat ≤ 8
  | .lbrk _ => true
  | .lcont _ => true
  | .ldelta _ _ d sa => scalarOk sa && d.toNat < 6
  | .sync _ mask _ => mask != 0
  | .safe _ _ => true
  | .waitx _ _ sa => scalarOk sa
  | .parkYield _ => true
  | .parkTime _ sa => scalarOk sa
  | .parkWord _ sa sb => scalarOk sa && scalarOk sb
  | .parkQueue _ _ => true
  | .tspawn _ _ _ sa sb => scalarOk sa && scalarOk sb
  | .texit _ => true
  | .halt _ _ => true
  | .barq _ _ sa => scalarOk sa
  | .bard _ _ sa => scalarOk sa
  | .bara _ _ _ => true
  | .barw _ _ _ => true
  | .pgwait _ sa => scalarOk sa
  | .trap _ _ => true
  | .eret _ => true
  | .mfs _ sd num => scalarDst sd && sysKnown num
  | .mts _ num sa => scalarOk sa && sysWritable num
  | .geninc _ sd sp => scalarOk sp && scalarDst sd
  | .genrd _ sd sp => scalarOk sp && scalarDst sd
  | .sweep _ sa _ _ => scalarOk sa
  | .ckpt _ sp => scalarOk sp
  -- S slot (R124)
  | .sNop _ => true
  | .add _ sd sa sb => scalarOk sa && scalarOk sb && scalarDst sd
  | .sub _ sd sa sb => scalarOk sa && scalarOk sb && scalarDst sd
  | .mul _ sd sa sb => scalarOk sa && scalarOk sb && scalarDst sd
  | .mulhu _ sd sa sb => scalarOk sa && scalarOk sb && scalarDst sd
  | .mulhs _ sd sa sb => scalarOk sa && scalarOk sb && scalarDst sd
  | .divu _ sd sa sb => scalarOk sa && scalarOk sb && scalarDst sd
  | .divs _ sd sa sb => scalarOk sa && scalarOk sb && scalarDst sd
  | .remu _ sd sa sb => scalarOk sa && scalarOk sb && scalarDst sd
  | .rems _ sd sa sb => scalarOk sa && scalarOk sb && scalarDst sd
  | .and _ sd sa sb => scalarOk sa && scalarOk sb && scalarDst sd
  | .or _ sd sa sb => scalarOk sa && scalarOk sb && scalarDst sd
  | .xor _ sd sa sb => scalarOk sa && scalarOk sb && scalarDst sd
  | .andn _ sd sa sb => scalarOk sa && scalarOk sb && scalarDst sd
  | .shl _ sd sa sb => scalarOk sa && scalarOk sb && scalarDst sd
  | .shr _ sd sa sb => scalarOk sa && scalarOk sb && scalarDst sd
  | .sra _ sd sa sb => scalarOk sa && scalarOk sb && scalarDst sd
  | .rol _ sd sa sb => scalarOk sa && scalarOk sb && scalarDst sd
  | .min _ sd sa sb => scalarOk sa && scalarOk sb && scalarDst sd
  | .max _ sd sa sb => scalarOk sa && scalarOk sb && scalarDst sd
  | .minu _ sd sa sb => scalarOk sa && scalarOk sb && scalarDst sd
  | .maxu _ sd sa sb => scalarOk sa && scalarOk sb && scalarDst sd
  | .clz _ sd sa => scalarOk sa && scalarDst sd
  | .ctz _ sd sa => scalarOk sa && scalarDst sd
  | .popc _ sd sa => scalarOk sa && scalarDst sd
  | .sext _ sd sa w => scalarOk sa && scalarDst sd && 1 ≤ w.toNat && w.toNat ≤ 64
  | .zext _ sd sa w => scalarOk sa && scalarDst sd && 1 ≤ w.toNat && w.toNat ≤ 64
  | .mov _ sd sa => scalarOk sa && scalarDst sd
  | .addx _ sd sa sb _ => scalarOk sa && scalarOk sb && scalarDst sd
  | .addi _ sd sa _ => scalarOk sa && scalarDst sd
  | .andi _ sd sa _ => scalarOk sa && scalarDst sd
  | .ori _ sd sa _ => scalarOk sa && scalarDst sd
  | .xori _ sd sa _ => scalarOk sa && scalarDst sd
  | .shli _ sd sa _ => scalarOk sa && scalarDst sd
  | .shri _ sd sa _ => scalarOk sa && scalarDst sd
  | .srai _ sd sa _ => scalarOk sa && scalarDst sd
  | .li _ sd _ => scalarDst sd
  | .lih _ sd _ => scalarDst sd
  | .ceq _ _ sa sb => scalarOk sa && scalarOk sb
  | .cne _ _ sa sb => scalarOk sa && scalarOk sb
  | .clt _ _ sa sb => scalarOk sa && scalarOk sb
  | .cle _ _ sa sb => scalarOk sa && scalarOk sb
  | .cltu _ _ sa sb => scalarOk sa && scalarOk sb
  | .cleu _ _ sa sb => scalarOk sa && scalarOk sb
  | .ceqi _ _ sa _ => scalarOk sa
  | .clti _ _ sa _ => scalarOk sa
  | .cltui _ _ sa _ => scalarOk sa
  | .sel _ sd sa sb _ => scalarOk sa && scalarOk sb && scalarDst sd
  | .fadd _ sd sa sb => scalarOk sa && scalarOk sb && scalarDst sd
  | .fmul _ sd sa sb => scalarOk sa && scalarOk sb && scalarDst sd
  | .fmin _ sd sa sb => scalarOk sa && scalarOk sb && scalarDst sd
  | .fmax _ sd sa sb => scalarOk sa && scalarOk sb && scalarDst sd
  | .ftoi _ sd sa => scalarOk sa && scalarDst sd
  | .itof _ sd sa => scalarOk sa && scalarDst sd
  -- P slot (R125)
  | .pNop _ => true
  | .pand _ _ _ _ => true
  | .por _ _ _ _ => true
  | .pxor _ _ _ _ => true
  | .pandn _ _ _ _ => true
  | .pnot _ _ _ => true
  | .pseti _ _ _ => true
  | .planes _ _ _ n => n.toNat ≤ 256
  | .pbcst _ _ _ _ => true
  | .pany _ _ _ => true
  | .pall _ _ _ => true
  | .prot _ _ _ _ => true
  | .xld _ _ _ _ => true
  | .xset _ _ _ => true
  | .xmov _ _ _ => true
  | .qfmt _ _ _ _ _ _ => true
  -- V slots (R126)
  | .vNop _ => true
  | .vadd _ f _ vd va vb => vectorDstOk vd && vectorOk va && vectorOk vb && fmtFA f
  | .vsub _ f _ vd va vb => vectorDstOk vd && vectorOk va && vectorOk vb && fmtFA f
  | .vmul _ f _ vd va vb => vectorDstOk vd && vectorOk va && vectorOk vb && fmtFA f
  | .vfma _ f _ vd va vb vc => vectorDstOk vd && vectorOk va && vectorOk vb && vectorOk vc && fmtFA f
  | .vfms _ f _ vd va vb vc => vectorDstOk vd && vectorOk va && vectorOk vb && vectorOk vc && fmtFA f
  | .vfnma _ f _ vd va vb vc => vectorDstOk vd && vectorOk va && vectorOk vb && vectorOk vc && fmtFA f
  | .vmin _ f _ vd va vb => vectorDstOk vd && vectorOk va && vectorOk vb && fmtFA f
  | .vmax _ f _ vd va vb => vectorDstOk vd && vectorOk va && vectorOk vb && fmtFA f
  | .vabs _ f _ vd va => vectorDstOk vd && vectorOk va && fmtFA f
  | .vneg _ f _ vd va => vectorDstOk vd && vectorOk va && fmtFA f
  | .vrcp _ f _ vd va => vectorDstOk vd && vectorOk va && fmtFA f
  | .vrsq _ f _ vd va => vectorDstOk vd && vectorOk va && fmtFA f
  | .vsqrt _ f _ vd va => vectorDstOk vd && vectorOk va && fmtFA f
  | .vexp2 _ f _ vd va => vectorDstOk vd && vectorOk va && fmtFA f
  | .vlog2 _ f _ vd va => vectorDstOk vd && vectorOk va && fmtFA f
  | .vcmpeq _ f _ _ va vb => vectorOk va && vectorOk vb && fmtFA f
  | .vcmplt _ f _ _ va vb => vectorOk va && vectorOk vb && fmtFA f
  | .vcmple _ f _ _ va vb => vectorOk va && vectorOk vb && fmtFA f
  | .vcmpne _ f _ _ va vb => vectorOk va && vectorOk vb && fmtFA f
  | .vclass _ f _ _ va _ => vectorOk va && fmtFL f
  | .vsel _ _ _ vd va vb _ => vectorDstOk vd && vectorOk va && vectorOk vb
  | .vcvt _ fd _ vd va fs _ part => vectorDstOk vd && vectorOk va && partOk (fmtCount fs) (fmtCount fd) part
  | .vqnt _ fd _ vd va vc fs _ part => vectorDstOk vd && vectorOk va && vectorOk vc && (fd == .e4m3 || fd == .e5m2 || fd == .e2m1 || fd == .i8) && fmtFA fs && partOk (fmtCount fs) (fmtCount fd) part
  | .vcbdec _ fd _ vd va part => vectorDstOk vd && vectorOk va && (fd == .f32 || fd == .bf16 || fd == .f16 || fd == .e4m3) && part.toNat < 4096 / fmtCount fd
  | .vround _ f _ vd va => vectorDstOk vd && vectorOk va && fmtFA f
  | .viadd _ f _ vd va vb => vectorDstOk vd && vectorOk va && vectorOk vb && fmtInt f
  | .visub _ f _ vd va vb => vectorDstOk vd && vectorOk va && vectorOk vb && fmtInt f
  | .vimul _ f _ vd va vb => vectorDstOk vd && vectorOk va && vectorOk vb && fmtInt f
  | .vimin _ f _ vd va vb => vectorDstOk vd && vectorOk va && vectorOk vb && fmtInt f
  | .vimax _ f _ vd va vb => vectorDstOk vd && vectorOk va && vectorOk vb && fmtInt f
  | .vand _ _ _ vd va vb => vectorDstOk vd && vectorOk va && vectorOk vb
  | .vor _ _ _ vd va vb => vectorDstOk vd && vectorOk va && vectorOk vb
  | .vxor _ _ _ vd va vb => vectorDstOk vd && vectorOk va && vectorOk vb
  | .vshl _ f _ vd va vb => vectorDstOk vd && vectorOk va && vectorOk vb && fmtInt f
  | .vshr _ f _ vd va vb => vectorDstOk vd && vectorOk va && vectorOk vb && fmtInt f
  | .vsra _ f _ vd va vb => vectorDstOk vd && vectorOk va && vectorOk vb && fmtInt f
  | .vicmpeq _ f _ _ va vb => vectorOk va && vectorOk vb && fmtInt f
  | .vicmplt _ f _ _ va vb => vectorOk va && vectorOk vb && fmtInt f
  | .viabs _ f _ vd va => vectorDstOk vd && vectorOk va && fmtInt f
  | .vpopc _ f _ vd va => vectorDstOk vd && vectorOk va && fmtInt f
  | .vmov _ _ _ vd va => vectorDstOk vd && vectorOk va
  | .vbcst _ f _ vd va n => vectorDstOk vd && vectorOk va && n.toNat < fmtCount f
  | .vperm _ f _ vd va vb => vectorDstOk vd && vectorOk va && vectorOk vb && (fmtFA f || f == .i32 || f == .i16 || f == .i64)
  | .vrotl _ f _ vd va n => vectorDstOk vd && vectorOk va && n.toNat < fmtCount f
  | .vextr _ f _ vd va vb n => vectorDstOk vd && vectorOk va && vectorOk vb && n.toNat < fmtCount f
  | .vins _ f _ vd va vb n => vectorDstOk vd && vectorOk va && vectorOk vb && n.toNat < fmtCount f
  | .vzip _ _ _ vd va vb _ => vectorDstOk vd && vectorOk va && vectorOk vb
  | .vunzip _ _ _ vd va vb _ => vectorDstOk vd && vectorOk va && vectorOk vb
  | .viota _ f _ vd => vectorDstOk vd && (fmtFA f || fmtInt f)
  | .vcompr _ _ _ vd va _ => vectorDstOk vd && vectorOk va
  | .vexpnd _ _ _ vd va _ => vectorDstOk vd && vectorOk va
  | .vrsum _ f _ vd va _ => vectorDstOk vd && vectorOk va && (fmtFL f || fmtInt f)
  | .vrmax _ f _ vd va _ => vectorDstOk vd && vectorOk va && (fmtFL f || fmtInt f)
  | .vrmin _ f _ vd va _ => vectorDstOk vd && vectorOk va && (fmtFL f || fmtInt f)
  | .vscan _ f _ vd va _ => vectorDstOk vd && vectorOk va && (f == .f32 || f == .i32 || f == .i64)
  | .vdot _ f _ vd va vb _ => vectorDstOk vd && vectorOk va && vectorOk vb && (fmtFL f || f == .i8 || f == .i16 || f == .i32)
  | .vargmx _ f _ vd va _ => vectorDstOk vd && vectorOk va && (fmtFL f || f == .i8 || f == .i16 || f == .i32)
  -- M slot (R127)
  | .mNop _ => true
  | .mpush _ _ vs row => vectorOk vs && rowBelow 8 row
  | .mpusht _ _ _ row => rowBelow 8 row
  | .mshift _ f acc vs row xa xb _ => accOk acc && vectorOk vs && (mfmtScaled f || (xa == 0 && xb == 0)) && rowBelow 8 row
  | .mshiftl _ f acc _ xa xb _ => accOk acc && (mfmtScaled f || (xa == 0 && xb == 0))
  | .mshiftt _ f acc _ _ xa xb _ => accOk acc && (mfmtScaled f || (xa == 0 && xb == 0))
  | .mflip _ => true
  | .mdrain _ f acc vd row _ _ => accOk acc && vd.toNat < 1536 && fmtDrains f && rowBelow (drainUnits f) row
  | .mzero _ acc => accOk acc
  | .maddv _ f acc vs row _ => accOk acc && vectorOk vs && (f == .f32 || f == .i32) && rowBelow 4 row
  | .mdrainz _ f acc vd row _ _ => accOk acc && vd.toNat < 1536 && fmtDrains f && rowBelow (drainUnits f) row
  -- L slot (R128)
  | .lNop _ => true
  | .lds _ w sx sd _ sa _ => scalarOk sa && scalarDst sd && !(sx && w == 3)
  | .sts _ _ sv _ sa _ => scalarOk sv && scalarOk sa
  | .vld _ len vd _ sa _ => scalarOk sa && vd.toNat < 1536 && len.toNat ≤ 4
  | .vst _ len vd _ sa _ => scalarOk sa && vd.toNat < 1536 && len.toNat ≤ 4
  | .vlds _ _ vd _ _ sa => scalarOk sa && vd.toNat < 1536
  | .vsts _ _ vd _ _ sa => scalarOk sa && vd.toNat < 1536
  | .vldx _ w vd _ sa vx => scalarOk sa && vd.toNat < 1536 && vx.toNat < 1536 && 2 ≤ w.toNat
  | .vstx _ w vd _ sa vx => scalarOk sa && vd.toNat < 1536 && vx.toNat < 1536 && 2 ≤ w.toNat
  | .gathr _ glob res vx _ sa _ cnt pr => scalarOk sa && vx.toNat < 1536 && cnt.toNat < 64 && (glob || !res) && (res || pr == 0)
  | .atoml _ op f sd _ sa _ => scalarOk sa && scalarDst sd && atomOk op f && (op != .cas || casPair sd)
  | .ldg _ w sx sd _ sa _ _ => scalarOk sa && scalarDst sd && !(sx && w == 3)
  | .stg _ _ sv _ sa _ => scalarOk sv && scalarOk sa
  | .vldg _ len vd _ sa _ _ => scalarOk sa && vd.toNat < 1536 && len.toNat ≤ 4
  | .vstg _ len vd _ sa _ => scalarOk sa && vd.toNat < 1536 && len.toNat ≤ 4
  | .atomg _ op f sd _ sa _ => scalarOk sa && scalarDst sd && atomOk op f && (op != .cas || casPair sd)
  | .watom _ op f sd _ sa _ => scalarOk sa && scalarDst sd && atomOk op f && (op != .cas || casPair sd)
  | .watomr _ op f vd _ sa _ => scalarOk sa && vd.toNat < 1536 && watomrOk op f
  | .pgreq _ _ _ sa _ => scalarOk sa
  | .cdisc _ _ _ sa => scalarOk sa
  | .cflush _ _ _ _ sa => scalarOk sa
  | .smap _ _ _ _ sg sz => scalarOk sg && scalarOk sz
  | .sunmap _ _ => true
  | .sflush _ _ => true
  | .sdisc _ _ => true
  | .rldg _ wd d _ _ sa => scalarOk sa && remoteDataOk wd d true
  | .rstg _ wd d _ _ sa => scalarOk sa && remoteDataOk wd d false
  | .rstp _ wd d _ _ sa => scalarOk sa && remoteDataOk wd d false
  | .ratom _ op f sd _ _ sa => scalarOk sa && scalarDst sd && atomOk op f && (op != .cas || casPair sd)
  | .rfence _ => true
  -- E slot (R129)
  | .eNop _ => true
  | .pcopy _ _ _ _ sd => scalarDst sd
  | .pcopyt _ _ _ _ sd => scalarDst sd
  | .pcopyr _ _ _ _ sd => scalarDst sd
  | .pstat _ _ sd => scalarDst sd
  | .pstatErr _ _ sd => scalarDst sd
  | .pstatClr _ _ sd => scalarDst sd
  | .tbind _ e lvl _ sa ac n _ pair => scalarOk sa && lvl != 6 && 1 ≤ n.toNat && n.toNat ≤ 6 && ac.toNat + n.toNat ≤ 32 && (!pair || e.toNat % 2 == 0)
  | .tfill _ _ => true
  | .tdrain _ _ => true
  | .tfree _ _ => true
  | .tstate _ _ sd => scalarDst sd
  | .vsend _ sa _ _ _ len => scalarOk sa && len != 0
  | .vlatch _ _ _ _ => true
  | .vstat _ sd => scalarDst sd
  | .qpush _ _ _ _ => true
  | .qadv _ _ n => 1 ≤ n.toNat && n.toNat ≤ 8
  | .qcfg _ _ _ _ => true
  | .qrst _ _ => true
  | .gsrch _ _ _ sd => scalarDst sd
  | .gstat _ sd sa => scalarOk sa && scalarDst sd
  | .rlydone _ n => n != 0
  | .rlyfree _ n => n != 0
  | .rlystash _ n => n != 0
  | .rlypop _ n => n != 0
  | .cres _ sd _ sa => scalarOk sa && scalarDst sd
  | .crel _ _ sa => scalarOk sa
  | .split _ n => n.toNat ≤ 12
  -- Events of the device (spec/95)
  | .splitOccupancyEnd _ => true
  | .bundleFetch _ => true
  | .resultDelivery _ => true
  | .loadDataReturn _ => true
  | .xldLanding _ => true
  | .contributionLanding _ => true
  | .pushLanding _ => true
  | .queueProducerLanding _ _ => true
  | .stallPark _ _ => true
  | .taskWake _ _ => true
  | .priorityPromotion _ _ => true
  | .turnEnd _ => true
  | .switchBegin _ => true
  | .switchEnd _ => true
  | .placementStart _ _ => true
  | .stashFill _ _ _ => true
  | .tileFillComplete _ _ => true
  | .tileDrainComplete _ _ => true
  | .pumpJobStart _ _ => true
  | .pumpJobComplete _ _ => true
  | .pumpJobHalt _ _ => true
  | .engineRangeJobComplete _ => true
  | .wellheadUpdate _ => true
  | .volleyDrive _ _ => true
  | .spillStallRelease _ => true
  | .heldPostingRelease _ => true
  | .notifyWrite _ _ _ => true
  | .packetFetch _ => true
  | .launch _ _ => true
  | .launchComplete _ => true
  | .copy _ _ => true
  | .rallyLoad _ _ => true
  | .gen _ _ => true
  | .barrier _ _ => true
  | .barrierConditionMet _ _ => true
  | .fence _ _ => true
  | .hostWordPoll _ => true
  | .sliceEnd _ => true
  | .sliceStart _ => true
  | .spacingOverrun _ _ _ => true
  | .contextSave _ => true
  | .save _ => true
  | .restore _ => true
  | .shootdown _ _ => true
  | .shootdownAck _ _ => true
  | .shootdownDone _ => true
  | .migrationStart _ _ => true
  | .migrationLineMove _ _ => true
  | .migrationFinish _ _ => true
  | .migrationDone _ _ => true
  | .sweepPassStart => true
  | .sweepElement _ => true
  | .sweepPassComplete => true
  | .rallyEntryStart _ => true
  | .rallyEntryComplete _ => true
  | .rallyIncrementTimeout _ => true
  | .gseQueryPacket _ => true
  | .gseRound _ _ => true
  | .gseForwardedRequest _ => true
  | .gseQueryComplete _ _ => true
  | .flitSend _ => true
  | .flitReceive _ _ _ => true
  | .reportTimer _ => true
  | .reportReceive _ _ _ => true
  | .fabricRead => true
  | .fabricWrite => true
  | .fabricPostedWrite => true
  | .fabricAtomic => true
  | .fabricResponse => true
  | .staleNotice => true
  | .announce => true
  | .announceSend _ => true
  | .rallyIncrement => true
  | .postedWriteGapTimeout _ => true
  | .escapeMove _ _ => true
  | .remoteTimeout _ => true
  | .portTrainingDone _ _ _ => true
  | .nodeIdWrite _ => true
  | .coldReset => true
  | .warmReset => true
  | .functionReset => true
  | .startGroupBegin _ => true
  | .unitReady _ _ => true
  | .correctedError _ _ _ _ => true
  | .correctedThreshold _ _ => true
  | .uncorrectableLineError _ _ => true
  | .tagParityError _ _ => true
  | .errorInject _ => true
  | .injectedReport _ _ _ _ _ => true
  | .ckptCloseDone _ => true
  | .rollback _ => true
  | .rollbackDone _ => true
  | .powerControlTick _ => true
  | .registerWrite _ _ => true
  | .tlbWalkComplete _ => true

end Sys2Proof.Machine
end

