-- ==== Sys2Proof/WellFormed.lean ====
section
/-! DEFINITION. Well-formed instructions: those whose fields lie within the limits of the spec's entries.
The limits stand in Machine/Limits; an event is always well-formed, and whether it takes place is its
meaning's business. -/

namespace Sys2Proof

/-- Every field of the instruction holds a value that its entry allows (R120, R130 reason 3). -/
def Instr.wf (i : Instr) : Bool := Machine.limits i

end Sys2Proof
end

