-- ==== Sys2Proof/Decode.lean ====
section
/-! DEFINITION. Slot words: their layouts (R115 to R118), the opcode maps (R121 to R129) and the reading of
one word, total on any bits: it gives the reasons of R130 that the word alone meets, and its instruction.
After it, the encoder from the same tables. -/

namespace Sys2Proof

/-- Bits [lo + len - 1 : lo] of a word. -/
def fld {n : Nat} (w : BitVec n) (lo len : Nat) : BitVec len := w.extractLsb' lo len

/-- Bit i of a word. -/
def bit {n : Nat} (w : BitVec n) (i : Nat) : Bool := w.getLsbD i

/-- The field is zero. -/
def zero {n : Nat} (w : BitVec n) : Bool := w == 0#n

/-- A flag as a field of one bit. -/
def ofBool (b : Bool) : BitVec 1 := BitVec.ofBool b

/-- The C word (R116). -/
structure CWord where
  g : Guard
  op : BitVec 7
  sa : BitVec 7 := 0
  sb : BitVec 7 := 0
  imm : BitVec 22 := 0
  deriving DecidableEq, Repr

/-- The S word (R116); LI and LIH use SA, SB and IMM as one immediate of 29 bits. -/
structure SWord where
  g : Guard
  op : BitVec 7
  sd : BitVec 7 := 0
  sa : BitVec 7 := 0
  sb : BitVec 7 := 0
  imm : BitVec 15 := 0
  deriving DecidableEq, Repr

/-- The P word: bits [31:12] take one of three forms (R117). -/
structure PWord where
  g : Guard
  op : BitVec 7
  rest : BitVec 20
  deriving DecidableEq, Repr

/-- The logic form of a P word (R117). -/
structure PLogic where
  g : Guard
  op : BitVec 7
  pd : BitVec 4 := 0
  pa : BitVec 4 := 0
  pb : BitVec 4 := 0
  imm : BitVec 8 := 0
  deriving DecidableEq, Repr

/-- The XLD form of a P word (R117). -/
structure PXld where
  g : Guard
  op : BitVec 7
  xd : BitVec 4 := 0
  ab : BitVec 5 := 0
  off : BitVec 11 := 0
  deriving DecidableEq, Repr

/-- The QFMT form of a P word (R117). -/
structure PQfmt where
  g : Guard
  op : BitVec 7
  k : BitVec 4 := 0
  fs : BitVec 4 := 0
  fk : BitVec 4 := 0
  rm : BitVec 3 := 0
  sat : BitVec 1 := 0
  rsv : BitVec 4 := 0
  deriving DecidableEq, Repr

/-- The V word (R118). -/
structure VWord where
  g : Guard
  op : BitVec 7
  vd : BitVec 11 := 0
  va : BitVec 11 := 0
  vb : BitVec 11 := 0
  vc : BitVec 11 := 0
  fmt : BitVec 4 := 0
  rm : BitVec 3 := 0
  rsv : BitVec 1 := 0
  deriving DecidableEq, Repr

/-- The M word (R118). -/
structure MWord where
  g : Guard
  op : BitVec 7
  vs : BitVec 11 := 0
  acc : BitVec 12 := 0
  ax : BitVec 5 := 0
  axe : BitVec 1 := 0
  row : BitVec 6 := 0
  rx : BitVec 1 := 0
  fmt : BitVec 4 := 0
  xa : BitVec 4 := 0
  xb : BitVec 4 := 0
  mode : BitVec 4 := 0
  deriving DecidableEq, Repr

/-- The L word (R118). -/
structure LWord where
  g : Guard
  op : BitVec 7
  vd : BitVec 11 := 0
  ab : BitVec 5 := 0
  off : BitVec 20 := 0
  sa : BitVec 7 := 0
  w : BitVec 3 := 0
  fmt : BitVec 4 := 0
  rsv : BitVec 2 := 0
  deriving DecidableEq, Repr

/-- The E word (R118). -/
structure EWord where
  g : Guard
  op : BitVec 7
  ch : BitVec 4 := 0
  ab : BitVec 5 := 0
  sa : BitVec 7 := 0
  imm : BitVec 36 := 0
  deriving DecidableEq, Repr

/-- A slot word of any slot; V0 and V1 share one layout. -/
inductive SlotWord where
  | c (w : CWord) | s (w : SWord) | p (w : PWord) | v (w : VWord) | m (w : MWord) | l (w : LWord) | e (w : EWord)
  deriving DecidableEq, Repr

/-- Bits [4:0] of every word: G and GN (R115). -/
def Guard.bits (g : Guard) : BitVec 5 := ofBool g.neg ++ g.pred

def Guard.ofBits (w : BitVec 5) : Guard := { pred := fld w 0 4, neg := bit w 4 }

def PLogic.word (x : PLogic) : PWord := { g := x.g, op := x.op, rest := x.imm ++ x.pb ++ x.pa ++ x.pd }

def PXld.word (x : PXld) : PWord := { g := x.g, op := x.op, rest := x.off ++ x.ab ++ x.xd }

def PQfmt.word (x : PQfmt) : PWord :=
  { g := x.g, op := x.op, rest := x.rsv ++ x.sat ++ x.rm ++ x.fk ++ x.fs ++ x.k }

def PWord.logic (w : PWord) : PLogic :=
  { g := w.g, op := w.op, pd := fld w.rest 0 4, pa := fld w.rest 4 4, pb := fld w.rest 8 4, imm := fld w.rest 12 8 }

def PWord.xld (w : PWord) : PXld :=
  { g := w.g, op := w.op, xd := fld w.rest 0 4, ab := fld w.rest 4 5, off := fld w.rest 9 11 }

def PWord.qfmt (w : PWord) : PQfmt :=
  { g := w.g, op := w.op, k := fld w.rest 0 4, fs := fld w.rest 4 4, fk := fld w.rest 8 4,
    rm := fld w.rest 12 3, sat := fld w.rest 15 1, rsv := fld w.rest 16 4 }

def CWord.pack (w : CWord) : BitVec 48 := w.imm ++ w.sb ++ w.sa ++ w.op ++ w.g.bits

/-- (Log 111: DEDUCED) -/
def SWord.pack (w : SWord) : BitVec 48 := w.imm ++ w.sb ++ w.sa ++ w.sd ++ w.op ++ w.g.bits

def PWord.pack (w : PWord) : BitVec 32 := w.rest ++ w.op ++ w.g.bits

def VWord.pack (w : VWord) : BitVec 64 :=
  w.rsv ++ w.rm ++ w.fmt ++ w.vc ++ w.vb ++ w.va ++ w.vd ++ w.op ++ w.g.bits

def MWord.pack (w : MWord) : BitVec 64 :=
  w.mode ++ w.xb ++ w.xa ++ w.fmt ++ w.rx ++ w.row ++ w.axe ++ w.ax ++ w.acc ++ w.vs ++ w.op ++ w.g.bits

def LWord.pack (w : LWord) : BitVec 64 :=
  w.rsv ++ w.fmt ++ w.w ++ w.sa ++ w.off ++ w.ab ++ w.vd ++ w.op ++ w.g.bits

def EWord.pack (w : EWord) : BitVec 64 := w.imm ++ w.sa ++ w.ab ++ w.ch ++ w.op ++ w.g.bits

def CWord.unpack (w : BitVec 48) : CWord :=
  { g := Guard.ofBits (fld w 0 5), op := fld w 5 7, sa := fld w 12 7, sb := fld w 19 7, imm := fld w 26 22 }

/-- (Log 111: DEDUCED) -/
def SWord.unpack (w : BitVec 48) : SWord :=
  { g := Guard.ofBits (fld w 0 5), op := fld w 5 7, sd := fld w 12 7, sa := fld w 19 7, sb := fld w 26 7,
    imm := fld w 33 15 }

def PWord.unpack (w : BitVec 32) : PWord :=
  { g := Guard.ofBits (fld w 0 5), op := fld w 5 7, rest := fld w 12 20 }

def VWord.unpack (w : BitVec 64) : VWord :=
  { g := Guard.ofBits (fld w 0 5), op := fld w 5 7, vd := fld w 12 11, va := fld w 23 11, vb := fld w 34 11,
    vc := fld w 45 11, fmt := fld w 56 4, rm := fld w 60 3, rsv := fld w 63 1 }

def MWord.unpack (w : BitVec 64) : MWord :=
  { g := Guard.ofBits (fld w 0 5), op := fld w 5 7, vs := fld w 12 11, acc := fld w 23 12, ax := fld w 35 5,
    axe := fld w 40 1, row := fld w 41 6, rx := fld w 47 1, fmt := fld w 48 4, xa := fld w 52 4,
    xb := fld w 56 4, mode := fld w 60 4 }

def LWord.unpack (w : BitVec 64) : LWord :=
  { g := Guard.ofBits (fld w 0 5), op := fld w 5 7, vd := fld w 12 11, ab := fld w 23 5, off := fld w 28 20,
    sa := fld w 48 7, w := fld w 55 3, fmt := fld w 58 4, rsv := fld w 62 2 }

def EWord.unpack (w : BitVec 64) : EWord :=
  { g := Guard.ofBits (fld w 0 5), op := fld w 5 7, ch := fld w 12 4, ab := fld w 16 5, sa := fld w 21 7,
    imm := fld w 28 36 }

/-- Scalar operand codes (R43); a reserved code 102 to 127 becomes an i operand that `limits` refuses. -/
def SReg.dec (w : BitVec 7) : SReg :=
  if w.toNat < 64 then .s (fld w 0 6)
  else if w.toNat < 96 then .a (fld w 0 5)
  else if w.toNat < 104 then .i (fld w 0 3)
  else .i 7

def SReg.enc : SReg → BitVec 7
  | .s n => 0#1 ++ n
  | .a n => 2#2 ++ n
  | .i n => 12#4 ++ n

/-- Vector source codes (R44); a reserved code becomes a v operand that `limits` refuses. -/
def VSrc.dec (w : BitVec 11) : VSrc :=
  if w.toNat < 1536 then .v w
  else if w.toNat < 1552 then .t (fld w 0 4)
  else if w.toNat < 1808 then
    let x := w - 1552#11
    .k (fld x 0 4) (fld x 5 3) (bit x 4)
  else .v w

def VSrc.enc : VSrc → BitVec 11
  | .v n => n
  | .t n => 96#7 ++ n
  | .k n j adv => 1552#11 + (0#3 ++ j ++ ofBool adv ++ n)

/-- Vector destination codes (R45): tN and the reading queue forms become a v operand that `limits`
refuses. -/
def VDst.dec (w : BitVec 11) : VDst :=
  if w.toNat < 1536 then .v w
  else if 1552 ≤ w.toNat && w.toNat < 1568 then .k (fld w 0 4)
  else if w.toNat = 2047 then .none
  else .v w

def VDst.enc : VDst → BitVec 11
  | .v n => n
  | .k n => 97#7 ++ n
  | .none => 2047#11

/-- V-slot format codes (R119); `codeOk` refuses 10 to 15. -/
def Fmt.dec (w : BitVec 4) : Fmt :=
  match w.toNat with
  | 0 => .f32 | 1 => .bf16 | 2 => .f16 | 3 => .e4m3 | 4 => .e5m2 | 5 => .e2m1 | 6 => .i32 | 7 => .i16
  | 8 => .i8 | 9 => .i64 | _ => .f32

def Fmt.codeOk (w : BitVec 4) : Bool := w.toNat < 10

def Fmt.enc : Fmt → BitVec 4
  | .f32 => 0 | .bf16 => 1 | .f16 => 2 | .e4m3 => 3 | .e5m2 => 4 | .e2m1 => 5 | .i32 => 6 | .i16 => 7
  | .i8 => 8 | .i64 => 9

/-- M-slot format codes (R119); `codeOk` refuses 8 to 15. -/
def MFmt.dec (w : BitVec 4) : MFmt :=
  match w.toNat with
  | 0 => .bf16 | 1 => .f16 | 2 => .e4m3 | 3 => .e5m2 | 4 => .e4m3e5m2 | 5 => .e2m1 | 6 => .vq2 | 7 => .i8
  | _ => .bf16

def MFmt.codeOk (w : BitVec 4) : Bool := w.toNat < 8

def MFmt.enc : MFmt → BitVec 4
  | .bf16 => 0 | .f16 => 1 | .e4m3 => 2 | .e5m2 => 3 | .e4m3e5m2 => 4 | .e2m1 => 5 | .vq2 => 6 | .i8 => 7

/-- Rounding mode codes (R74); `codeOk` refuses 5 to 7. -/
def RM.dec (w : BitVec 3) : RM :=
  match w.toNat with
  | 0 => .rne | 1 => .rtz | 2 => .rup | 3 => .rdn | 4 => .rna | _ => .rne

def RM.codeOk (w : BitVec 3) : Bool := w.toNat < 5

def RM.enc : RM → BitVec 3
  | .rne => 0 | .rtz => 1 | .rup => 2 | .rdn => 3 | .rna => 4

/-- The operation of an atomic, from W (R227); `codeOk` refuses 7. -/
def AtomOp.dec (w : BitVec 3) : AtomOp :=
  match w.toNat with
  | 0 => .add | 1 => .min | 2 => .max | 3 => .and | 4 => .or | 5 => .xchg | 6 => .cas | _ => .add

def AtomOp.codeOk (w : BitVec 3) : Bool := w.toNat < 7

def AtomOp.enc : AtomOp → BitVec 3
  | .add => 0 | .min => 1 | .max => 2 | .and => 3 | .or => 4 | .xchg => 5 | .cas => 6

/-- The width of a remote access, from W (R232). -/
def RWidth.dec (w : BitVec 3) : RWidth :=
  match w.toNat with
  | 0 => .b | 1 => .h | 2 => .w | 3 => .d | 4 => .v64 | 5 => .v | _ => .b

def RWidth.enc : RWidth → BitVec 3
  | .b => 0 | .h => 1 | .w => 2 | .d => 3 | .v64 => 4 | .v => 5

/-- The data register of a remote access: scalar for W 0 to 3, vector for 4 and 5 (R232). -/
def RData.dec (w : LWord) : RData :=
  if w.w.toNat < 4 then .scalar (SReg.dec (fld w.vd 0 7)) else .vector w.vd

def RData.codeOk (w : LWord) : Bool := w.w.toNat < 6 && (4 ≤ w.w.toNat || zero (fld w.vd 7 4))

def RData.enc : RData → BitVec 11
  | .scalar r => 0#4 ++ r.enc
  | .vector n => n

/-- The row operand (R199): with RX, ROW must be zero. -/
def MRow.dec (w : MWord) : MRow := if w.rx = 1 then .i0 else .imm w.row

def MRow.codeOk (w : MWord) : Bool := w.rx == 0 || zero w.row

def MRow.rowBits : MRow → BitVec 6
  | .imm n => n
  | .i0 => 0

def MRow.rxBit : MRow → BitVec 1
  | .imm _ => 0
  | .i0 => 1

/-- The accumulator operand (R53): AX must be zero when AXE is zero (R198). -/
def AccRef.dec (w : MWord) : AccRef := { row := w.acc, ax := if w.axe = 1 then some w.ax else none }

def AccRef.codeOk (w : MWord) : Bool := w.axe == 1 || zero w.ax

def AccRef.axBits (a : AccRef) : BitVec 5 :=
  match a.ax with
  | some n => n
  | none => 0

def AccRef.axeBit (a : AccRef) : BitVec 1 :=
  match a.ax with
  | some _ => 1
  | none => 0

/-- A scale operand: an unscaled beat has none (R198). -/
def scaleOf (w : MWord) (x : BitVec 4) : BitVec 4 := if Machine.mfmtScaled (MFmt.dec w.fmt) then x else 0

/-- What one word gives: the reasons 1 to 3 of R130 that it meets (bit c - 1 for reason c), and its
instruction where the opcode is assigned. -/
structure Decoded where
  reasons : BitVec 9
  instr : Option Instr
  deriving DecidableEq, Repr

/-- Reason 1: an unassigned opcode (R121). -/
def Decoded.unassigned : Decoded := { reasons := 1, instr := none }

/-- Reason 2 unless the fields that the opcode does not use are zero; reason 3 unless the used fields hold
values within their limits (R120, R130). -/
def chk (unused used : Bool) (i : Instr) : Decoded :=
  { reasons := (if unused then 0 else 2) ||| (if used && i.wf then 0 else 4), instr := some i }

/-- The C-slot opcodes (R122). (Log 152: DESIGN CHOICE) -/
def decodeC (w : CWord) : Decoded :=
  match w.op.toNat with
  | 0x00 => chk (zero w.sa && zero w.sb && zero w.imm) (true)
      (.cNop w.g)
  | 0x01 => chk (zero w.sa && zero w.sb) (true)
      (.br w.g w.imm)
  | 0x02 => chk (zero w.sa && zero w.sb) (true)
      (.brl w.g w.imm)
  | 0x03 => chk (zero w.sb) (true)
      (.jmp w.g (SReg.dec w.sa) w.imm)
  | 0x04 => chk (zero w.sb) (true)
      (.jmpl w.g (SReg.dec w.sa) w.imm)
  | 0x1F => chk true (w.sa == 63 && zero w.sb && zero w.imm) (.ret w.g)
  | 0x05 => chk (zero w.sb) (true)
      (.loop w.g (SReg.dec w.sa) w.imm)
  | 0x06 => chk true true (.loopi w.g (w.sb ++ w.sa) w.imm)
  | 0x07 => chk (true) (zero (fld w.sb 4 3))
      (.loopP w.g (SReg.dec w.sa) (fld w.sb 0 4) w.imm)
  | 0x08 => chk (zero w.sa && zero w.sb && zero w.imm) (true)
      (.lbrk w.g)
  | 0x09 => chk (zero w.sa && zero w.sb && zero w.imm) (true)
      (.lcont w.g)
  | 0x0A => chk (true) (fld w.sb 5 2 == 2 && zero (fld w.imm 3 19))
      (.ldelta w.g (fld w.sb 0 5) (fld w.imm 0 3) (SReg.dec w.sa))
  | 0x0B => chk (zero w.sa && zero w.sb) (zero (fld w.imm 5 17))
      (.sync w.g (fld w.imm 0 4) (bit w.imm 4))
  | 0x0C => chk (zero w.sa && zero w.sb) (true)
      (.safe w.g w.imm)
  | 0x0D => chk (zero w.sb) (zero (fld w.imm 3 19))
      (.waitx w.g (fld w.imm 0 3) (SReg.dec w.sa))
  | 0x0E =>
    let rest := zero (fld w.imm 8 14)
    match (fld w.imm 0 4).toNat with
    | 0 => chk true (rest && zero (fld w.imm 4 4) && zero w.sa && zero w.sb) (.parkYield w.g)
    | 1 => chk true (rest && zero (fld w.imm 4 4) && zero w.sb) (.parkTime w.g (SReg.dec w.sa))
    | 2 => chk true (rest && zero (fld w.imm 4 4)) (.parkWord w.g (SReg.dec w.sa) (SReg.dec w.sb))
    | 3 => chk true (rest && zero w.sa && zero w.sb) (.parkQueue w.g (fld w.imm 4 4))
    | _ => chk true false (.parkYield w.g)
  | 0x0F => chk (true) (zero (fld w.imm 6 16))
      (.tspawn w.g (fld w.imm 0 4) (fld w.imm 4 2) (SReg.dec w.sa) (SReg.dec w.sb))
  | 0x10 => chk (zero w.sa && zero w.sb && zero w.imm) (true)
      (.texit w.g)
  | 0x1E => chk (zero w.sa && zero w.sb) (zero (fld w.imm 16 6))
      (.halt w.g (fld w.imm 0 16))
  | 0x11 => chk (zero w.sb) (zero (fld w.imm 4 18))
      (.barq w.g (fld w.imm 0 4) (SReg.dec w.sa))
  | 0x12 => chk (zero w.sb) (zero (fld w.imm 4 18))
      (.bard w.g (fld w.imm 0 4) (SReg.dec w.sa))
  | 0x13 => chk (zero w.sa && zero w.sb) (zero (fld w.imm 5 17))
      (.bara w.g (fld w.imm 0 4) (bit w.imm 4))
  | 0x14 => chk (zero w.sa && zero w.sb) (zero (fld w.imm 5 17))
      (.barw w.g (fld w.imm 0 4) (bit w.imm 4))
  | 0x15 => chk (zero w.sb && zero w.imm) (true)
      (.pgwait w.g (SReg.dec w.sa))
  | 0x16 => chk (zero w.sa && zero w.sb) (true)
      (.trap w.g w.imm)
  | 0x17 => chk (zero w.sa && zero w.sb && zero w.imm) (true)
      (.eret w.g)
  | 0x18 => chk (zero w.sb) (zero (fld w.imm 12 10))
      (.mfs w.g (SReg.dec w.sa) (fld w.imm 0 12))
  | 0x19 => chk (zero w.sb) (zero (fld w.imm 12 10))
      (.mts w.g (fld w.imm 0 12) (SReg.dec w.sa))
  | 0x1A => chk (zero w.imm) (true)
      (.geninc w.g (SReg.dec w.sb) (SReg.dec w.sa))
  | 0x1B => chk (zero w.imm) (true)
      (.genrd w.g (SReg.dec w.sb) (SReg.dec w.sa))
  | 0x1C => chk (zero w.sb) (zero (fld w.imm 5 17))
      (.sweep w.g (SReg.dec w.sa) (bit w.imm 4) (fld w.imm 0 4))
  | 0x1D => chk (zero w.sb && zero w.imm) (true)
      (.ckpt w.g (SReg.dec w.sa))
  | _ => .unassigned

/-- The S-slot opcodes (R124). -/
def decodeS (w : SWord) : Decoded :=
  match w.op.toNat with
  | 0x00 => chk (zero w.sd && zero w.sa && zero w.sb && zero w.imm) (true)
      (.sNop w.g)
  | 0x01 => chk (zero w.imm) (true)
      (.add w.g (SReg.dec w.sd) (SReg.dec w.sa) (SReg.dec w.sb))
  | 0x02 => chk (zero w.imm) (true)
      (.sub w.g (SReg.dec w.sd) (SReg.dec w.sa) (SReg.dec w.sb))
  | 0x03 => chk (zero w.imm) (true)
      (.mul w.g (SReg.dec w.sd) (SReg.dec w.sa) (SReg.dec w.sb))
  | 0x04 => chk (zero w.imm) (true)
      (.mulhu w.g (SReg.dec w.sd) (SReg.dec w.sa) (SReg.dec w.sb))
  | 0x05 => chk (zero w.imm) (true)
      (.mulhs w.g (SReg.dec w.sd) (SReg.dec w.sa) (SReg.dec w.sb))
  | 0x06 => chk (zero w.imm) (true)
      (.divu w.g (SReg.dec w.sd) (SReg.dec w.sa) (SReg.dec w.sb))
  | 0x07 => chk (zero w.imm) (true)
      (.divs w.g (SReg.dec w.sd) (SReg.dec w.sa) (SReg.dec w.sb))
  | 0x08 => chk (zero w.imm) (true)
      (.remu w.g (SReg.dec w.sd) (SReg.dec w.sa) (SReg.dec w.sb))
  | 0x09 => chk (zero w.imm) (true)
      (.rems w.g (SReg.dec w.sd) (SReg.dec w.sa) (SReg.dec w.sb))
  | 0x0A => chk (zero w.imm) (true)
      (.and w.g (SReg.dec w.sd) (SReg.dec w.sa) (SReg.dec w.sb))
  | 0x0B => chk (zero w.imm) (true)
      (.or w.g (SReg.dec w.sd) (SReg.dec w.sa) (SReg.dec w.sb))
  | 0x0C => chk (zero w.imm) (true)
      (.xor w.g (SReg.dec w.sd) (SReg.dec w.sa) (SReg.dec w.sb))
  | 0x0D => chk (zero w.imm) (true)
      (.andn w.g (SReg.dec w.sd) (SReg.dec w.sa) (SReg.dec w.sb))
  | 0x0E => chk (zero w.imm) (true)
      (.shl w.g (SReg.dec w.sd) (SReg.dec w.sa) (SReg.dec w.sb))
  | 0x0F => chk (zero w.imm) (true)
      (.shr w.g (SReg.dec w.sd) (SReg.dec w.sa) (SReg.dec w.sb))
  | 0x10 => chk (zero w.imm) (true)
      (.sra w.g (SReg.dec w.sd) (SReg.dec w.sa) (SReg.dec w.sb))
  | 0x11 => chk (zero w.imm) (true)
      (.rol w.g (SReg.dec w.sd) (SReg.dec w.sa) (SReg.dec w.sb))
  | 0x12 => chk (zero w.imm) (true)
      (.min w.g (SReg.dec w.sd) (SReg.dec w.sa) (SReg.dec w.sb))
  | 0x13 => chk (zero w.imm) (true)
      (.max w.g (SReg.dec w.sd) (SReg.dec w.sa) (SReg.dec w.sb))
  | 0x14 => chk (zero w.imm) (true)
      (.minu w.g (SReg.dec w.sd) (SReg.dec w.sa) (SReg.dec w.sb))
  | 0x15 => chk (zero w.imm) (true)
      (.maxu w.g (SReg.dec w.sd) (SReg.dec w.sa) (SReg.dec w.sb))
  | 0x16 => chk (zero w.sb && zero w.imm) (true)
      (.clz w.g (SReg.dec w.sd) (SReg.dec w.sa))
  | 0x17 => chk (zero w.sb && zero w.imm) (true)
      (.ctz w.g (SReg.dec w.sd) (SReg.dec w.sa))
  | 0x18 => chk (zero w.sb && zero w.imm) (true)
      (.popc w.g (SReg.dec w.sd) (SReg.dec w.sa))
  | 0x19 => chk (zero w.sb) (zero (fld w.imm 7 8))
      (.sext w.g (SReg.dec w.sd) (SReg.dec w.sa) (fld w.imm 0 7))
  | 0x1A => chk (zero w.sb) (zero (fld w.imm 7 8))
      (.zext w.g (SReg.dec w.sd) (SReg.dec w.sa) (fld w.imm 0 7))
  | 0x1B => chk (zero w.sb && zero w.imm) (true)
      (.mov w.g (SReg.dec w.sd) (SReg.dec w.sa))
  | 0x1C => chk (true) (zero (fld w.imm 3 12))
      (.addx w.g (SReg.dec w.sd) (SReg.dec w.sa) (SReg.dec w.sb) (fld w.imm 0 3))
  | 0x20 => chk (zero w.sb) (true)
      (.addi w.g (SReg.dec w.sd) (SReg.dec w.sa) w.imm)
  | 0x21 => chk (zero w.sb) (true)
      (.andi w.g (SReg.dec w.sd) (SReg.dec w.sa) w.imm)
  | 0x22 => chk (zero w.sb) (true)
      (.ori w.g (SReg.dec w.sd) (SReg.dec w.sa) w.imm)
  | 0x23 => chk (zero w.sb) (true)
      (.xori w.g (SReg.dec w.sd) (SReg.dec w.sa) w.imm)
  | 0x24 => chk (zero w.sb) (zero (fld w.imm 6 9))
      (.shli w.g (SReg.dec w.sd) (SReg.dec w.sa) (fld w.imm 0 6))
  | 0x25 => chk (zero w.sb) (zero (fld w.imm 6 9))
      (.shri w.g (SReg.dec w.sd) (SReg.dec w.sa) (fld w.imm 0 6))
  | 0x26 => chk (zero w.sb) (zero (fld w.imm 6 9))
      (.srai w.g (SReg.dec w.sd) (SReg.dec w.sa) (fld w.imm 0 6))
  | 0x27 => chk true true (.li w.g (SReg.dec w.sd) (w.imm ++ w.sb ++ w.sa))
  | 0x28 => chk true true (.lih w.g (SReg.dec w.sd) (w.imm ++ w.sb ++ w.sa))
  | 0x30 => chk (zero w.imm) (zero (fld w.sd 4 3))
      (.ceq w.g (fld w.sd 0 4) (SReg.dec w.sa) (SReg.dec w.sb))
  | 0x31 => chk (zero w.imm) (zero (fld w.sd 4 3))
      (.cne w.g (fld w.sd 0 4) (SReg.dec w.sa) (SReg.dec w.sb))
  | 0x32 => chk (zero w.imm) (zero (fld w.sd 4 3))
      (.clt w.g (fld w.sd 0 4) (SReg.dec w.sa) (SReg.dec w.sb))
  | 0x33 => chk (zero w.imm) (zero (fld w.sd 4 3))
      (.cle w.g (fld w.sd 0 4) (SReg.dec w.sa) (SReg.dec w.sb))
  | 0x34 => chk (zero w.imm) (zero (fld w.sd 4 3))
      (.cltu w.g (fld w.sd 0 4) (SReg.dec w.sa) (SReg.dec w.sb))
  | 0x35 => chk (zero w.imm) (zero (fld w.sd 4 3))
      (.cleu w.g (fld w.sd 0 4) (SReg.dec w.sa) (SReg.dec w.sb))
  | 0x36 => chk (zero w.sb) (zero (fld w.sd 4 3))
      (.ceqi w.g (fld w.sd 0 4) (SReg.dec w.sa) w.imm)
  | 0x37 => chk (zero w.sb) (zero (fld w.sd 4 3))
      (.clti w.g (fld w.sd 0 4) (SReg.dec w.sa) w.imm)
  | 0x38 => chk (zero w.sb) (zero (fld w.sd 4 3))
      (.cltui w.g (fld w.sd 0 4) (SReg.dec w.sa) w.imm)
  | 0x39 => chk (true) (zero (fld w.imm 4 11))
      (.sel w.g (SReg.dec w.sd) (SReg.dec w.sa) (SReg.dec w.sb) (fld w.imm 0 4))
  | 0x40 => chk (zero w.imm) (true)
      (.fadd w.g (SReg.dec w.sd) (SReg.dec w.sa) (SReg.dec w.sb))
  | 0x41 => chk (zero w.imm) (true)
      (.fmul w.g (SReg.dec w.sd) (SReg.dec w.sa) (SReg.dec w.sb))
  | 0x42 => chk (zero w.imm) (true)
      (.fmin w.g (SReg.dec w.sd) (SReg.dec w.sa) (SReg.dec w.sb))
  | 0x43 => chk (zero w.imm) (true)
      (.fmax w.g (SReg.dec w.sd) (SReg.dec w.sa) (SReg.dec w.sb))
  | 0x44 => chk (zero w.sb && zero w.imm) (true)
      (.ftoi w.g (SReg.dec w.sd) (SReg.dec w.sa))
  | 0x45 => chk (zero w.sb && zero w.imm) (true)
      (.itof w.g (SReg.dec w.sd) (SReg.dec w.sa))
  | _ => .unassigned

/-- The P-slot opcodes (R125). -/
def decodeP (w : PWord) : Decoded :=
  match w.op.toNat with
  | 0x00 => chk (zero w.logic.pd && zero w.logic.pa && zero w.logic.pb && zero w.logic.imm) (true)
      (.pNop w.logic.g)
  | 0x01 => chk (zero w.logic.imm) (true)
      (.pand w.logic.g w.logic.pd w.logic.pa w.logic.pb)
  | 0x02 => chk (zero w.logic.imm) (true)
      (.por w.logic.g w.logic.pd w.logic.pa w.logic.pb)
  | 0x03 => chk (zero w.logic.imm) (true)
      (.pxor w.logic.g w.logic.pd w.logic.pa w.logic.pb)
  | 0x04 => chk (zero w.logic.imm) (true)
      (.pandn w.logic.g w.logic.pd w.logic.pa w.logic.pb)
  | 0x05 => chk (zero w.logic.pb && zero w.logic.imm) (true)
      (.pnot w.logic.g w.logic.pd w.logic.pa)
  | 0x06 => chk (zero w.logic.pa && zero w.logic.pb) (true)
      (.pseti w.logic.g w.logic.pd w.logic.imm)
  | 0x07 => chk true (zero (fld w.logic.pb 1 3))
      (.planes w.logic.g w.logic.pd w.logic.pa (fld w.logic.pb 0 1 ++ w.logic.imm))
  | 0x08 => chk (zero w.logic.pb) (true)
      (.pbcst w.logic.g w.logic.pd w.logic.pa w.logic.imm)
  | 0x09 => chk (zero w.logic.pb && zero w.logic.imm) (true)
      (.pany w.logic.g w.logic.pd w.logic.pa)
  | 0x0A => chk (zero w.logic.pb && zero w.logic.imm) (true)
      (.pall w.logic.g w.logic.pd w.logic.pa)
  | 0x0B => chk (zero w.logic.pb) (true)
      (.prot w.logic.g w.logic.pd w.logic.pa w.logic.imm)
  | 0x10 => chk (true) (true)
      (.xld w.xld.g w.xld.xd w.xld.ab w.xld.off)
  | 0x11 => chk (zero w.logic.pa && zero w.logic.pb) (true)
      (.xset w.logic.g w.logic.pd w.logic.imm)
  | 0x12 => chk (zero w.logic.pb && zero w.logic.imm) (true)
      (.xmov w.logic.g w.logic.pd w.logic.pa)
  | 0x18 => chk (zero w.qfmt.rsv) (Fmt.codeOk w.qfmt.fs && Fmt.codeOk w.qfmt.fk && RM.codeOk w.qfmt.rm)
      (.qfmt w.qfmt.g w.qfmt.k (Fmt.dec w.qfmt.fs) (Fmt.dec w.qfmt.fk) (RM.dec w.qfmt.rm) (bit w.qfmt.sat 0))
  | _ => .unassigned

/-- The opcodes that V0 and V1 share (R126). -/
def decodeV (w : VWord) : Decoded :=
  match w.op.toNat with
  | 0x00 => chk (zero w.vd && zero w.va && zero w.vb && zero w.vc && zero w.fmt && zero w.rm && zero w.rsv) (true)
      (.vNop w.g)
  | 0x01 => chk (zero w.vc && zero w.rsv) (Fmt.codeOk w.fmt && RM.codeOk w.rm)
      (.vadd w.g (Fmt.dec w.fmt) (RM.dec w.rm) (VDst.dec w.vd) (VSrc.dec w.va) (VSrc.dec w.vb))
  | 0x02 => chk (zero w.vc && zero w.rsv) (Fmt.codeOk w.fmt && RM.codeOk w.rm)
      (.vsub w.g (Fmt.dec w.fmt) (RM.dec w.rm) (VDst.dec w.vd) (VSrc.dec w.va) (VSrc.dec w.vb))
  | 0x03 => chk (zero w.vc && zero w.rsv) (Fmt.codeOk w.fmt && RM.codeOk w.rm)
      (.vmul w.g (Fmt.dec w.fmt) (RM.dec w.rm) (VDst.dec w.vd) (VSrc.dec w.va) (VSrc.dec w.vb))
  | 0x04 => chk (zero w.rsv) (Fmt.codeOk w.fmt && RM.codeOk w.rm)
      (.vfma w.g (Fmt.dec w.fmt) (RM.dec w.rm) (VDst.dec w.vd) (VSrc.dec w.va) (VSrc.dec w.vb) (VSrc.dec w.vc))
  | 0x05 => chk (zero w.rsv) (Fmt.codeOk w.fmt && RM.codeOk w.rm)
      (.vfms w.g (Fmt.dec w.fmt) (RM.dec w.rm) (VDst.dec w.vd) (VSrc.dec w.va) (VSrc.dec w.vb) (VSrc.dec w.vc))
  | 0x06 => chk (zero w.rsv) (Fmt.codeOk w.fmt && RM.codeOk w.rm)
      (.vfnma w.g (Fmt.dec w.fmt) (RM.dec w.rm) (VDst.dec w.vd) (VSrc.dec w.va) (VSrc.dec w.vb) (VSrc.dec w.vc))
  | 0x07 => chk (zero w.vc && zero w.rsv) (Fmt.codeOk w.fmt && RM.codeOk w.rm)
      (.vmin w.g (Fmt.dec w.fmt) (RM.dec w.rm) (VDst.dec w.vd) (VSrc.dec w.va) (VSrc.dec w.vb))
  | 0x08 => chk (zero w.vc && zero w.rsv) (Fmt.codeOk w.fmt && RM.codeOk w.rm)
      (.vmax w.g (Fmt.dec w.fmt) (RM.dec w.rm) (VDst.dec w.vd) (VSrc.dec w.va) (VSrc.dec w.vb))
  | 0x09 => chk (zero w.vb && zero w.vc && zero w.rsv) (Fmt.codeOk w.fmt && RM.codeOk w.rm)
      (.vabs w.g (Fmt.dec w.fmt) (RM.dec w.rm) (VDst.dec w.vd) (VSrc.dec w.va))
  | 0x0A => chk (zero w.vb && zero w.vc && zero w.rsv) (Fmt.codeOk w.fmt && RM.codeOk w.rm)
      (.vneg w.g (Fmt.dec w.fmt) (RM.dec w.rm) (VDst.dec w.vd) (VSrc.dec w.va))
  | 0x0B => chk (zero w.vb && zero w.vc && zero w.rsv) (Fmt.codeOk w.fmt && RM.codeOk w.rm)
      (.vrcp w.g (Fmt.dec w.fmt) (RM.dec w.rm) (VDst.dec w.vd) (VSrc.dec w.va))
  | 0x0C => chk (zero w.vb && zero w.vc && zero w.rsv) (Fmt.codeOk w.fmt && RM.codeOk w.rm)
      (.vrsq w.g (Fmt.dec w.fmt) (RM.dec w.rm) (VDst.dec w.vd) (VSrc.dec w.va))
  | 0x0D => chk (zero w.vb && zero w.vc && zero w.rsv) (Fmt.codeOk w.fmt && RM.codeOk w.rm)
      (.vsqrt w.g (Fmt.dec w.fmt) (RM.dec w.rm) (VDst.dec w.vd) (VSrc.dec w.va))
  | 0x0E => chk (zero w.vb && zero w.vc && zero w.rsv) (Fmt.codeOk w.fmt && RM.codeOk w.rm)
      (.vexp2 w.g (Fmt.dec w.fmt) (RM.dec w.rm) (VDst.dec w.vd) (VSrc.dec w.va))
  | 0x0F => chk (zero w.vb && zero w.vc && zero w.rsv) (Fmt.codeOk w.fmt && RM.codeOk w.rm)
      (.vlog2 w.g (Fmt.dec w.fmt) (RM.dec w.rm) (VDst.dec w.vd) (VSrc.dec w.va))
  | 0x12 => chk (zero w.vc && zero w.rsv) (zero (fld w.vd 4 7) && Fmt.codeOk w.fmt && RM.codeOk w.rm)
      (.vcmpeq w.g (Fmt.dec w.fmt) (RM.dec w.rm) (fld w.vd 0 4) (VSrc.dec w.va) (VSrc.dec w.vb))
  | 0x13 => chk (zero w.vc && zero w.rsv) (zero (fld w.vd 4 7) && Fmt.codeOk w.fmt && RM.codeOk w.rm)
      (.vcmplt w.g (Fmt.dec w.fmt) (RM.dec w.rm) (fld w.vd 0 4) (VSrc.dec w.va) (VSrc.dec w.vb))
  | 0x14 => chk (zero w.vc && zero w.rsv) (zero (fld w.vd 4 7) && Fmt.codeOk w.fmt && RM.codeOk w.rm)
      (.vcmple w.g (Fmt.dec w.fmt) (RM.dec w.rm) (fld w.vd 0 4) (VSrc.dec w.va) (VSrc.dec w.vb))
  | 0x15 => chk (zero w.vc && zero w.rsv) (zero (fld w.vd 4 7) && Fmt.codeOk w.fmt && RM.codeOk w.rm)
      (.vcmpne w.g (Fmt.dec w.fmt) (RM.dec w.rm) (fld w.vd 0 4) (VSrc.dec w.va) (VSrc.dec w.vb))
  | 0x16 => chk (zero w.vc && zero w.rsv) (zero (fld w.vd 4 7) && zero (fld w.vb 9 2) && Fmt.codeOk w.fmt && RM.codeOk w.rm)
      (.vclass w.g (Fmt.dec w.fmt) (RM.dec w.rm) (fld w.vd 0 4) (VSrc.dec w.va) (fld w.vb 0 9))
  | 0x18 => chk (zero w.rsv) (zero (fld w.vc 4 7) && Fmt.codeOk w.fmt && RM.codeOk w.rm)
      (.vsel w.g (Fmt.dec w.fmt) (RM.dec w.rm) (VDst.dec w.vd) (VSrc.dec w.va) (VSrc.dec w.vb) (fld w.vc 0 4))
  | 0x19 => chk (zero w.rsv) (Fmt.codeOk (fld w.vb 0 4) && zero (fld w.vb 5 6) && zero (fld w.vc 4 7) && Fmt.codeOk w.fmt && RM.codeOk w.rm)
      (.vcvt w.g (Fmt.dec w.fmt) (RM.dec w.rm) (VDst.dec w.vd) (VSrc.dec w.va) (Fmt.dec (fld w.vb 0 4)) (bit w.vb 4) (fld w.vc 0 4))
  | 0x1A => chk (zero w.rsv) (Fmt.codeOk (fld w.vb 0 4) && zero (fld w.vb 9 2) && Fmt.codeOk w.fmt && RM.codeOk w.rm)
      (.vqnt w.g (Fmt.dec w.fmt) (RM.dec w.rm) (VDst.dec w.vd) (VSrc.dec w.va) (VSrc.dec w.vc) (Fmt.dec (fld w.vb 0 4)) (bit w.vb 4) (fld w.vb 5 4))
  | 0x1B => chk (zero w.vc && zero w.rsv) (zero (fld w.vb 4 7) && Fmt.codeOk w.fmt && RM.codeOk w.rm)
      (.vcbdec w.g (Fmt.dec w.fmt) (RM.dec w.rm) (VDst.dec w.vd) (VSrc.dec w.va) (fld w.vb 0 4))
  | 0x1C => chk (zero w.vb && zero w.vc && zero w.rsv) (Fmt.codeOk w.fmt && RM.codeOk w.rm)
      (.vround w.g (Fmt.dec w.fmt) (RM.dec w.rm) (VDst.dec w.vd) (VSrc.dec w.va))
  | 0x20 => chk (zero w.vc && zero w.rsv) (Fmt.codeOk w.fmt && RM.codeOk w.rm)
      (.viadd w.g (Fmt.dec w.fmt) (RM.dec w.rm) (VDst.dec w.vd) (VSrc.dec w.va) (VSrc.dec w.vb))
  | 0x21 => chk (zero w.vc && zero w.rsv) (Fmt.codeOk w.fmt && RM.codeOk w.rm)
      (.visub w.g (Fmt.dec w.fmt) (RM.dec w.rm) (VDst.dec w.vd) (VSrc.dec w.va) (VSrc.dec w.vb))
  | 0x22 => chk (zero w.vc && zero w.rsv) (Fmt.codeOk w.fmt && RM.codeOk w.rm)
      (.vimul w.g (Fmt.dec w.fmt) (RM.dec w.rm) (VDst.dec w.vd) (VSrc.dec w.va) (VSrc.dec w.vb))
  | 0x23 => chk (zero w.vc && zero w.rsv) (Fmt.codeOk w.fmt && RM.codeOk w.rm)
      (.vimin w.g (Fmt.dec w.fmt) (RM.dec w.rm) (VDst.dec w.vd) (VSrc.dec w.va) (VSrc.dec w.vb))
  | 0x24 => chk (zero w.vc && zero w.rsv) (Fmt.codeOk w.fmt && RM.codeOk w.rm)
      (.vimax w.g (Fmt.dec w.fmt) (RM.dec w.rm) (VDst.dec w.vd) (VSrc.dec w.va) (VSrc.dec w.vb))
  | 0x25 => chk (zero w.vc && zero w.rsv) (Fmt.codeOk w.fmt && RM.codeOk w.rm)
      (.vand w.g (Fmt.dec w.fmt) (RM.dec w.rm) (VDst.dec w.vd) (VSrc.dec w.va) (VSrc.dec w.vb))
  | 0x26 => chk (zero w.vc && zero w.rsv) (Fmt.codeOk w.fmt && RM.codeOk w.rm)
      (.vor w.g (Fmt.dec w.fmt) (RM.dec w.rm) (VDst.dec w.vd) (VSrc.dec w.va) (VSrc.dec w.vb))
  | 0x27 => chk (zero w.vc && zero w.rsv) (Fmt.codeOk w.fmt && RM.codeOk w.rm)
      (.vxor w.g (Fmt.dec w.fmt) (RM.dec w.rm) (VDst.dec w.vd) (VSrc.dec w.va) (VSrc.dec w.vb))
  | 0x28 => chk (zero w.vc && zero w.rsv) (Fmt.codeOk w.fmt && RM.codeOk w.rm)
      (.vshl w.g (Fmt.dec w.fmt) (RM.dec w.rm) (VDst.dec w.vd) (VSrc.dec w.va) (VSrc.dec w.vb))
  | 0x29 => chk (zero w.vc && zero w.rsv) (Fmt.codeOk w.fmt && RM.codeOk w.rm)
      (.vshr w.g (Fmt.dec w.fmt) (RM.dec w.rm) (VDst.dec w.vd) (VSrc.dec w.va) (VSrc.dec w.vb))
  | 0x2A => chk (zero w.vc && zero w.rsv) (Fmt.codeOk w.fmt && RM.codeOk w.rm)
      (.vsra w.g (Fmt.dec w.fmt) (RM.dec w.rm) (VDst.dec w.vd) (VSrc.dec w.va) (VSrc.dec w.vb))
  | 0x2B => chk (zero w.vc && zero w.rsv) (zero (fld w.vd 4 7) && Fmt.codeOk w.fmt && RM.codeOk w.rm)
      (.vicmpeq w.g (Fmt.dec w.fmt) (RM.dec w.rm) (fld w.vd 0 4) (VSrc.dec w.va) (VSrc.dec w.vb))
  | 0x2C => chk (zero w.vc && zero w.rsv) (zero (fld w.vd 4 7) && Fmt.codeOk w.fmt && RM.codeOk w.rm)
      (.vicmplt w.g (Fmt.dec w.fmt) (RM.dec w.rm) (fld w.vd 0 4) (VSrc.dec w.va) (VSrc.dec w.vb))
  | 0x2D => chk (zero w.vb && zero w.vc && zero w.rsv) (Fmt.codeOk w.fmt && RM.codeOk w.rm)
      (.viabs w.g (Fmt.dec w.fmt) (RM.dec w.rm) (VDst.dec w.vd) (VSrc.dec w.va))
  | 0x2E => chk (zero w.vb && zero w.vc && zero w.rsv) (Fmt.codeOk w.fmt && RM.codeOk w.rm)
      (.vpopc w.g (Fmt.dec w.fmt) (RM.dec w.rm) (VDst.dec w.vd) (VSrc.dec w.va))
  | 0x30 => chk (zero w.vb && zero w.vc && zero w.rsv) (Fmt.codeOk w.fmt && RM.codeOk w.rm)
      (.vmov w.g (Fmt.dec w.fmt) (RM.dec w.rm) (VDst.dec w.vd) (VSrc.dec w.va))
  | 0x31 => chk (zero w.vc && zero w.rsv) (Fmt.codeOk w.fmt && RM.codeOk w.rm)
      (.vbcst w.g (Fmt.dec w.fmt) (RM.dec w.rm) (VDst.dec w.vd) (VSrc.dec w.va) w.vb)
  | 0x32 => chk (zero w.vc && zero w.rsv) (Fmt.codeOk w.fmt && RM.codeOk w.rm)
      (.vperm w.g (Fmt.dec w.fmt) (RM.dec w.rm) (VDst.dec w.vd) (VSrc.dec w.va) (VSrc.dec w.vb))
  | 0x34 => chk (zero w.vc && zero w.rsv) (Fmt.codeOk w.fmt && RM.codeOk w.rm)
      (.vrotl w.g (Fmt.dec w.fmt) (RM.dec w.rm) (VDst.dec w.vd) (VSrc.dec w.va) w.vb)
  | 0x35 => chk (zero w.rsv) (Fmt.codeOk w.fmt && RM.codeOk w.rm)
      (.vextr w.g (Fmt.dec w.fmt) (RM.dec w.rm) (VDst.dec w.vd) (VSrc.dec w.va) (VSrc.dec w.vb) w.vc)
  | 0x36 => chk (zero w.rsv) (Fmt.codeOk w.fmt && RM.codeOk w.rm)
      (.vins w.g (Fmt.dec w.fmt) (RM.dec w.rm) (VDst.dec w.vd) (VSrc.dec w.va) (VSrc.dec w.vb) w.vc)
  | 0x37 => chk (zero w.rsv) (zero (fld w.vc 1 10) && Fmt.codeOk w.fmt && RM.codeOk w.rm)
      (.vzip w.g (Fmt.dec w.fmt) (RM.dec w.rm) (VDst.dec w.vd) (VSrc.dec w.va) (VSrc.dec w.vb) (bit w.vc 0))
  | 0x38 => chk (zero w.rsv) (zero (fld w.vc 1 10) && Fmt.codeOk w.fmt && RM.codeOk w.rm)
      (.vunzip w.g (Fmt.dec w.fmt) (RM.dec w.rm) (VDst.dec w.vd) (VSrc.dec w.va) (VSrc.dec w.vb) (bit w.vc 0))
  | 0x39 => chk (zero w.va && zero w.vb && zero w.vc && zero w.rsv) (Fmt.codeOk w.fmt && RM.codeOk w.rm)
      (.viota w.g (Fmt.dec w.fmt) (RM.dec w.rm) (VDst.dec w.vd))
  | 0x3A => chk (zero w.vb && zero w.rsv) (zero (fld w.vc 4 7) && Fmt.codeOk w.fmt && RM.codeOk w.rm)
      (.vcompr w.g (Fmt.dec w.fmt) (RM.dec w.rm) (VDst.dec w.vd) (VSrc.dec w.va) (fld w.vc 0 4))
  | 0x3B => chk (zero w.vb && zero w.rsv) (zero (fld w.vc 4 7) && Fmt.codeOk w.fmt && RM.codeOk w.rm)
      (.vexpnd w.g (Fmt.dec w.fmt) (RM.dec w.rm) (VDst.dec w.vd) (VSrc.dec w.va) (fld w.vc 0 4))
  | 0x40 => chk (zero w.vb && zero w.rsv) (zero (fld w.vc 4 7) && Fmt.codeOk w.fmt && RM.codeOk w.rm)
      (.vrsum w.g (Fmt.dec w.fmt) (RM.dec w.rm) (VDst.dec w.vd) (VSrc.dec w.va) (fld w.vc 0 4))
  | 0x41 => chk (zero w.vb && zero w.rsv) (zero (fld w.vc 4 7) && Fmt.codeOk w.fmt && RM.codeOk w.rm)
      (.vrmax w.g (Fmt.dec w.fmt) (RM.dec w.rm) (VDst.dec w.vd) (VSrc.dec w.va) (fld w.vc 0 4))
  | 0x42 => chk (zero w.vb && zero w.rsv) (zero (fld w.vc 4 7) && Fmt.codeOk w.fmt && RM.codeOk w.rm)
      (.vrmin w.g (Fmt.dec w.fmt) (RM.dec w.rm) (VDst.dec w.vd) (VSrc.dec w.va) (fld w.vc 0 4))
  | 0x44 => chk (zero w.vb && zero w.rsv) (zero (fld w.vc 4 7) && Fmt.codeOk w.fmt && RM.codeOk w.rm)
      (.vscan w.g (Fmt.dec w.fmt) (RM.dec w.rm) (VDst.dec w.vd) (VSrc.dec w.va) (fld w.vc 0 4))
  | 0x45 => chk (zero w.rsv) (zero (fld w.vc 4 7) && Fmt.codeOk w.fmt && RM.codeOk w.rm)
      (.vdot w.g (Fmt.dec w.fmt) (RM.dec w.rm) (VDst.dec w.vd) (VSrc.dec w.va) (VSrc.dec w.vb) (fld w.vc 0 4))
  | 0x46 => chk (zero w.vb && zero w.rsv) (zero (fld w.vc 4 7) && Fmt.codeOk w.fmt && RM.codeOk w.rm)
      (.vargmx w.g (Fmt.dec w.fmt) (RM.dec w.rm) (VDst.dec w.vd) (VSrc.dec w.va) (fld w.vc 0 4))
  | _ => .unassigned

/-- The M-slot opcodes (R127). (Log 13: DEDUCED) -/
def decodeM (w : MWord) : Decoded :=
  match w.op.toNat with
  | 0x00 => chk (zero w.vs && zero w.acc && zero w.ax && zero w.axe && zero w.row && zero w.rx && zero w.fmt && zero w.xa && zero w.xb && zero w.mode) (true)
      (.mNop w.g)
  | 0x01 => chk (zero w.acc && zero w.ax && zero w.axe && zero w.xa && zero w.xb && zero w.mode) (MRow.codeOk w && MFmt.codeOk w.fmt)
      (.mpush w.g (MFmt.dec w.fmt) (VSrc.dec w.vs) (MRow.dec w))
  | 0x02 => chk (zero w.acc && zero w.ax && zero w.axe && zero w.xa && zero w.xb && zero w.mode) (zero (fld w.vs 6 5) && MRow.codeOk w && MFmt.codeOk w.fmt)
      (.mpusht w.g (MFmt.dec w.fmt) (fld w.vs 0 6) (MRow.dec w))
  | 0x03 => chk (true) ((Machine.mfmtScaled (MFmt.dec w.fmt) || (zero w.xa && zero w.xb)) && AccRef.codeOk w && MRow.codeOk w && MFmt.codeOk w.fmt && zero (fld w.mode 1 3))
      (.mshift w.g (MFmt.dec w.fmt) (AccRef.dec w) (VSrc.dec w.vs) (MRow.dec w) (scaleOf w w.xa) (scaleOf w w.xb) (bit w.mode 0))
  | 0x04 => chk (zero w.vs) ((Machine.mfmtScaled (MFmt.dec w.fmt) || (zero w.xa && zero w.xb)) && AccRef.codeOk w && MRow.codeOk w && MFmt.codeOk w.fmt && zero (fld w.mode 1 3))
      (.mshiftl w.g (MFmt.dec w.fmt) (AccRef.dec w) (MRow.dec w) (scaleOf w w.xa) (scaleOf w w.xb) (bit w.mode 0))
  | 0x05 => chk (true) ((Machine.mfmtScaled (MFmt.dec w.fmt) || (zero w.xa && zero w.xb)) && zero (fld w.vs 6 5) && AccRef.codeOk w && MRow.codeOk w && MFmt.codeOk w.fmt && zero (fld w.mode 1 3))
      (.mshiftt w.g (MFmt.dec w.fmt) (AccRef.dec w) (fld w.vs 0 6) (MRow.dec w) (scaleOf w w.xa) (scaleOf w w.xb) (bit w.mode 0))
  | 0x06 => chk (zero w.vs && zero w.acc && zero w.ax && zero w.axe && zero w.row && zero w.rx && zero w.fmt && zero w.xa && zero w.xb && zero w.mode) (true)
      (.mflip w.g)
  | 0x07 => chk (zero w.xa && zero w.xb) (AccRef.codeOk w && MRow.codeOk w && Fmt.codeOk w.fmt && RM.codeOk (fld w.mode 0 3))
      (.mdrain w.g (Fmt.dec w.fmt) (AccRef.dec w) w.vs (MRow.dec w) (RM.dec (fld w.mode 0 3)) (bit w.mode 3))
  | 0x08 => chk (zero w.vs && zero w.row && zero w.rx && zero w.fmt && zero w.xa && zero w.xb && zero w.mode) (AccRef.codeOk w)
      (.mzero w.g (AccRef.dec w))
  | 0x09 => chk (zero w.xa && zero w.xb) (AccRef.codeOk w && MRow.codeOk w && Fmt.codeOk w.fmt && zero (fld w.mode 1 3))
      (.maddv w.g (Fmt.dec w.fmt) (AccRef.dec w) (VSrc.dec w.vs) (MRow.dec w) (bit w.mode 0))
  | 0x0A => chk (zero w.xa && zero w.xb) (AccRef.codeOk w && MRow.codeOk w && Fmt.codeOk w.fmt && RM.codeOk (fld w.mode 0 3))
      (.mdrainz w.g (Fmt.dec w.fmt) (AccRef.dec w) w.vs (MRow.dec w) (RM.dec (fld w.mode 0 3)) (bit w.mode 3))
  | _ => .unassigned

/-- The L-slot opcodes (R128). -/
def decodeL (w : LWord) : Decoded :=
  match w.op.toNat with
  | 0x00 => chk (zero w.vd && zero w.ab && zero w.off && zero w.sa && zero w.w && zero w.fmt && zero w.rsv) (true)
      (.lNop w.g)
  | 0x01 => chk (zero w.fmt && zero w.rsv) (zero (fld w.vd 7 4))
      (.lds w.g (fld w.w 0 2) (bit w.w 2) (SReg.dec (fld w.vd 0 7)) w.ab (SReg.dec w.sa) w.off)
  | 0x02 => chk (zero w.fmt && zero w.rsv) (zero (fld w.vd 7 4) && zero (fld w.w 2 1))
      (.sts w.g (fld w.w 0 2) (SReg.dec (fld w.vd 0 7)) w.ab (SReg.dec w.sa) w.off)
  | 0x03 => chk (zero w.fmt && zero w.rsv) (true)
      (.vld w.g w.w w.vd w.ab (SReg.dec w.sa) w.off)
  | 0x04 => chk (zero w.fmt && zero w.rsv) (true)
      (.vst w.g w.w w.vd w.ab (SReg.dec w.sa) w.off)
  | 0x05 => chk (zero w.fmt && zero w.rsv) (zero (fld w.w 2 1))
      (.vlds w.g (fld w.w 0 2) w.vd w.ab w.off (SReg.dec w.sa))
  | 0x06 => chk (zero w.fmt && zero w.rsv) (zero (fld w.w 2 1))
      (.vsts w.g (fld w.w 0 2) w.vd w.ab w.off (SReg.dec w.sa))
  | 0x07 => chk (zero w.fmt && zero w.rsv) (zero (fld w.w 2 1) && zero (fld w.off 11 9))
      (.vldx w.g (fld w.w 0 2) w.vd w.ab (SReg.dec w.sa) (fld w.off 0 11))
  | 0x08 => chk (zero w.fmt && zero w.rsv) (zero (fld w.w 2 1) && zero (fld w.off 11 9))
      (.vstx w.g (fld w.w 0 2) w.vd w.ab (SReg.dec w.sa) (fld w.off 0 11))
  | 0x09 => chk (zero w.rsv) (zero (fld w.w 2 1) && zero (fld w.off 13 7))
      (.gathr w.g (bit w.w 0) (bit w.w 1) w.vd w.ab (SReg.dec w.sa) (fld w.off 0 6) (fld w.off 6 7) w.fmt)
  | 0x0A => chk (zero w.rsv) (zero (fld w.vd 7 4) && AtomOp.codeOk w.w && Fmt.codeOk w.fmt)
      (.atoml w.g (AtomOp.dec w.w) (Fmt.dec w.fmt) (SReg.dec (fld w.vd 0 7)) w.ab (SReg.dec w.sa) w.off)
  | 0x10 => chk (zero w.rsv) (zero (fld w.vd 7 4))
      (.ldg w.g (fld w.w 0 2) (bit w.w 2) (SReg.dec (fld w.vd 0 7)) w.ab (SReg.dec w.sa) w.off w.fmt)
  | 0x11 => chk (zero w.fmt && zero w.rsv) (zero (fld w.vd 7 4) && zero (fld w.w 2 1))
      (.stg w.g (fld w.w 0 2) (SReg.dec (fld w.vd 0 7)) w.ab (SReg.dec w.sa) w.off)
  | 0x12 => chk (zero w.rsv) (true)
      (.vldg w.g w.w w.vd w.ab (SReg.dec w.sa) w.off w.fmt)
  | 0x13 => chk (zero w.fmt && zero w.rsv) (true)
      (.vstg w.g w.w w.vd w.ab (SReg.dec w.sa) w.off)
  | 0x14 => chk (zero w.rsv) (zero (fld w.vd 7 4) && AtomOp.codeOk w.w && Fmt.codeOk w.fmt)
      (.atomg w.g (AtomOp.dec w.w) (Fmt.dec w.fmt) (SReg.dec (fld w.vd 0 7)) w.ab (SReg.dec w.sa) w.off)
  | 0x15 => chk (zero w.rsv) (zero (fld w.vd 7 4) && AtomOp.codeOk w.w && Fmt.codeOk w.fmt)
      (.watom w.g (AtomOp.dec w.w) (Fmt.dec w.fmt) (SReg.dec (fld w.vd 0 7)) w.ab (SReg.dec w.sa) w.off)
  | 0x16 => chk (zero w.rsv) (AtomOp.codeOk w.w && Fmt.codeOk w.fmt)
      (.watomr w.g (AtomOp.dec w.w) (Fmt.dec w.fmt) w.vd w.ab (SReg.dec w.sa) w.off)
  | 0x17 => chk (zero w.vd && zero w.fmt && zero w.rsv) (zero (fld w.w 1 2))
      (.pgreq w.g (bit w.w 0) w.ab (SReg.dec w.sa) w.off)
  | 0x18 => chk (zero w.vd && zero w.w && zero w.fmt && zero w.rsv) (true)
      (.cdisc w.g w.ab w.off (SReg.dec w.sa))
  | 0x19 => chk (zero w.vd && zero w.fmt && zero w.rsv) (zero (fld w.w 1 2))
      (.cflush w.g (bit w.w 0) w.ab w.off (SReg.dec w.sa))
  | 0x1A => chk (zero w.w && zero w.rsv) (zero (fld w.vd 7 4))
      (.smap w.g w.fmt w.ab w.off (SReg.dec w.sa) (SReg.dec (fld w.vd 0 7)))
  | 0x1B => chk (zero w.vd && zero w.ab && zero w.off && zero w.sa && zero w.w && zero w.rsv) (true)
      (.sunmap w.g w.fmt)
  | 0x1C => chk (zero w.vd && zero w.ab && zero w.off && zero w.sa && zero w.w && zero w.rsv) (true)
      (.sflush w.g w.fmt)
  | 0x1D => chk (zero w.vd && zero w.ab && zero w.off && zero w.sa && zero w.w && zero w.rsv) (true)
      (.sdisc w.g w.fmt)
  | 0x20 => chk (zero w.fmt && zero w.rsv) (RData.codeOk w)
      (.rldg w.g (RWidth.dec w.w) (RData.dec w) w.ab w.off (SReg.dec w.sa))
  | 0x21 => chk (zero w.fmt && zero w.rsv) (RData.codeOk w)
      (.rstg w.g (RWidth.dec w.w) (RData.dec w) w.ab w.off (SReg.dec w.sa))
  | 0x22 => chk (zero w.fmt && zero w.rsv) (RData.codeOk w)
      (.rstp w.g (RWidth.dec w.w) (RData.dec w) w.ab w.off (SReg.dec w.sa))
  | 0x23 => chk (zero w.rsv) (zero (fld w.vd 7 4) && AtomOp.codeOk w.w && Fmt.codeOk w.fmt)
      (.ratom w.g (AtomOp.dec w.w) (Fmt.dec w.fmt) (SReg.dec (fld w.vd 0 7)) w.ab w.off (SReg.dec w.sa))
  | 0x24 => chk (zero w.vd && zero w.ab && zero w.off && zero w.sa && zero w.w && zero w.fmt && zero w.rsv) (true)
      (.rfence w.g)
  | _ => .unassigned

/-- The E-slot opcodes (R129). -/
def decodeE (w : EWord) : Decoded :=
  match w.op.toNat with
  | 0x00 => chk (zero w.ch && zero w.ab && zero w.sa && zero w.imm) (true)
      (.eNop w.g)
  | 0x01 => chk (true) (zero (fld w.ch 3 1) && zero (fld w.imm 20 16))
      (.pcopy w.g (fld w.ch 0 3) w.ab (fld w.imm 0 20) (SReg.dec w.sa))
  | 0x02 => chk (true) (zero (fld w.ch 3 1) && zero (fld w.imm 20 16))
      (.pcopyt w.g (fld w.ch 0 3) w.ab (fld w.imm 0 20) (SReg.dec w.sa))
  | 0x03 => chk (true) (zero (fld w.ch 3 1) && zero (fld w.imm 20 16))
      (.pcopyr w.g (fld w.ch 0 3) w.ab (fld w.imm 0 20) (SReg.dec w.sa))
  | 0x04 =>
    let ok := zero (fld w.ch 3 1) && zero (fld w.imm 2 34)
    match (fld w.imm 0 2).toNat with
    | 0 => chk (zero w.ab) ok (.pstat w.g (fld w.ch 0 3) (SReg.dec w.sa))
    | 1 => chk (zero w.ab) ok (.pstatErr w.g (fld w.ch 0 3) (SReg.dec w.sa))
    | 2 => chk (zero w.ab) ok (.pstatClr w.g (fld w.ch 0 3) (SReg.dec w.sa))
    | _ => chk (zero w.ab) false (.pstat w.g (fld w.ch 0 3) (SReg.dec w.sa))
  | 0x08 => chk (zero w.ch) (zero (fld w.imm 24 12))
      (.tbind w.g (fld w.imm 0 6) (fld w.imm 6 3) w.ab (SReg.dec w.sa) (fld w.imm 9 5) (fld w.imm 14 3) (fld w.imm 17 6) (bit w.imm 23))
  | 0x09 => chk (zero w.ch && zero w.ab && zero w.sa) (zero (fld w.imm 6 30))
      (.tfill w.g (fld w.imm 0 6))
  | 0x0A => chk (zero w.ch && zero w.ab && zero w.sa) (zero (fld w.imm 6 30))
      (.tdrain w.g (fld w.imm 0 6))
  | 0x0B => chk (zero w.ch && zero w.ab && zero w.sa) (zero (fld w.imm 6 30))
      (.tfree w.g (fld w.imm 0 6))
  | 0x0C => chk (zero w.ch && zero w.ab) (zero (fld w.imm 6 30))
      (.tstate w.g (fld w.imm 0 6) (SReg.dec w.sa))
  | 0x10 => chk (zero w.ch) (true)
      (.vsend w.g (SReg.dec w.sa) w.ab (fld w.imm 0 20) (fld w.imm 20 8) (fld w.imm 28 8))
  | 0x11 =>
    let ok := zero (fld w.imm 34 2)
    if bit w.imm 33 then
      chk (zero w.ch) (ok && zero w.ab && zero (fld w.imm 0 20) && zero (fld w.sa 6 1))
        (.vlatch w.g (.tile (fld w.sa 0 6)) (fld w.imm 28 5) (fld w.imm 20 8))
    else
      chk (zero w.ch) (ok && zero w.sa)
        (.vlatch w.g (.plain w.ab (fld w.imm 0 20)) (fld w.imm 28 5) (fld w.imm 20 8))
  | 0x12 => chk (zero w.ch && zero w.ab && zero w.imm) (true)
      (.vstat w.g (SReg.dec w.sa))
  | 0x18 => chk (zero w.sa) (zero (fld w.imm 20 16))
      (.qpush w.g w.ch w.ab (fld w.imm 0 20))
  | 0x19 => chk (zero w.ab && zero w.sa) (zero (fld w.imm 4 32))
      (.qadv w.g w.ch (fld w.imm 0 4))
  | 0x1B => chk (zero w.ab && zero w.sa) (zero (fld w.imm 4 32))
      (.qcfg w.g w.ch (fld w.imm 0 2) (fld w.imm 2 2))
  | 0x1C => chk (zero w.ab && zero w.sa && zero w.imm) (true)
      (.qrst w.g w.ch)
  | 0x20 => chk (zero w.ch) (zero (fld w.imm 20 16))
      (.gsrch w.g w.ab (fld w.imm 0 20) (SReg.dec w.sa))
  | 0x21 => chk (zero w.ch && zero w.ab) (zero (fld w.imm 7 29))
      (.gstat w.g (SReg.dec (fld w.imm 0 7)) (SReg.dec w.sa))
  | 0x28 => chk (zero w.ch && zero w.ab && zero w.sa) (zero (fld w.imm 8 28))
      (.rlydone w.g (fld w.imm 0 8))
  | 0x29 => chk (zero w.ch && zero w.ab && zero w.sa) (zero (fld w.imm 8 28))
      (.rlyfree w.g (fld w.imm 0 8))
  | 0x2A => chk (zero w.ch && zero w.ab && zero w.sa) (zero (fld w.imm 8 28))
      (.rlystash w.g (fld w.imm 0 8))
  | 0x2B => chk (zero w.ch && zero w.ab && zero w.sa) (zero (fld w.imm 8 28))
      (.rlypop w.g (fld w.imm 0 8))
  | 0x30 => chk (zero w.ch) (zero (fld w.imm 7 29))
      (.cres w.g (SReg.dec (fld w.imm 0 7)) w.ab (SReg.dec w.sa))
  | 0x31 => chk (zero w.ch && zero w.imm) (true)
      (.crel w.g w.ab (SReg.dec w.sa))
  | 0x38 => chk (zero w.ch && zero w.ab && zero w.sa) (zero (fld w.imm 4 32))
      (.split w.g (fld w.imm 0 4))
  | _ => .unassigned

/-- The reading of a word in its slot. -/
def SlotWord.decode : SlotWord → Decoded
  | .c w => decodeC w
  | .s w => decodeS w
  | .p w => decodeP w
  | .v w => decodeV w
  | .m w => decodeM w
  | .l w => decodeL w
  | .e w => decodeE w

/-- The instruction that a legal word stands for. -/
def SlotWord.instr? (w : SlotWord) : Option Instr :=
  if w.decode.reasons = 0 then w.decode.instr else none

/-- The size of a word in bytes (R108). -/
def SlotWord.size : SlotWord → Nat
  | .c _ => 6
  | .s _ => 6
  | .p _ => 4
  | .v _ => 8
  | .m _ => 8
  | .l _ => 8
  | .e _ => 8

/-- The bits of a word as a number. -/
def SlotWord.num : SlotWord → Nat
  | .c w => w.pack.toNat
  | .s w => w.pack.toNat
  | .p w => w.pack.toNat
  | .v w => w.pack.toNat
  | .m w => w.pack.toNat
  | .l w => w.pack.toNat
  | .e w => w.pack.toNat

/-- The word of slot n whose bits are w. -/
def SlotWord.ofNum (n w : Nat) : SlotWord :=
  match n with
  | 0 => .c (CWord.unpack (BitVec.ofNat 48 w))
  | 1 => .s (SWord.unpack (BitVec.ofNat 48 w))
  | 2 => .p (PWord.unpack (BitVec.ofNat 32 w))
  | 3 => .v (VWord.unpack (BitVec.ofNat 64 w))
  | 4 => .v (VWord.unpack (BitVec.ofNat 64 w))
  | 5 => .m (MWord.unpack (BitVec.ofNat 64 w))
  | 6 => .l (LWord.unpack (BitVec.ofNat 64 w))
  | _ => .e (EWord.unpack (BitVec.ofNat 64 w))

/-- The slot number of a word; a V word is placed in V0. -/
def SlotWord.slot : SlotWord → Nat
  | .c _ => 0
  | .s _ => 1
  | .p _ => 2
  | .v _ => 3
  | .m _ => 5
  | .l _ => 6
  | .e _ => 7

/-- The slot word of an instruction, from the encoding tables of R116 to R129; an event has none. -/
def encode : Instr → Option SlotWord
  | .cNop g =>
    some (.c { g := g, op := 0x00#7 })
  | .br g disp =>
    some (.c { g := g, op := 0x01#7, imm := disp })
  | .brl g disp =>
    some (.c { g := g, op := 0x02#7, imm := disp })
  | .jmp g sa disp =>
    some (.c { g := g, op := 0x03#7, sa := sa.enc, imm := disp })
  | .jmpl g sa disp =>
    some (.c { g := g, op := 0x04#7, sa := sa.enc, imm := disp })
  | .ret g =>
    some (.c { g := g, op := 0x1F#7, sa := 63#7 })
  | .loop g sa imm =>
    some (.c { g := g, op := 0x05#7, sa := sa.enc, imm := imm })
  | .loopi g count imm =>
    some (.c { g := g, op := 0x06#7, sa := fld count 0 7, sb := fld count 7 7, imm := imm })
  | .loopP g sa stages imm =>
    some (.c { g := g, op := 0x07#7, sa := sa.enc, sb := 0#3 ++ stages, imm := imm })
  | .lbrk g =>
    some (.c { g := g, op := 0x08#7 })
  | .lcont g =>
    some (.c { g := g, op := 0x09#7 })
  | .ldelta g r d sa =>
    some (.c { g := g, op := 0x0A#7, sa := sa.enc, sb := 2#2 ++ r, imm := 0#19 ++ d })
  | .sync g mask land =>
    some (.c { g := g, op := 0x0B#7, imm := 0#17 ++ ofBool land ++ mask })
  | .safe g map =>
    some (.c { g := g, op := 0x0C#7, imm := map })
  | .waitx g ch sa =>
    some (.c { g := g, op := 0x0D#7, sa := sa.enc, imm := 0#19 ++ ch })
  | .parkYield g =>
    some (.c { g := g, op := 0x0E#7 })
  | .parkTime g sa =>
    some (.c { g := g, op := 0x0E#7, sa := sa.enc, imm := 1#22 })
  | .parkWord g sa sb =>
    some (.c { g := g, op := 0x0E#7, sa := sa.enc, sb := sb.enc, imm := 2#22 })
  | .parkQueue g k =>
    some (.c { g := g, op := 0x0E#7, imm := 0#14 ++ k ++ 3#4 })
  | .tspawn g ctx prio sa sb =>
    some (.c { g := g, op := 0x0F#7, sa := sa.enc, sb := sb.enc, imm := 0#16 ++ prio ++ ctx })
  | .texit g =>
    some (.c { g := g, op := 0x10#7 })
  | .halt g code =>
    some (.c { g := g, op := 0x1E#7, imm := 0#6 ++ code })
  | .barq g b sa =>
    some (.c { g := g, op := 0x11#7, sa := sa.enc, imm := 0#18 ++ b })
  | .bard g b sa =>
    some (.c { g := g, op := 0x12#7, sa := sa.enc, imm := 0#18 ++ b })
  | .bara g b die =>
    some (.c { g := g, op := 0x13#7, imm := 0#17 ++ ofBool die ++ b })
  | .barw g b die =>
    some (.c { g := g, op := 0x14#7, imm := 0#17 ++ ofBool die ++ b })
  | .pgwait g sa =>
    some (.c { g := g, op := 0x15#7, sa := sa.enc })
  | .trap g n =>
    some (.c { g := g, op := 0x16#7, imm := n })
  | .eret g =>
    some (.c { g := g, op := 0x17#7 })
  | .mfs g sd num =>
    some (.c { g := g, op := 0x18#7, sa := sd.enc, imm := 0#10 ++ num })
  | .mts g num sa =>
    some (.c { g := g, op := 0x19#7, sa := sa.enc, imm := 0#10 ++ num })
  | .geninc g sd sp =>
    some (.c { g := g, op := 0x1A#7, sa := sp.enc, sb := sd.enc })
  | .genrd g sd sp =>
    some (.c { g := g, op := 0x1B#7, sa := sp.enc, sb := sd.enc })
  | .sweep g sa start rate =>
    some (.c { g := g, op := 0x1C#7, sa := sa.enc, imm := 0#17 ++ ofBool start ++ rate })
  | .ckpt g sp =>
    some (.c { g := g, op := 0x1D#7, sa := sp.enc })
  | .sNop g =>
    some (.s { g := g, op := 0x00#7 })
  | .add g sd sa sb =>
    some (.s { g := g, op := 0x01#7, sd := sd.enc, sa := sa.enc, sb := sb.enc })
  | .sub g sd sa sb =>
    some (.s { g := g, op := 0x02#7, sd := sd.enc, sa := sa.enc, sb := sb.enc })
  | .mul g sd sa sb =>
    some (.s { g := g, op := 0x03#7, sd := sd.enc, sa := sa.enc, sb := sb.enc })
  | .mulhu g sd sa sb =>
    some (.s { g := g, op := 0x04#7, sd := sd.enc, sa := sa.enc, sb := sb.enc })
  | .mulhs g sd sa sb =>
    some (.s { g := g, op := 0x05#7, sd := sd.enc, sa := sa.enc, sb := sb.enc })
  | .divu g sd sa sb =>
    some (.s { g := g, op := 0x06#7, sd := sd.enc, sa := sa.enc, sb := sb.enc })
  | .divs g sd sa sb =>
    some (.s { g := g, op := 0x07#7, sd := sd.enc, sa := sa.enc, sb := sb.enc })
  | .remu g sd sa sb =>
    some (.s { g := g, op := 0x08#7, sd := sd.enc, sa := sa.enc, sb := sb.enc })
  | .rems g sd sa sb =>
    some (.s { g := g, op := 0x09#7, sd := sd.enc, sa := sa.enc, sb := sb.enc })
  | .and g sd sa sb =>
    some (.s { g := g, op := 0x0A#7, sd := sd.enc, sa := sa.enc, sb := sb.enc })
  | .or g sd sa sb =>
    some (.s { g := g, op := 0x0B#7, sd := sd.enc, sa := sa.enc, sb := sb.enc })
  | .xor g sd sa sb =>
    some (.s { g := g, op := 0x0C#7, sd := sd.enc, sa := sa.enc, sb := sb.enc })
  | .andn g sd sa sb =>
    some (.s { g := g, op := 0x0D#7, sd := sd.enc, sa := sa.enc, sb := sb.enc })
  | .shl g sd sa sb =>
    some (.s { g := g, op := 0x0E#7, sd := sd.enc, sa := sa.enc, sb := sb.enc })
  | .shr g sd sa sb =>
    some (.s { g := g, op := 0x0F#7, sd := sd.enc, sa := sa.enc, sb := sb.enc })
  | .sra g sd sa sb =>
    some (.s { g := g, op := 0x10#7, sd := sd.enc, sa := sa.enc, sb := sb.enc })
  | .rol g sd sa sb =>
    some (.s { g := g, op := 0x11#7, sd := sd.enc, sa := sa.enc, sb := sb.enc })
  | .min g sd sa sb =>
    some (.s { g := g, op := 0x12#7, sd := sd.enc, sa := sa.enc, sb := sb.enc })
  | .max g sd sa sb =>
    some (.s { g := g, op := 0x13#7, sd := sd.enc, sa := sa.enc, sb := sb.enc })
  | .minu g sd sa sb =>
    some (.s { g := g, op := 0x14#7, sd := sd.enc, sa := sa.enc, sb := sb.enc })
  | .maxu g sd sa sb =>
    some (.s { g := g, op := 0x15#7, sd := sd.enc, sa := sa.enc, sb := sb.enc })
  | .clz g sd sa =>
    some (.s { g := g, op := 0x16#7, sd := sd.enc, sa := sa.enc })
  | .ctz g sd sa =>
    some (.s { g := g, op := 0x17#7, sd := sd.enc, sa := sa.enc })
  | .popc g sd sa =>
    some (.s { g := g, op := 0x18#7, sd := sd.enc, sa := sa.enc })
  | .sext g sd sa w =>
    some (.s { g := g, op := 0x19#7, sd := sd.enc, sa := sa.enc, imm := 0#8 ++ w })
  | .zext g sd sa w =>
    some (.s { g := g, op := 0x1A#7, sd := sd.enc, sa := sa.enc, imm := 0#8 ++ w })
  | .mov g sd sa =>
    some (.s { g := g, op := 0x1B#7, sd := sd.enc, sa := sa.enc })
  | .addx g sd sa sb sh =>
    some (.s { g := g, op := 0x1C#7, sd := sd.enc, sa := sa.enc, sb := sb.enc, imm := 0#12 ++ sh })
  | .addi g sd sa imm =>
    some (.s { g := g, op := 0x20#7, sd := sd.enc, sa := sa.enc, imm := imm })
  | .andi g sd sa imm =>
    some (.s { g := g, op := 0x21#7, sd := sd.enc, sa := sa.enc, imm := imm })
  | .ori g sd sa imm =>
    some (.s { g := g, op := 0x22#7, sd := sd.enc, sa := sa.enc, imm := imm })
  | .xori g sd sa imm =>
    some (.s { g := g, op := 0x23#7, sd := sd.enc, sa := sa.enc, imm := imm })
  | .shli g sd sa sh =>
    some (.s { g := g, op := 0x24#7, sd := sd.enc, sa := sa.enc, imm := 0#9 ++ sh })
  | .shri g sd sa sh =>
    some (.s { g := g, op := 0x25#7, sd := sd.enc, sa := sa.enc, imm := 0#9 ++ sh })
  | .srai g sd sa sh =>
    some (.s { g := g, op := 0x26#7, sd := sd.enc, sa := sa.enc, imm := 0#9 ++ sh })
  | .li g sd imm =>
    some (.s { g := g, op := 0x27#7, sd := sd.enc, sa := fld imm 0 7, sb := fld imm 7 7, imm := fld imm 14 15 })
  | .lih g sd imm =>
    some (.s { g := g, op := 0x28#7, sd := sd.enc, sa := fld imm 0 7, sb := fld imm 7 7, imm := fld imm 14 15 })
  | .ceq g pd sa sb =>
    some (.s { g := g, op := 0x30#7, sd := 0#3 ++ pd, sa := sa.enc, sb := sb.enc })
  | .cne g pd sa sb =>
    some (.s { g := g, op := 0x31#7, sd := 0#3 ++ pd, sa := sa.enc, sb := sb.enc })
  | .clt g pd sa sb =>
    some (.s { g := g, op := 0x32#7, sd := 0#3 ++ pd, sa := sa.enc, sb := sb.enc })
  | .cle g pd sa sb =>
    some (.s { g := g, op := 0x33#7, sd := 0#3 ++ pd, sa := sa.enc, sb := sb.enc })
  | .cltu g pd sa sb =>
    some (.s { g := g, op := 0x34#7, sd := 0#3 ++ pd, sa := sa.enc, sb := sb.enc })
  | .cleu g pd sa sb =>
    some (.s { g := g, op := 0x35#7, sd := 0#3 ++ pd, sa := sa.enc, sb := sb.enc })
  | .ceqi g pd sa imm =>
    some (.s { g := g, op := 0x36#7, sd := 0#3 ++ pd, sa := sa.enc, imm := imm })
  | .clti g pd sa imm =>
    some (.s { g := g, op := 0x37#7, sd := 0#3 ++ pd, sa := sa.enc, imm := imm })
  | .cltui g pd sa imm =>
    some (.s { g := g, op := 0x38#7, sd := 0#3 ++ pd, sa := sa.enc, imm := imm })
  | .sel g sd sa sb pn =>
    some (.s { g := g, op := 0x39#7, sd := sd.enc, sa := sa.enc, sb := sb.enc, imm := 0#11 ++ pn })
  | .fadd g sd sa sb =>
    some (.s { g := g, op := 0x40#7, sd := sd.enc, sa := sa.enc, sb := sb.enc })
  | .fmul g sd sa sb =>
    some (.s { g := g, op := 0x41#7, sd := sd.enc, sa := sa.enc, sb := sb.enc })
  | .fmin g sd sa sb =>
    some (.s { g := g, op := 0x42#7, sd := sd.enc, sa := sa.enc, sb := sb.enc })
  | .fmax g sd sa sb =>
    some (.s { g := g, op := 0x43#7, sd := sd.enc, sa := sa.enc, sb := sb.enc })
  | .ftoi g sd sa =>
    some (.s { g := g, op := 0x44#7, sd := sd.enc, sa := sa.enc })
  | .itof g sd sa =>
    some (.s { g := g, op := 0x45#7, sd := sd.enc, sa := sa.enc })
  | .pNop g =>
    some (.p ({ g := g, op := 0x00#7 } : PLogic).word)
  | .pand g pd pa pb =>
    some (.p ({ g := g, op := 0x01#7, pd := pd, pa := pa, pb := pb } : PLogic).word)
  | .por g pd pa pb =>
    some (.p ({ g := g, op := 0x02#7, pd := pd, pa := pa, pb := pb } : PLogic).word)
  | .pxor g pd pa pb =>
    some (.p ({ g := g, op := 0x03#7, pd := pd, pa := pa, pb := pb } : PLogic).word)
  | .pandn g pd pa pb =>
    some (.p ({ g := g, op := 0x04#7, pd := pd, pa := pa, pb := pb } : PLogic).word)
  | .pnot g pd pa =>
    some (.p ({ g := g, op := 0x05#7, pd := pd, pa := pa } : PLogic).word)
  | .pseti g pd n =>
    some (.p ({ g := g, op := 0x06#7, pd := pd, imm := n } : PLogic).word)
  | .planes g pd pa n =>
    some (.p ({ g := g, op := 0x07#7, pd := pd, pa := pa, pb := 0#3 ++ fld n 8 1, imm := fld n 0 8 } : PLogic).word)
  | .pbcst g pd pa n =>
    some (.p ({ g := g, op := 0x08#7, pd := pd, pa := pa, imm := n } : PLogic).word)
  | .pany g pd pa =>
    some (.p ({ g := g, op := 0x09#7, pd := pd, pa := pa } : PLogic).word)
  | .pall g pd pa =>
    some (.p ({ g := g, op := 0x0A#7, pd := pd, pa := pa } : PLogic).word)
  | .prot g pd pa n =>
    some (.p ({ g := g, op := 0x0B#7, pd := pd, pa := pa, imm := n } : PLogic).word)
  | .xld g xd ab off =>
    some (.p ({ g := g, op := 0x10#7, xd := xd, ab := ab, off := off } : PXld).word)
  | .xset g xd n =>
    some (.p ({ g := g, op := 0x11#7, pd := xd, imm := n } : PLogic).word)
  | .xmov g xd xa =>
    some (.p ({ g := g, op := 0x12#7, pd := xd, pa := xa } : PLogic).word)
  | .qfmt g k fs fk rm sat =>
    some (.p ({ g := g, op := 0x18#7, k := k, fs := fs.enc, fk := fk.enc, rm := rm.enc, sat := ofBool sat } : PQfmt).word)
  | .vNop g =>
    some (.v { g := g, op := 0x00#7 })
  | .vadd g f rm vd va vb =>
    some (.v { g := g, op := 0x01#7, vd := vd.enc, va := va.enc, vb := vb.enc, fmt := f.enc, rm := rm.enc })
  | .vsub g f rm vd va vb =>
    some (.v { g := g, op := 0x02#7, vd := vd.enc, va := va.enc, vb := vb.enc, fmt := f.enc, rm := rm.enc })
  | .vmul g f rm vd va vb =>
    some (.v { g := g, op := 0x03#7, vd := vd.enc, va := va.enc, vb := vb.enc, fmt := f.enc, rm := rm.enc })
  | .vfma g f rm vd va vb vc =>
    some (.v { g := g, op := 0x04#7, vd := vd.enc, va := va.enc, vb := vb.enc, vc := vc.enc, fmt := f.enc, rm := rm.enc })
  | .vfms g f rm vd va vb vc =>
    some (.v { g := g, op := 0x05#7, vd := vd.enc, va := va.enc, vb := vb.enc, vc := vc.enc, fmt := f.enc, rm := rm.enc })
  | .vfnma g f rm vd va vb vc =>
    some (.v { g := g, op := 0x06#7, vd := vd.enc, va := va.enc, vb := vb.enc, vc := vc.enc, fmt := f.enc, rm := rm.enc })
  | .vmin g f rm vd va vb =>
    some (.v { g := g, op := 0x07#7, vd := vd.enc, va := va.enc, vb := vb.enc, fmt := f.enc, rm := rm.enc })
  | .vmax g f rm vd va vb =>
    some (.v { g := g, op := 0x08#7, vd := vd.enc, va := va.enc, vb := vb.enc, fmt := f.enc, rm := rm.enc })
  | .vabs g f rm vd va =>
    some (.v { g := g, op := 0x09#7, vd := vd.enc, va := va.enc, fmt := f.enc, rm := rm.enc })
  | .vneg g f rm vd va =>
    some (.v { g := g, op := 0x0A#7, vd := vd.enc, va := va.enc, fmt := f.enc, rm := rm.enc })
  | .vrcp g f rm vd va =>
    some (.v { g := g, op := 0x0B#7, vd := vd.enc, va := va.enc, fmt := f.enc, rm := rm.enc })
  | .vrsq g f rm vd va =>
    some (.v { g := g, op := 0x0C#7, vd := vd.enc, va := va.enc, fmt := f.enc, rm := rm.enc })
  | .vsqrt g f rm vd va =>
    some (.v { g := g, op := 0x0D#7, vd := vd.enc, va := va.enc, fmt := f.enc, rm := rm.enc })
  | .vexp2 g f rm vd va =>
    some (.v { g := g, op := 0x0E#7, vd := vd.enc, va := va.enc, fmt := f.enc, rm := rm.enc })
  | .vlog2 g f rm vd va =>
    some (.v { g := g, op := 0x0F#7, vd := vd.enc, va := va.enc, fmt := f.enc, rm := rm.enc })
  | .vcmpeq g f rm pd va vb =>
    some (.v { g := g, op := 0x12#7, vd := 0#7 ++ pd, va := va.enc, vb := vb.enc, fmt := f.enc, rm := rm.enc })
  | .vcmplt g f rm pd va vb =>
    some (.v { g := g, op := 0x13#7, vd := 0#7 ++ pd, va := va.enc, vb := vb.enc, fmt := f.enc, rm := rm.enc })
  | .vcmple g f rm pd va vb =>
    some (.v { g := g, op := 0x14#7, vd := 0#7 ++ pd, va := va.enc, vb := vb.enc, fmt := f.enc, rm := rm.enc })
  | .vcmpne g f rm pd va vb =>
    some (.v { g := g, op := 0x15#7, vd := 0#7 ++ pd, va := va.enc, vb := vb.enc, fmt := f.enc, rm := rm.enc })
  | .vclass g f rm pd va mask =>
    some (.v { g := g, op := 0x16#7, vd := 0#7 ++ pd, va := va.enc, vb := 0#2 ++ mask, fmt := f.enc, rm := rm.enc })
  | .vsel g f rm vd va vb pc =>
    some (.v { g := g, op := 0x18#7, vd := vd.enc, va := va.enc, vb := vb.enc, vc := 0#7 ++ pc, fmt := f.enc, rm := rm.enc })
  | .vcvt g fd rm vd va fs sat part =>
    some (.v { g := g, op := 0x19#7, vd := vd.enc, va := va.enc, vb := 0#6 ++ ofBool sat ++ fs.enc, vc := 0#7 ++ part, fmt := fd.enc, rm := rm.enc })
  | .vqnt g fd rm vd va vc fs sat part =>
    some (.v { g := g, op := 0x1A#7, vd := vd.enc, va := va.enc, vb := 0#2 ++ part ++ ofBool sat ++ fs.enc, vc := vc.enc, fmt := fd.enc, rm := rm.enc })
  | .vcbdec g fd rm vd va part =>
    some (.v { g := g, op := 0x1B#7, vd := vd.enc, va := va.enc, vb := 0#7 ++ part, fmt := fd.enc, rm := rm.enc })
  | .vround g f rm vd va =>
    some (.v { g := g, op := 0x1C#7, vd := vd.enc, va := va.enc, fmt := f.enc, rm := rm.enc })
  | .viadd g f rm vd va vb =>
    some (.v { g := g, op := 0x20#7, vd := vd.enc, va := va.enc, vb := vb.enc, fmt := f.enc, rm := rm.enc })
  | .visub g f rm vd va vb =>
    some (.v { g := g, op := 0x21#7, vd := vd.enc, va := va.enc, vb := vb.enc, fmt := f.enc, rm := rm.enc })
  | .vimul g f rm vd va vb =>
    some (.v { g := g, op := 0x22#7, vd := vd.enc, va := va.enc, vb := vb.enc, fmt := f.enc, rm := rm.enc })
  | .vimin g f rm vd va vb =>
    some (.v { g := g, op := 0x23#7, vd := vd.enc, va := va.enc, vb := vb.enc, fmt := f.enc, rm := rm.enc })
  | .vimax g f rm vd va vb =>
    some (.v { g := g, op := 0x24#7, vd := vd.enc, va := va.enc, vb := vb.enc, fmt := f.enc, rm := rm.enc })
  | .vand g f rm vd va vb =>
    some (.v { g := g, op := 0x25#7, vd := vd.enc, va := va.enc, vb := vb.enc, fmt := f.enc, rm := rm.enc })
  | .vor g f rm vd va vb =>
    some (.v { g := g, op := 0x26#7, vd := vd.enc, va := va.enc, vb := vb.enc, fmt := f.enc, rm := rm.enc })
  | .vxor g f rm vd va vb =>
    some (.v { g := g, op := 0x27#7, vd := vd.enc, va := va.enc, vb := vb.enc, fmt := f.enc, rm := rm.enc })
  | .vshl g f rm vd va vb =>
    some (.v { g := g, op := 0x28#7, vd := vd.enc, va := va.enc, vb := vb.enc, fmt := f.enc, rm := rm.enc })
  | .vshr g f rm vd va vb =>
    some (.v { g := g, op := 0x29#7, vd := vd.enc, va := va.enc, vb := vb.enc, fmt := f.enc, rm := rm.enc })
  | .vsra g f rm vd va vb =>
    some (.v { g := g, op := 0x2A#7, vd := vd.enc, va := va.enc, vb := vb.enc, fmt := f.enc, rm := rm.enc })
  | .vicmpeq g f rm pd va vb =>
    some (.v { g := g, op := 0x2B#7, vd := 0#7 ++ pd, va := va.enc, vb := vb.enc, fmt := f.enc, rm := rm.enc })
  | .vicmplt g f rm pd va vb =>
    some (.v { g := g, op := 0x2C#7, vd := 0#7 ++ pd, va := va.enc, vb := vb.enc, fmt := f.enc, rm := rm.enc })
  | .viabs g f rm vd va =>
    some (.v { g := g, op := 0x2D#7, vd := vd.enc, va := va.enc, fmt := f.enc, rm := rm.enc })
  | .vpopc g f rm vd va =>
    some (.v { g := g, op := 0x2E#7, vd := vd.enc, va := va.enc, fmt := f.enc, rm := rm.enc })
  | .vmov g f rm vd va =>
    some (.v { g := g, op := 0x30#7, vd := vd.enc, va := va.enc, fmt := f.enc, rm := rm.enc })
  | .vbcst g f rm vd va n =>
    some (.v { g := g, op := 0x31#7, vd := vd.enc, va := va.enc, vb := n, fmt := f.enc, rm := rm.enc })
  | .vperm g f rm vd va vb =>
    some (.v { g := g, op := 0x32#7, vd := vd.enc, va := va.enc, vb := vb.enc, fmt := f.enc, rm := rm.enc })
  | .vrotl g f rm vd va n =>
    some (.v { g := g, op := 0x34#7, vd := vd.enc, va := va.enc, vb := n, fmt := f.enc, rm := rm.enc })
  | .vextr g f rm vd va vb n =>
    some (.v { g := g, op := 0x35#7, vd := vd.enc, va := va.enc, vb := vb.enc, vc := n, fmt := f.enc, rm := rm.enc })
  | .vins g f rm vd va vb n =>
    some (.v { g := g, op := 0x36#7, vd := vd.enc, va := va.enc, vb := vb.enc, vc := n, fmt := f.enc, rm := rm.enc })
  | .vzip g f rm vd va vb h =>
    some (.v { g := g, op := 0x37#7, vd := vd.enc, va := va.enc, vb := vb.enc, vc := 0#10 ++ ofBool h, fmt := f.enc, rm := rm.enc })
  | .vunzip g f rm vd va vb o =>
    some (.v { g := g, op := 0x38#7, vd := vd.enc, va := va.enc, vb := vb.enc, vc := 0#10 ++ ofBool o, fmt := f.enc, rm := rm.enc })
  | .viota g f rm vd =>
    some (.v { g := g, op := 0x39#7, vd := vd.enc, fmt := f.enc, rm := rm.enc })
  | .vcompr g f rm vd va pc =>
    some (.v { g := g, op := 0x3A#7, vd := vd.enc, va := va.enc, vc := 0#7 ++ pc, fmt := f.enc, rm := rm.enc })
  | .vexpnd g f rm vd va pc =>
    some (.v { g := g, op := 0x3B#7, vd := vd.enc, va := va.enc, vc := 0#7 ++ pc, fmt := f.enc, rm := rm.enc })
  | .vrsum g f rm vd va pc =>
    some (.v { g := g, op := 0x40#7, vd := vd.enc, va := va.enc, vc := 0#7 ++ pc, fmt := f.enc, rm := rm.enc })
  | .vrmax g f rm vd va pc =>
    some (.v { g := g, op := 0x41#7, vd := vd.enc, va := va.enc, vc := 0#7 ++ pc, fmt := f.enc, rm := rm.enc })
  | .vrmin g f rm vd va pc =>
    some (.v { g := g, op := 0x42#7, vd := vd.enc, va := va.enc, vc := 0#7 ++ pc, fmt := f.enc, rm := rm.enc })
  | .vscan g f rm vd va pc =>
    some (.v { g := g, op := 0x44#7, vd := vd.enc, va := va.enc, vc := 0#7 ++ pc, fmt := f.enc, rm := rm.enc })
  | .vdot g f rm vd va vb pc =>
    some (.v { g := g, op := 0x45#7, vd := vd.enc, va := va.enc, vb := vb.enc, vc := 0#7 ++ pc, fmt := f.enc, rm := rm.enc })
  | .vargmx g f rm vd va pc =>
    some (.v { g := g, op := 0x46#7, vd := vd.enc, va := va.enc, vc := 0#7 ++ pc, fmt := f.enc, rm := rm.enc })
  | .mNop g =>
    some (.m { g := g, op := 0x00#7 })
  | .mpush g f vs row =>
    some (.m { g := g, op := 0x01#7, vs := vs.enc, row := row.rowBits, rx := row.rxBit, fmt := f.enc })
  | .mpusht g f e row =>
    some (.m { g := g, op := 0x02#7, vs := 0#5 ++ e, row := row.rowBits, rx := row.rxBit, fmt := f.enc })
  | .mshift g f acc vs row xa xb ovr =>
    some (.m { g := g, op := 0x03#7, vs := vs.enc, acc := acc.row, ax := acc.axBits, axe := acc.axeBit, row := row.rowBits, rx := row.rxBit, fmt := f.enc, xa := xa, xb := xb, mode := 0#3 ++ ofBool ovr })
  | .mshiftl g f acc row xa xb ovr =>
    some (.m { g := g, op := 0x04#7, acc := acc.row, ax := acc.axBits, axe := acc.axeBit, row := row.rowBits, rx := row.rxBit, fmt := f.enc, xa := xa, xb := xb, mode := 0#3 ++ ofBool ovr })
  | .mshiftt g f acc e row xa xb ovr =>
    some (.m { g := g, op := 0x05#7, vs := 0#5 ++ e, acc := acc.row, ax := acc.axBits, axe := acc.axeBit, row := row.rowBits, rx := row.rxBit, fmt := f.enc, xa := xa, xb := xb, mode := 0#3 ++ ofBool ovr })
  | .mflip g =>
    some (.m { g := g, op := 0x06#7 })
  | .mdrain g f acc vd row rm sat =>
    some (.m { g := g, op := 0x07#7, vs := vd, acc := acc.row, ax := acc.axBits, axe := acc.axeBit, row := row.rowBits, rx := row.rxBit, fmt := f.enc, mode := ofBool sat ++ rm.enc })
  | .mzero g acc =>
    some (.m { g := g, op := 0x08#7, acc := acc.row, ax := acc.axBits, axe := acc.axeBit })
  | .maddv g f acc vs row ovr =>
    some (.m { g := g, op := 0x09#7, vs := vs.enc, acc := acc.row, ax := acc.axBits, axe := acc.axeBit, row := row.rowBits, rx := row.rxBit, fmt := f.enc, mode := 0#3 ++ ofBool ovr })
  | .mdrainz g f acc vd row rm sat =>
    some (.m { g := g, op := 0x0A#7, vs := vd, acc := acc.row, ax := acc.axBits, axe := acc.axeBit, row := row.rowBits, rx := row.rxBit, fmt := f.enc, mode := ofBool sat ++ rm.enc })
  | .lNop g =>
    some (.l { g := g, op := 0x00#7 })
  | .lds g w sx sd ab sa off =>
    some (.l { g := g, op := 0x01#7, vd := 0#4 ++ sd.enc, w := ofBool sx ++ w, ab := ab, sa := sa.enc, off := off })
  | .sts g w sv ab sa off =>
    some (.l { g := g, op := 0x02#7, vd := 0#4 ++ sv.enc, w := 0#1 ++ w, ab := ab, sa := sa.enc, off := off })
  | .vld g len vd ab sa off =>
    some (.l { g := g, op := 0x03#7, vd := vd, w := len, ab := ab, sa := sa.enc, off := off })
  | .vst g len vd ab sa off =>
    some (.l { g := g, op := 0x04#7, vd := vd, w := len, ab := ab, sa := sa.enc, off := off })
  | .vlds g w vd ab off sa =>
    some (.l { g := g, op := 0x05#7, vd := vd, w := 0#1 ++ w, ab := ab, off := off, sa := sa.enc })
  | .vsts g w vd ab off sa =>
    some (.l { g := g, op := 0x06#7, vd := vd, w := 0#1 ++ w, ab := ab, off := off, sa := sa.enc })
  | .vldx g w vd ab sa vx =>
    some (.l { g := g, op := 0x07#7, vd := vd, w := 0#1 ++ w, ab := ab, off := 0#9 ++ vx, sa := sa.enc })
  | .vstx g w vd ab sa vx =>
    some (.l { g := g, op := 0x08#7, vd := vd, w := 0#1 ++ w, ab := ab, off := 0#9 ++ vx, sa := sa.enc })
  | .gathr g glob res vx ab sa f cnt pr =>
    some (.l { g := g, op := 0x09#7, vd := vx, w := 0#1 ++ ofBool res ++ ofBool glob, ab := ab, sa := sa.enc, off := 0#7 ++ cnt ++ f, fmt := pr })
  | .atoml g op f sd ab sa off =>
    some (.l { g := g, op := 0x0A#7, vd := 0#4 ++ sd.enc, w := op.enc, fmt := f.enc, ab := ab, sa := sa.enc, off := off })
  | .ldg g w sx sd ab sa off pr =>
    some (.l { g := g, op := 0x10#7, vd := 0#4 ++ sd.enc, w := ofBool sx ++ w, ab := ab, sa := sa.enc, off := off, fmt := pr })
  | .stg g w sv ab sa off =>
    some (.l { g := g, op := 0x11#7, vd := 0#4 ++ sv.enc, w := 0#1 ++ w, ab := ab, sa := sa.enc, off := off })
  | .vldg g len vd ab sa off pr =>
    some (.l { g := g, op := 0x12#7, vd := vd, w := len, ab := ab, sa := sa.enc, off := off, fmt := pr })
  | .vstg g len vd ab sa off =>
    some (.l { g := g, op := 0x13#7, vd := vd, w := len, ab := ab, sa := sa.enc, off := off })
  | .atomg g op f sd ab sa off =>
    some (.l { g := g, op := 0x14#7, vd := 0#4 ++ sd.enc, w := op.enc, fmt := f.enc, ab := ab, sa := sa.enc, off := off })
  | .watom g op f sd ab sa off =>
    some (.l { g := g, op := 0x15#7, vd := 0#4 ++ sd.enc, w := op.enc, fmt := f.enc, ab := ab, sa := sa.enc, off := off })
  | .watomr g op f vd ab sa off =>
    some (.l { g := g, op := 0x16#7, vd := vd, w := op.enc, fmt := f.enc, ab := ab, sa := sa.enc, off := off })
  | .pgreq g wr ab sa off =>
    some (.l { g := g, op := 0x17#7, w := 0#2 ++ ofBool wr, ab := ab, sa := sa.enc, off := off })
  | .cdisc g ab off sa =>
    some (.l { g := g, op := 0x18#7, ab := ab, sa := sa.enc, off := off })
  | .cflush g inv ab off sa =>
    some (.l { g := g, op := 0x19#7, w := 0#2 ++ ofBool inv, ab := ab, sa := sa.enc, off := off })
  | .smap g e ab off sg sz =>
    some (.l { g := g, op := 0x1A#7, fmt := e, ab := ab, off := off, sa := sg.enc, vd := 0#4 ++ sz.enc })
  | .sunmap g e =>
    some (.l { g := g, op := 0x1B#7, fmt := e })
  | .sflush g e =>
    some (.l { g := g, op := 0x1C#7, fmt := e })
  | .sdisc g e =>
    some (.l { g := g, op := 0x1D#7, fmt := e })
  | .rldg g wd d ab off sa =>
    some (.l { g := g, op := 0x20#7, vd := RData.enc d, w := wd.enc, ab := ab, off := off, sa := sa.enc })
  | .rstg g wd d ab off sa =>
    some (.l { g := g, op := 0x21#7, vd := RData.enc d, w := wd.enc, ab := ab, off := off, sa := sa.enc })
  | .rstp g wd d ab off sa =>
    some (.l { g := g, op := 0x22#7, vd := RData.enc d, w := wd.enc, ab := ab, off := off, sa := sa.enc })
  | .ratom g op f sd ab off sa =>
    some (.l { g := g, op := 0x23#7, vd := 0#4 ++ sd.enc, w := op.enc, fmt := f.enc, ab := ab, off := off, sa := sa.enc })
  | .rfence g =>
    some (.l { g := g, op := 0x24#7 })
  | .eNop g =>
    some (.e { g := g, op := 0x00#7 })
  | .pcopy g ch ab off sd =>
    some (.e { g := g, op := 0x01#7, ch := 0#1 ++ ch, ab := ab, sa := sd.enc, imm := 0#16 ++ off })
  | .pcopyt g ch ab off sd =>
    some (.e { g := g, op := 0x02#7, ch := 0#1 ++ ch, ab := ab, sa := sd.enc, imm := 0#16 ++ off })
  | .pcopyr g ch ab off sd =>
    some (.e { g := g, op := 0x03#7, ch := 0#1 ++ ch, ab := ab, sa := sd.enc, imm := 0#16 ++ off })
  | .pstat g ch sd =>
    some (.e { g := g, op := 0x04#7, ch := 0#1 ++ ch, sa := sd.enc })
  | .pstatErr g ch sd =>
    some (.e { g := g, op := 0x04#7, ch := 0#1 ++ ch, sa := sd.enc, imm := 1#36 })
  | .pstatClr g ch sd =>
    some (.e { g := g, op := 0x04#7, ch := 0#1 ++ ch, sa := sd.enc, imm := 2#36 })
  | .tbind g e lvl ab sa ac n rows pair =>
    some (.e { g := g, op := 0x08#7, ab := ab, sa := sa.enc, imm := 0#12 ++ ofBool pair ++ rows ++ n ++ ac ++ lvl ++ e })
  | .tfill g e =>
    some (.e { g := g, op := 0x09#7, imm := 0#30 ++ e })
  | .tdrain g e =>
    some (.e { g := g, op := 0x0A#7, imm := 0#30 ++ e })
  | .tfree g e =>
    some (.e { g := g, op := 0x0B#7, imm := 0#30 ++ e })
  | .tstate g e sd =>
    some (.e { g := g, op := 0x0C#7, sa := sd.enc, imm := 0#30 ++ e })
  | .vsend g sa ab off num len =>
    some (.e { g := g, op := 0x10#7, sa := sa.enc, ab := ab, imm := len ++ num ++ off })
  | .vlatch g (.plain ab off) sender num =>
    some (.e { g := g, op := 0x11#7, ab := ab, imm := 0#2 ++ 0#1 ++ sender ++ num ++ off })
  | .vlatch g (.tile e) sender num =>
    some (.e { g := g, op := 0x11#7, sa := 0#1 ++ e, imm := 0#2 ++ 1#1 ++ sender ++ num ++ 0#20 })
  | .vstat g sd =>
    some (.e { g := g, op := 0x12#7, sa := sd.enc })
  | .qpush g k ab off =>
    some (.e { g := g, op := 0x18#7, ch := k, ab := ab, imm := 0#16 ++ off })
  | .qadv g k n =>
    some (.e { g := g, op := 0x19#7, ch := k, imm := 0#32 ++ n })
  | .qcfg g k prod cons =>
    some (.e { g := g, op := 0x1B#7, ch := k, imm := 0#32 ++ cons ++ prod })
  | .qrst g k =>
    some (.e { g := g, op := 0x1C#7, ch := k })
  | .gsrch g ab off sd =>
    some (.e { g := g, op := 0x20#7, ab := ab, sa := sd.enc, imm := 0#16 ++ off })
  | .gstat g sd sa =>
    some (.e { g := g, op := 0x21#7, sa := sa.enc, imm := 0#29 ++ sd.enc })
  | .rlydone g n =>
    some (.e { g := g, op := 0x28#7, imm := 0#28 ++ n })
  | .rlyfree g n =>
    some (.e { g := g, op := 0x29#7, imm := 0#28 ++ n })
  | .rlystash g n =>
    some (.e { g := g, op := 0x2A#7, imm := 0#28 ++ n })
  | .rlypop g n =>
    some (.e { g := g, op := 0x2B#7, imm := 0#28 ++ n })
  | .cres g sd ab sa =>
    some (.e { g := g, op := 0x30#7, ab := ab, sa := sa.enc, imm := 0#29 ++ sd.enc })
  | .crel g ab sa =>
    some (.e { g := g, op := 0x31#7, ab := ab, sa := sa.enc })
  | .split g n =>
    some (.e { g := g, op := 0x38#7, imm := 0#32 ++ n })
  | .splitOccupancyEnd _ => none
  | .bundleFetch _ => none
  | .resultDelivery _ => none
  | .loadDataReturn _ => none
  | .xldLanding _ => none
  | .contributionLanding _ => none
  | .pushLanding _ => none
  | .queueProducerLanding _ _ => none
  | .stallPark _ _ => none
  | .taskWake _ _ => none
  | .priorityPromotion _ _ => none
  | .turnEnd _ => none
  | .switchBegin _ => none
  | .switchEnd _ => none
  | .placementStart _ _ => none
  | .stashFill _ _ _ => none
  | .tileFillComplete _ _ => none
  | .tileDrainComplete _ _ => none
  | .pumpJobStart _ _ => none
  | .pumpJobComplete _ _ => none
  | .pumpJobHalt _ _ => none
  | .engineRangeJobComplete _ => none
  | .wellheadUpdate _ => none
  | .volleyDrive _ _ => none
  | .spillStallRelease _ => none
  | .heldPostingRelease _ => none
  | .notifyWrite _ _ _ => none
  | .packetFetch _ => none
  | .launch _ _ => none
  | .launchComplete _ => none
  | .copy _ _ => none
  | .rallyLoad _ _ => none
  | .gen _ _ => none
  | .barrier _ _ => none
  | .barrierConditionMet _ _ => none
  | .fence _ _ => none
  | .hostWordPoll _ => none
  | .sliceEnd _ => none
  | .sliceStart _ => none
  | .spacingOverrun _ _ _ => none
  | .contextSave _ => none
  | .save _ => none
  | .restore _ => none
  | .shootdown _ _ => none
  | .shootdownAck _ _ => none
  | .shootdownDone _ => none
  | .migrationStart _ _ => none
  | .migrationLineMove _ _ => none
  | .migrationFinish _ _ => none
  | .migrationDone _ _ => none
  | .sweepPassStart => none
  | .sweepElement _ => none
  | .sweepPassComplete => none
  | .rallyEntryStart _ => none
  | .rallyEntryComplete _ => none
  | .rallyIncrementTimeout _ => none
  | .gseQueryPacket _ => none
  | .gseRound _ _ => none
  | .gseForwardedRequest _ => none
  | .gseQueryComplete _ _ => none
  | .flitSend _ => none
  | .flitReceive _ _ _ => none
  | .reportTimer _ => none
  | .reportReceive _ _ _ => none
  | .fabricRead => none
  | .fabricWrite => none
  | .fabricPostedWrite => none
  | .fabricAtomic => none
  | .fabricResponse => none
  | .staleNotice => none
  | .announce => none
  | .announceSend _ => none
  | .rallyIncrement => none
  | .postedWriteGapTimeout _ => none
  | .escapeMove _ _ => none
  | .remoteTimeout _ => none
  | .portTrainingDone _ _ _ => none
  | .nodeIdWrite _ => none
  | .coldReset => none
  | .warmReset => none
  | .functionReset => none
  | .startGroupBegin _ => none
  | .unitReady _ _ => none
  | .correctedError _ _ _ _ => none
  | .correctedThreshold _ _ => none
  | .uncorrectableLineError _ _ => none
  | .tagParityError _ _ => none
  | .errorInject _ => none
  | .injectedReport _ _ _ _ _ => none
  | .ckptCloseDone _ => none
  | .rollback _ => none
  | .rollbackDone _ => none
  | .powerControlTick _ => none
  | .registerWrite _ _ => none
  | .tlbWalkComplete _ => none

/-- The word of a table row of nbits bits: a 32-bit row stands in the P slot, a 48-bit row in C or else S,
a 64-bit row in V, M, L or E, the first in which it is legal. -/
def tableWord (nbits w : Nat) : Option SlotWord :=
  let slots := if nbits = 32 then [2] else if nbits = 48 then [0, 1] else if nbits = 64 then [3, 5, 6, 7] else []
  slots.findSome? fun n =>
    let x := SlotWord.ofNum n w
    if x.instr?.isSome then some x else none

/-- The instruction that the decoder reads from the bits of an opcode-table row. -/
def decodeTableWord (nbits w : Nat) : Option Instr := (tableWord nbits w).bind SlotWord.instr?

end Sys2Proof
end

