-- ==== Sys2Proof/Machine/Num.lean ====
section
/-! DEFINITION. Number formats and exact arithmetic (spec/03): the value of a code, one rounding, exact
sums and products, conversions, VQ2 decoding. An element is held as its code, a natural number below two to
its width. -/

namespace Sys2Proof.Machine

/-- An exact value: a NaN, an infinity, or (-1)^neg * mag * 2^exp, where mag = 0 is a signed zero. -/
inductive XVal where
  | nan
  | inf (neg : Bool)
  | fin (neg : Bool) (mag : Nat) (exp : Int)
  deriving DecidableEq, Repr

/-- The layout of a floating-point format (R68): widths of E and M, bias, largest finite E and M. -/
structure FloatSpec where
  ebits : Nat
  mbits : Nat
  bias : Nat
  maxE : Nat
  maxM : Nat
  deriving DecidableEq, Repr

/-- The layouts of R68; an integer format has none and reads as FP32's, which no rule asks for. -/
def floatSpec : Fmt → FloatSpec
  | .f32 => ⟨8, 23, 127, 254, 0x7FFFFF⟩
  | .bf16 => ⟨8, 7, 127, 254, 0x7F⟩
  | .f16 => ⟨5, 10, 15, 30, 0x3FF⟩
  | .e4m3 => ⟨4, 3, 7, 15, 6⟩
  | .e5m2 => ⟨5, 2, 15, 30, 3⟩
  | .e2m1 => ⟨2, 1, 1, 3, 1⟩
  | .i32 => ⟨8, 23, 127, 254, 0x7FFFFF⟩
  | .i16 => ⟨8, 23, 127, 254, 0x7FFFFF⟩
  | .i8 => ⟨8, 23, 127, 254, 0x7FFFFF⟩
  | .i64 => ⟨8, 23, 127, 254, 0x7FFFFF⟩

/-- The sign bit of a code. -/
def signOf (f : Fmt) (c : Nat) : Bool := c.testBit (fmtWidth f - 1)

/-- A code with the given sign and exponent and fraction fields. -/
def mkFloat (f : Fmt) (neg : Bool) (e m : Nat) : Nat :=
  let sp := floatSpec f
  (if neg then 2 ^ (sp.ebits + sp.mbits) else 0) + e * 2 ^ sp.mbits + m

/-- The value of a code (R68, R69). -/
def floatVal (f : Fmt) (c : Nat) : XVal :=
  let sp := floatSpec f
  let m := c % 2 ^ sp.mbits
  let e := (c / 2 ^ sp.mbits) % 2 ^ sp.ebits
  let neg := signOf f c
  if e > sp.maxE then (if m = 0 then .inf neg else .nan)
  else if e = sp.maxE && m > sp.maxM then .nan
  else if e = 0 then .fin neg m (1 - (sp.bias : Int) - (sp.mbits : Int))
  else .fin neg (2 ^ sp.mbits + m) ((e : Int) - (sp.bias : Int) - (sp.mbits : Int))

/-- The canonical NaN (R70); E2M1 writes 0x8, or 0x0 where the saturation choice is 1. -/
def canonicalNaN (f : Fmt) (sat : Bool) : Nat :=
  match f with
  | .f32 => 0x7FC00000
  | .bf16 => 0x7FC0
  | .f16 => 0x7E00
  | .e4m3 => 0x7F
  | .e5m2 => 0x7E
  | .e2m1 => if sat then 0 else 8
  | .i32 => 0
  | .i16 => 0
  | .i8 => 0
  | .i64 => 0

/-- The largest finite magnitude with a sign. -/
def largestFinite (f : Fmt) (neg : Bool) : Nat := mkFloat f neg (floatSpec f).maxE (floatSpec f).maxM

/-- The result of an overflow that is not clamped (R75): an infinity, E4M3's NaN with the sign, or E2M1's
overflow marker. -/
def overflowMark (f : Fmt) (neg : Bool) : Nat :=
  match f with
  | .e4m3 => if neg then 0xFF else 0x7F
  | .e2m1 => 8
  | _ => mkFloat f neg ((floatSpec f).maxE + 1) 0

/-- The saturation choice acts on FP8 and FP4 only (R75). -/
def satActs (f : Fmt) (sat : Bool) : Bool :=
  sat && (f == .e4m3 || f == .e5m2 || f == .e2m1)

/-- Overflow by rounding mode (R75). -/
def overflow (f : Fmt) (rm : RM) (sat neg : Bool) : Nat :=
  if satActs f sat then largestFinite f neg
  else
    match rm with
    | .rne => overflowMark f neg
    | .rna => overflowMark f neg
    | .rtz => largestFinite f neg
    | .rup => if neg then largestFinite f neg else overflowMark f neg
    | .rdn => if neg then overflowMark f neg else largestFinite f neg

/-- Whether a magnitude n with remainder rem of a unit 2^sh moves to n + 1 (R74). -/
def roundsUp (rm : RM) (neg : Bool) (n rem sh : Nat) : Bool :=
  let half := 2 ^ sh / 2
  match rm with
  | .rne => rem > half || (rem == half && rem != 0 && n % 2 == 1)
  | .rtz => false
  | .rup => !neg && rem != 0
  | .rdn => neg && rem != 0
  | .rna => rem != 0 && rem ≥ half

/-- mag * 2^exp as a multiple of 2^q, rounded by mode; the sign only chooses the direction. -/
def roundMag (rm : RM) (neg : Bool) (mag : Nat) (exp q : Int) : Nat :=
  if q ≤ exp then mag * 2 ^ (exp - q).toNat
  else
    let sh := (q - exp).toNat
    let n := mag / 2 ^ sh
    if roundsUp rm neg n (mag % 2 ^ sh) sh then n + 1 else n

/-- The number of bits of a natural number. -/
def bitLen (n : Nat) : Nat := if n = 0 then 0 else n.log2 + 1

/-- A zero result: E2M1 always writes 0x0 (R77). -/
def zeroCode (f : Fmt) (neg : Bool) : Nat := if f == .e2m1 then 0 else mkFloat f neg 0 0

/-- Round(x, f, m, sat) of R75 to R77, on an exact value. -/
def round (f : Fmt) (rm : RM) (sat : Bool) (x : XVal) : Nat :=
  match x with
  | .nan => canonicalNaN f sat
  | .inf neg => if satActs f sat then largestFinite f neg else overflowMark f neg
  | .fin neg mag exp =>
    let sp := floatSpec f
    let qmin : Int := 1 - (sp.bias : Int) - (sp.mbits : Int)
    let q : Int := max ((bitLen mag : Int) + exp - 1 - (sp.mbits : Int)) qmin
    let n := roundMag rm neg mag exp q
    if n = 0 then zeroCode f neg
    else if n < 2 ^ sp.mbits then mkFloat f neg 0 n
    else
      let carry := n ≥ 2 ^ (sp.mbits + 1)
      let e := (q - qmin).toNat + (if carry then 2 else 1)
      let m := if carry then 0 else n - 2 ^ sp.mbits
      if e > sp.maxE || (e == sp.maxE && m > sp.maxM) then overflow f rm sat neg else mkFloat f neg e m

/-- The sign of an exact sum whose value is zero (R75). -/
def zeroSign (rm : RM) (a b : Bool) : Bool := if a == b then a else rm == .rdn

/-- The exact sum of two values; `rm` decides only the sign of a zero sum. -/
def xadd (rm : RM) (x y : XVal) : XVal :=
  match x, y with
  | .nan, _ => .nan
  | _, .nan => .nan
  | .inf a, .inf b => if a == b then .inf a else .nan
  | .inf a, .fin _ _ _ => .inf a
  | .fin _ _ _, .inf b => .inf b
  | .fin a m e, .fin b n d =>
    if m = 0 && n = 0 then .fin (zeroSign rm a b) 0 0
    else if m = 0 then .fin b n d
    else if n = 0 then .fin a m e
    else
      let q := min e d
      let m' := m * 2 ^ (e - q).toNat
      let n' := n * 2 ^ (d - q).toNat
      if a == b then .fin a (m' + n') q
      else if m' = n' then .fin (rm == .rdn) 0 0
      else if m' > n' then .fin a (m' - n') q
      else .fin b (n' - m') q

/-- The exact product; a zero takes the exclusive-or of the signs, zero times infinity is NaN. -/
def xmul (x y : XVal) : XVal :=
  match x, y with
  | .nan, _ => .nan
  | _, .nan => .nan
  | .inf a, .inf b => .inf (a != b)
  | .inf a, .fin b n _ => if n = 0 then .nan else .inf (a != b)
  | .fin a m _, .inf b => if m = 0 then .nan else .inf (a != b)
  | .fin a m e, .fin b n d => .fin (a != b) (m * n) (e + d)

/-- The value with its sign inverted. -/
def xneg : XVal → XVal
  | .nan => .nan
  | .inf a => .inf !a
  | .fin a m e => .fin (!a) m e

/-- The value times 2^k; zeros, infinities and NaNs are unchanged. -/
def xscale (k : Int) : XVal → XVal
  | .nan => .nan
  | .inf a => .inf a
  | .fin a m e => .fin a m (e + k)

/-- The exact sum of a list of terms; a sum that starts empty has no zero term (R75). -/
def xsum (rm : RM) : List XVal → XVal
  | [] => .fin false 0 0
  | x :: xs => xs.foldl (xadd rm) x

/-- Ordering of two values that are not NaN; a zero compares equal to a zero. -/
def xcmp (x y : XVal) : Ordering :=
  match x, y with
  | .inf a, .inf b => if a == b then .eq else if a then .lt else .gt
  | .inf a, _ => if a then .lt else .gt
  | _, .inf b => if b then .gt else .lt
  | .fin a m e, .fin b n d =>
    let q := min e d
    let s (neg : Bool) (v : Nat) : Int := if neg then - (v : Int) else v
    compare (s a (m * 2 ^ (e - q).toNat)) (s b (n * 2 ^ (d - q).toNat))
  | .nan, _ => .eq
  | _, .nan => .eq

def isNaN : XVal → Bool
  | .nan => true
  | _ => false

/-- a is below b, with -0 below +0 (R164, R174, R187). -/
def xbelow (x y : XVal) : Bool :=
  match xcmp x y with
  | .lt => true
  | .gt => false
  | .eq =>
    match x, y with
    | .fin a m _, .fin b n _ => m = 0 && n = 0 && a && !b
    | _, _ => false

/-- The lesser of two codes, canonical NaN if either is NaN. -/
def fmin (f : Fmt) (a b : Nat) : Nat :=
  let x := floatVal f a
  let y := floatVal f b
  if isNaN x || isNaN y then canonicalNaN f false else if xbelow y x then b else a

/-- The greater of two codes, canonical NaN if either is NaN. -/
def fmax (f : Fmt) (a b : Nat) : Nat :=
  let x := floatVal f a
  let y := floatVal f b
  if isNaN x || isNaN y then canonicalNaN f false else if xbelow x y then b else a

/-- Integer part of the square root of n, bit by bit from bit `k - 1` down. -/
def isqrtFrom (n : Nat) : Nat → Nat → Nat
  | 0, r => r
  | k + 1, r =>
    let t := r + 2 ^ k
    isqrtFrom n k (if t * t ≤ n then t else r)

def isqrt (n : Nat) : Nat := isqrtFrom n (bitLen n / 2 + 1) 0

/-- A magnitude whose last bit also stands for everything below it, so that one rounding is right. -/
def sticky (n : Nat) (inexact : Bool) : Nat := 2 * n + (if inexact then 1 else 0)

/-- The exact value of 1 / x to a precision past every format, the rest in the sticky bit (R175). -/
def xrcp : XVal → XVal
  | .nan => .nan
  | .inf a => .fin a 0 0
  | .fin a m e =>
    if m = 0 then .inf a
    else
      let k := bitLen m + 64
      .fin a (sticky (2 ^ k / m) (2 ^ k % m != 0)) (- e - (k : Int) - 1)

/-- The square root (R175). -/
def xsqrt : XVal → XVal
  | .nan => .nan
  | .inf a => if a then .nan else .inf false
  | .fin a m e =>
    if m = 0 then .fin a 0 0
    else if a then .nan
    else
      let n := m * 2 ^ (128 + (e % 2).toNat)
      let r := isqrt n
      .fin false (sticky r (r * r != n)) ((e - e % 2) / 2 - 64 - 1)

/-- The reciprocal square root (R175). -/
def xrsq : XVal → XVal
  | .nan => .nan
  | .inf a => if a then .nan else .fin false 0 0
  | .fin a m e =>
    if m = 0 then .inf a
    else if a then .nan
    else
      let m' := m * 2 ^ (e % 2).toNat
      let k := bitLen m' + 64
      let t := 2 ^ (2 * k) / m'
      let r := isqrt t
      .fin false (sticky r (r * r != t || 2 ^ (2 * k) % m' != 0)) (- ((e - e % 2) / 2) - (k : Int) - 1)

/-- Fixed-point precision of the two transcendental series. (Log 9: UNVERIFIED) -/
def transBits : Nat := 400

/-- The product of 2^(2^-i) over the set bits of a fraction, most significant first; `s` is the running
root of two, all in fixed point with `transBits` bits. -/
def exp2Frac (frac : Nat) : Nat → Nat → Nat → Nat
  | 0, _, acc => acc
  | k + 1, s, acc =>
    let s' := isqrt (s * 2 ^ transBits)
    exp2Frac frac k s' (if frac.testBit k then acc * s' / 2 ^ transBits else acc)

/-- 2^x (R175): exact for an integer x, otherwise truncated with the sticky bit set. (Log 9: UNVERIFIED) -/
def xexp2 : XVal → XVal
  | .nan => .nan
  | .inf a => if a then .fin false 0 0 else .inf false
  | .fin a m e =>
    let v : Int := if a then - (m : Int) else m
    if e > 40 && m != 0 then (if a then .fin false 1 (-100000) else .fin false 1 100000)
    else if 0 ≤ e then .fin false 1 (max (-100000) (min 100000 (v * 2 ^ e.toNat)))
    else
      let k := (- e).toNat
      let ip := v / 2 ^ k
      let frac := (v % 2 ^ k).toNat
      let ip' := max (-100000) (min 100000 ip)
      if frac = 0 then .fin false 1 ip'
      else .fin false (sticky (exp2Frac frac k (2 * 2 ^ transBits) (2 ^ transBits)) true) (ip' - (transBits : Int) - 1)

/-- The next `k` bits of log2 of y, where y is in [1, 2) with `transBits` bits. -/
def log2Frac : Nat → Nat → Nat → Nat
  | 0, _, acc => acc
  | k + 1, y, acc =>
    let y2 := y * y / 2 ^ transBits
    if y2 ≥ 2 * 2 ^ transBits then log2Frac k (y2 / 2) (2 * acc + 1) else log2Frac k y2 (2 * acc)

/-- log2 x (R175): exact for a power of two, otherwise truncated with the sticky bit set. (Log 9: UNVERIFIED) -/
def xlog2 : XVal → XVal
  | .nan => .nan
  | .inf a => if a then .nan else .inf false
  | .fin a m e =>
    if m = 0 then .inf true
    else if a then .nan
    else
      let l := bitLen m - 1
      let ip : Int := e + (l : Int)
      if m = 2 ^ l then .fin (ip < 0) ip.natAbs 0
      else
        let fr := log2Frac 160 (m * 2 ^ (transBits - l)) 0
        let v : Int := ip * 2 ^ 160 + (fr : Int)
        if 0 ≤ v then .fin false (sticky v.toNat true) (-161)
        else .fin true (sticky (v.natAbs - 1) true) (-161)

/-- An exact value rounded to an integer by mode; a NaN or an infinity has none. -/
def roundInt (rm : RM) : XVal → Option Int
  | .fin neg mag exp =>
    let n := roundMag rm neg mag exp 0
    some (if neg then - (n : Int) else n)
  | _ => none

/-- The two's-complement code of an integer in width w. -/
def intCode (w : Nat) (v : Int) : Nat := (v % 2 ^ w).toNat

/-- The integer that a code of width w stands for. -/
def intVal (w c : Nat) : Int := if c.testBit (w - 1) then (c : Int) - 2 ^ w else c

/-- The integer clamped to the range of width w. -/
def clampInt (w : Nat) (v : Int) : Int := max (- 2 ^ (w - 1)) (min (2 ^ (w - 1) - 1) v)

/-- An exact value as a clamped integer of width w; a NaN gives 0, an infinity the nearer bound (R78). -/
def toInt (w : Nat) (rm : RM) (x : XVal) : Nat :=
  match x with
  | .nan => 0
  | .inf neg => intCode w (if neg then - 2 ^ (w - 1) else 2 ^ (w - 1) - 1)
  | .fin _ _ _ => intCode w (clampInt w ((roundInt rm x).getD 0))

/-- An integer as an exact value. -/
def ofInt (v : Int) : XVal := .fin (v < 0) v.natAbs 0

/-- The value of a code in any format; an integer format gives its integer. -/
def codeVal (f : Fmt) (c : Nat) : XVal :=
  if fmtInt f then ofInt (intVal (fmtWidth f) c) else floatVal f c

/-- One element's conversion by VCVT (R181), with R76 to R78. -/
def convert (fs fd : Fmt) (rm : RM) (sat : Bool) (c : Nat) : Nat :=
  if fs == fd then c
  else if fmtInt fd then
    if fmtInt fs then
      let v := intVal (fmtWidth fs) c
      intCode (fmtWidth fd) (if sat then clampInt (fmtWidth fd) v else v)
    else toInt (fmtWidth fd) rm (floatVal fs c)
  else round fd rm sat (codeVal fs c)

/-- A value as FP32, exact for every code of at most FP32's precision (R86). -/
def widen (f : Fmt) (c : Nat) : Nat := round .f32 .rne false (floatVal f c)

/-- The FP32 sum of two FP32 codes, rounded once (R90, R164). -/
def addF32 (rm : RM) (a b : Nat) : Nat := round .f32 rm false (xadd rm (floatVal .f32 a) (floatVal .f32 b))

/-- The integer-valued element nearest by mode, with the sign of the operand (R184). -/
def roundToInteger (f : Fmt) (rm : RM) (c : Nat) : Nat :=
  match floatVal f c with
  | .nan => canonicalNaN f false
  | .inf _ => c
  | .fin neg mag exp => if 0 ≤ exp then c else round f rm false (.fin neg (roundMag rm neg mag exp 0) 0)

/-- The class bit of a code (R177). -/
def classOf (f : Fmt) (c : Nat) : Nat :=
  match floatVal f c with
  | .nan => 8
  | .inf neg => if neg then 0 else 7
  | .fin neg mag _ =>
    if mag = 0 then (if neg then 3 else 4)
    else
      let sub := (c / 2 ^ (floatSpec f).mbits) % 2 ^ (floatSpec f).ebits = 0
      if neg then (if sub then 2 else 1) else if sub then 5 else 6

/-- The number of set bits among the low k bits of n. -/
def popCount (n : Nat) : Nat → Nat
  | 0 => 0
  | k + 1 => (if n.testBit k then 1 else 0) + popCount n k

/-- Component i of the weight that a VQ2 index decodes to, in quarters (R81). -/
def vq2Quarters (q i : Nat) : Int :=
  let neg := if i = 0 then (popCount (q / 2) 15) % 2 == 1 else q.testBit i
  let mag : Int := if q.testBit (8 + i) then 6 else 2
  (if neg then - mag else mag) + (if q.testBit 0 then 1 else 0)

/-- That component as an exact value. -/
def vq2Val (q i : Nat) : XVal := xscale (-2) (ofInt (vq2Quarters q i))

/-- An E8M0 scale as a power of two, or the NaN scale (R73). -/
def scaleExp (s : Nat) : Option Int := if s = 0xFF then none else some ((s : Int) - 127)

end Sys2Proof.Machine
end

