-- ==== Sys2Proof/Config.lean ====
section
/-! DEFINITION. What the part fixes (R1) and the free values: constants with no body, of which no proof
can see anything, for what the spec leaves open. -/

namespace Sys2Proof.Config

/-- Cores of the module (R1). -/
def cores : Nat := 256

/-- Compute dies of the module (R1). -/
def dies : Nat := 8

/-- HBM stacks of the module, three under each die (R1, R442). -/
def stackCount : Nat := 24

/-- Partitions (R1). -/
def partitions : Nat := 64

/-- Device physical memory: 24 stacks of 64 GiB (R442). -/
def physLimit : Nat := 0x180_0000_0000

/-- Pages are 64 KiB (R365). -/
def pageSize : Nat := 0x1_0000

/-- The architecture's first invalid virtual address (R218). -/
def vaLimit : Nat := 2 ^ 55

/-- Latency of the contribution of a beat or MADDV, exposed (R201, R264). -/
def beatLatency : Nat := 72

/-- Latency of a pushed group, exposed (R201, R264). -/
def pushLatency : Nat := 16

/-- Latency of XLD, exposed (R190, R264). -/
def xldLatency : Nat := 12

/-- FREE VALUE. Latency in cycles of the n-th access to global memory: the spec's figures are typical
and bind nothing (R17, R221). (Log 6: DESIGN CHOICE) -/
opaque memLatency : Nat → Nat

/-- FREE VALUE. The die-cache set that holds a line; the spec gives 16 ways and 131,072 sets a die
and no index function (R297). (Log 10: DESIGN CHOICE) -/
opaque cacheSet : Nat → Nat

/-- FREE VALUE. Whether the n-th element that no live map names keeps its value over a restore
(otherwise it reads zero); R37 allows both. (Log 16: DESIGN CHOICE) -/
opaque deadKept : Nat → Bool

/-- FREE VALUE. How many 64 KiB units the n-th slice-end save takes of its context area; the layout of such a
save is the dispatcher's choice (R398). (Log 58: DESIGN CHOICE) -/
opaque saveUnits : Nat → Nat

/-- FREE VALUE. The module's power in watts averaged over the millisecond that begins at a time (R441).
(Log 99: DEDUCED) -/
opaque power : Nat → BitVec 13

/-- FREE VALUE. What an image says nothing of: the places of the kernel image that another module's tasks run (R401,
R404). (Log 124: DESIGN CHOICE) -/
opaque adopted : Nat → Nat

end Sys2Proof.Config
end

