-- ==== Sys2Proof/Machine/SMap.lean ====
section
/-! DEFINITION. Sparse maps from numbers: a list of (key, value) pairs in one canonical form, keys strictly
rising and no value equal to what an unlisted key reads as. Memory is one of them. -/

namespace Sys2Proof.Machine

/-- A sparse map. -/
abbrev SMap (α : Type) := List (Nat × α)

/-- The value at a key; d is what an unlisted key reads as. -/
def SMap.get {α : Type} (d : α) : SMap α → Nat → α
  | [], _ => d
  | (j, v) :: m, k => if k < j then d else if k = j then v else SMap.get d m k

/-- The map with value v at key k: a value equal to d is not listed. In a map whose keys rise, nothing but the entry
of k changes. -/
def SMap.set {α : Type} [DecidableEq α] (d : α) : SMap α → Nat → α → SMap α
  | [], k, v => if v = d then [] else [(k, v)]
  | (j, w) :: m, k, v =>
    if k < j then (if v = d then (j, w) :: m else (k, v) :: (j, w) :: m)
    else if k = j then (if v = d then m.filter (fun e => k < e.1) else (k, v) :: m)
    else (j, w) :: SMap.set d m k v

/-- Every key lies above b, keys rise, and no value is d. -/
def SMap.okFrom {α : Type} [DecidableEq α] (d : α) : Option Nat → SMap α → Bool
  | _, [] => true
  | b, (k, v) :: m => (match b with | none => true | some j => decide (j < k)) && decide (v ≠ d) && SMap.okFrom d (some k) m

/-- The canonical form. -/
def SMap.wf {α : Type} [DecidableEq α] (d : α) (m : SMap α) : Bool := SMap.okFrom d none m

/-- The map with the function applied at a key. -/
def SMap.upd {α : Type} [DecidableEq α] (d : α) (m : SMap α) (k : Nat) (f : α → α) : SMap α :=
  SMap.set d m k (f (SMap.get d m k))

/-- Every listed value through a function. -/
def SMap.mapAll {α : Type} [DecidableEq α] (d : α) (f : Nat → α → α) (m : SMap α) : SMap α :=
  m.foldl (fun acc kv => SMap.set d acc kv.1 (f kv.1 kv.2)) []

end Sys2Proof.Machine
end

