-- ==== Sys2Proof/Machine/State.lean ====
section
/-! DEFINITION. The state of one GN-96 module, as plain data, and the module right after cold reset. -/

namespace Sys2Proof.Machine

/-- Why the machine stops: never a trap of the spec, which is a next state. (Log 107: DEDUCED) -/
inductive Fault where
  /-- Raised by every access to device physical memory at or above 1,536 GiB, which the module does not
  have (R1, R442). Safe. -/
  | noMemory (pa : Nat)
  deriving DecidableEq, Repr

/-- Why an instruction is not run. -/
inductive Refusal where
  /-- Raised by an arm of `exec` whose instruction has no meaning yet. Safe. -/
  | notModelled (mnemonic : String)
  deriving DecidableEq, Repr

/-- A vector register, result-queue entry, queue entry or plane group with its tag (R47, R66). -/
structure VReg where
  data : VBits
  tag : Tag
  deriving DecidableEq, Repr

/-- A scale register with its tag (R54). -/
structure XReg where
  data : XBits
  tag : Tag
  deriving DecidableEq, Repr

/-- An accumulator row with its tag (R53). -/
structure AccRow where
  data : RowBits
  tag : Tag
  deriving DecidableEq, Repr

/-- An operand-latch row with its tag (R196). -/
structure LatchRow where
  data : LatchBits
  tag : Tag
  deriving DecidableEq, Repr

/-- One level of the loop stack (R140); `stages` is held by a LOOP.P level only. -/
structure Level where
  count : Word
  index : Word
  endAddr : Word
  body : Word
  stages : Option Nat
  total : Nat
  deriving DecidableEq, Repr

/-- What a parked task waits for (R28). -/
inductive ParkCause where
  | time (until_ : Nat)
  | word (va value : Word)
  | queueFill (k need : Nat)
  | queueSpace (k : Nat)
  | tile (e : Nat)
  | pump (ch : Nat) (id : Word)
  | barrier (die : Bool) (b : Nat) (phase : BitVec 16)
  | page (line : Nat)
  | remote (rtag : Nat)
  | fence (pc : Word)
  deriving DecidableEq, Repr

/-- The states of a task context (R27). `woken` is a PARKED task whose wake event has occurred. -/
inductive TaskState where
  | free
  | ready
  | issuing
  | parked (c : ParkCause)
  deriving DecidableEq, Repr

/-- The trap causes of R272. -/
inductive Cause where
  | illbundle | priv | lsrange | align | tilebind | xlate | remote | poison | volley | swtrap | queue
  | loopstack | stateue
  deriving DecidableEq, Repr

/-- Where TRAP.PC comes from (R272). -/
inductive TrapAt where
  | bundle
  | link
  | firstUnissued
  | address (pc : Word)
  deriving DecidableEq, Repr

/-- A trap that a slot raises: its cause, its record and where TRAP.PC comes from. -/
structure Trap where
  cause : Cause
  addr : Word
  info : Word
  at_ : TrapAt
  deriving DecidableEq, Repr

/-- The trap registers (R271). -/
structure TrapRec where
  cause : BitVec 8
  pc : Word
  slots : BitVec 8
  addr : Word
  info : Word
  deriving DecidableEq, Repr

/-- A failed posted remote store (R233). -/
structure RemoteFail where
  code : BitVec 8
  node : BitVec 10
  addr : Word
  deriving DecidableEq, Repr

/-- A slot operation of a dispatched bundle. -/
abbrev SlotOp := Nat × Instr

/-- A task context (spec/01, spec/02). Registers that a map does not list hold zero. `deferred` holds the traps
that the task takes before its next bundle, with their slots; `andThen` is a second wait that its last bundle
asked for; `stallOn` is the queue or tile that its next bundle has been stalled on for `stall` cycles. -/
structure Task where
  st : TaskState
  pc : Word
  link : Word
  s : SMap Word
  a : SMap Word
  p : SMap Lanes
  results : List VReg
  loops : List Level
  delta : SMap (BitVec 32)
  tag : Tag
  prio : BitVec 2
  eff : BitVec 2
  passed : Nat
  privileged : Bool
  coreId : BitVec 8
  cycle : Word
  parkThresh : BitVec 16
  volleyFault : BitVec 32
  trap : TrapRec
  vec : Word
  handling : Bool
  barPhase : SMap (BitVec 16)
  barSeen : SMap Bool
  vsendLast : BitVec 8
  vlatchLast : BitVec 8
  rstpFail : Option RemoteFail
  rstpOut : Nat
  returns : List Word
  launch : Option Nat
  rally : Option (Nat × Nat)
  stall : Nat
  stallOn : Option ParkCause
  wakeAt : Option Nat
  deferred : List (BitVec 8 × Trap)
  andThen : Option ParkCause
  stopped : Option Nat
  overran : Bool
  liveBad : Bool
  deriving DecidableEq, Repr

def TrapRec.zero : TrapRec := { cause := 0, pc := 0, slots := 0, addr := 0, info := 0 }

/-- A FREE context. (Log 4: DESIGN CHOICE) -/
def Task.free : Task :=
  { st := .free, pc := 0, link := 0, s := [], a := [], p := [], results := [], loops := [], delta := [],
    tag := 0, prio := 0, eff := 0, passed := 0, privileged := false, coreId := 0,
    cycle := 0, parkThresh := 256, volleyFault := 0, trap := .zero, vec := 0, handling := false,
    barPhase := [], barSeen := [], vsendLast := 0, vlatchLast := 0, rstpFail := none, rstpOut := 0,
    returns := [], launch := none, rally := none, stall := 0, stallOn := none, wakeAt := none, deferred := [], andThen := none,
    stopped := none, overran := false, liveBad := false }

/-- What an exposed-latency operation writes when it lands (R264, R278). -/
inductive PendWhat where
  | acc (row : Nat) (int overwrite : Bool) (data : RowBits)
  | push (group : Nat) (data : VBits)
  | scale (x : Nat) (data : XBits)
  deriving DecidableEq, Repr

/-- An exposed-latency result that has not landed: the cycle at which it lands, the context that issued it,
its tag. -/
structure Pend where
  due : Nat
  ctx : Nat
  tag : Tag
  what : PendWhat
  /-- Its task has parked since it issued it: a later consumer waits for it (R33). -/
  parked : Bool := false
  deriving DecidableEq, Repr

/-- A sector of a stash range (R288); `at_` is the address of the memory it stands for, while the directory records
the copy (R289). (Log 66: DEDUCED) -/
structure Sector where
  filled : Bool
  dirty : Bool
  at_ : Option Nat
  deriving DecidableEq, Repr

/-- A stash map entry (R231); `base` is a local address in the numbering of the quad (R7), so that the range may
lie in any one member's store. -/
structure Stash where
  active : Bool
  base : Nat
  size : Nat
  glob : Nat
  tag : Tag
  sectors : SMap Sector
  fault : Option (Nat × Word)
  deriving DecidableEq, Repr

def Sector.none : Sector := { filled := false, dirty := false, at_ := Option.none }

def Stash.none : Stash :=
  { active := false, base := 0, size := 0, glob := 0, tag := 0, sectors := [], fault := Option.none }

/-- The forms of a pump job (R239 to R241). -/
inductive PumpKind where
  | copy | transpose | reduce
  deriving DecidableEq, Repr

/-- A pump job: its identifier, its 64-byte control block as copied at issue, and how far it has come. Here and
in the other engine jobs `order` is the job's place among those that the core's tasks have issued (R313).
(Log 57: DEDUCED) -/
structure PumpJob where
  id : Word
  /-- The done-below that a PSTAT.CLR asked for while the job ran (R243, R314). -/
  through : Option Word := none
  kind : PumpKind
  ccbAddr : Word
  ccb : LineBits
  tag : Tag
  ctx : Nat
  launch : Option Nat
  issued : Nat
  started : Bool
  done : Nat
  order : Nat
  deriving DecidableEq, Repr

/-- A pump channel (R236, R243). -/
structure Pump where
  next : Word
  below : Word
  jobs : List PumpJob
  code : BitVec 8
  failId : Word
  failAddr : Word
  failInfo : Word
  failLaunch : Option Nat
  deriving DecidableEq, Repr

def Pump.init : Pump :=
  { next := 1, below := 1, jobs := [], code := 0, failId := 0, failAddr := 0, failInfo := 0, failLaunch := none }

/-- The states of a tile-table entry (R296), in the order of their codes. -/
inductive TileState where
  | empty | filling | ready | draining
  deriving DecidableEq, Repr

/-- A tile-table entry (R245 to R248). `coords` are those of the fill raised last; `queued` is a
fill raised while another or a drain is under way. (Log 28: DEDUCED; 39: DEDUCED) -/
structure Tile where
  st : TileState
  bound : Bool
  base : Nat
  handle : BitVec 32
  lvl : BitVec 3
  ac : BitVec 5
  n : BitVec 3
  rows : Nat
  pair : Bool
  code : BitVec 8
  faultAddr : Word
  faultInfo : Word
  tag : Tag
  ctx : Nat
  coords : List (BitVec 32)
  queued : Option (Nat × List (BitVec 32))
  volley : Bool
  launch : Option Nat
  order : Nat
  deriving DecidableEq, Repr

/-- (Log 38: DEDUCED) -/
def Tile.none : Tile :=
  { st := .empty, bound := false, base := 0, handle := 0, lvl := 7, ac := 0, n := 0, rows := 0, pair := false,
    code := 0, faultAddr := 0, faultInfo := 0, tag := 0, ctx := 0, coords := [], queued := Option.none,
    volley := false, launch := Option.none, order := 0 }

/-- A volley offered by VSEND and not yet driven (R249). -/
structure Send where
  ctx : Nat
  mask : BitVec 32
  off : Nat
  num : BitVec 8
  len : Nat
  tag : Tag
  launch : Option Nat
  coreId : BitVec 8
  order : Nat
  deriving DecidableEq, Repr

/-- The target of a posted volley latch (R250). -/
inductive LatchTo where
  | range (addr : Nat)
  | tile (e : Nat)
  deriving DecidableEq, Repr

/-- A latch posted by VLATCH and not yet delivered (R250). -/
structure Latch where
  ctx : Nat
  sender : BitVec 5
  num : BitVec 8
  dest : LatchTo
  tag : Tag
  launch : Option Nat
  coreId : BitVec 8
  order : Nat
  deriving DecidableEq, Repr

/-- Where the bytes of a global access lie: a frame, with the owner of a shared entry; host memory; or a
cistern page with its home die and its backing frame, if the driver has assigned one (R367). -/
inductive Loc where
  | frame (pa : Nat) (owner : Option Nat)
  | host (a : Nat)
  | cistern (a home : Nat) (backing : Option Nat)
  deriving DecidableEq, Repr

/-- The other engine jobs of a core (R230, R228, R231): CDISC and CFLUSH ranges, WATOMR updates and stash
write-backs, with the context and launch that issued them. -/
inductive JobWhat where
  | discard (va len : Nat)
  | flush (va len : Nat) (inval : Bool)
  | reduce (op : AtomOp) (f : Fmt) (lines : List Loc) (data : VBits) (va : Nat)
  | writeback (e : Nat) (remove : Bool)
  deriving DecidableEq, Repr

/-- (Log 55: DESIGN CHOICE) -/
structure Job where
  what : JobWhat
  ctx : Nat
  tag : Tag
  launch : Option Nat
  /-- The write footprint of R235, as a first address and a limit in the address space of `glob`. -/
  glob : Bool
  lo : Nat
  hi : Nat
  order : Nat
  deriving DecidableEq, Repr

/-- The destination of a load in flight. -/
inductive LoadTo where
  | scalar (r : SReg)
  | vector (v len : Nat)
  | latch (row : Nat)
  deriving DecidableEq, Repr

/-- A load whose data has not reached its destination (R219, R220, R308): the value it read when it was
performed, the lanes of pR it clears, the poisoned line it met. (Log 7: DEDUCED) -/
structure Load where
  ctx : Nat
  due : Nat
  dest : LoadTo
  data : VBits
  pr : BitVec 4
  keep : Lanes
  poison : Option Word
  tag : Tag
  deriving DecidableEq, Repr

/-- A register that the scoreboard knows (R263). -/
inductive RegKey where
  | s (n : Nat) | a (n : Nat) | p (n : Nat) | v (n : Nat) | x (n : Nat) | sys (n : Nat)
  | results
  /-- A row of the operand latch, which a GATHR fills (R209, R224). -/
  | row (n : Nat)
  deriving DecidableEq, Repr

/-- When the last writer of a register delivers and when its last reader issued (R263). -/
structure Board where
  key : RegKey
  ctx : Nat
  deliver : Nat
  lastRead : Nat
  /-- When the last writer issued (R270). -/
  wrote : Nat := 0
  deriving DecidableEq, Repr

/-- Issue state of a core (R259 to R266), in cycles of the arithmetic clock. (Log 31: DEDUCED; 109: DESIGN CHOICE) -/
structure Issue where
  dispatch : Nat
  lastC : Nat
  lastV : Nat
  lastM : Nat
  lastL : Nat
  trapAt : Nat
  window : List Nat
  board : List Board
  holdC : Nat
  holdV : Nat
  holdM : Nat
  holdL : Nat
  /-- Bundles that the nullifier has removed since the last dispatch (R268). -/
  nulls : Nat
  /-- The task's next bundle has been dispatched and holds (R32, R262). -/
  owed : Bool := false
  deriving DecidableEq, Repr

/-- (Log 4: DESIGN CHOICE) -/
def Issue.zero : Issue :=
  { dispatch := 0, lastC := 0, lastV := 0, lastM := 0, lastL := 0, trapAt := 0, window := [], board := [],
    holdC := 0, holdV := 0, holdM := 0, holdL := 0, nulls := 0 }

/-- A TLB entry: a valid page-table entry held by a core (R369). (Log 20: DEDUCED) -/
structure Tlb where
  part : Nat
  page : Nat
  level : Nat
  slot : Nat
  entry : Word
  deriving DecidableEq, Repr

/-- A task switch in progress (R32): the incoming context and the cycle in which it ends. -/
structure Switch where
  dest : Nat
  end_ : Nat
  deriving DecidableEq, Repr

/-- What a task that parks on a stall has dispatched and not issued (R270), in cycles after its park: the last issue of
each queue, the window, and the scoreboard entries and exposed results of the slots concerned. -/
structure Cut where
  lasts : List Nat
  trapAt : Nat
  window : List Nat
  board : List Board
  pend : List Pend
  deriving DecidableEq, Repr

/-- An access that has left a core and is not complete: until when, its memory requests (R221), and for one to a local
store the core, offset and length of what it touches (R287). -/
structure InFlight where
  till : Nat
  requests : Nat
  range : Option (Nat × Nat × Nat)
  deriving DecidableEq, Repr

/-- A core. (Log 115: DESIGN CHOICE) -/
structure Core where
  tasks : SMap Task
  v : SMap VReg
  x : SMap XReg
  acc : SMap AccRow
  planes : SMap VReg
  fore : Bool
  latch : SMap LatchRow
  pend : List Pend
  snapshot : List Pend
  scr : Nat
  splitEnd : Nat
  splitBusy : Bool
  stash : SMap Stash
  pumps : SMap Pump
  tiles : SMap Tile
  sends : List Send
  latches : List Latch
  jobs : List Job
  loads : List Load
  issue : Issue
  issuing : Option Nat
  turnStart : Nat
  lastWin : SMap Nat
  switch : Option Switch
  tlb : List Tlb
  walk : Option Nat
  bad : List (Nat × Nat)
  clock : Nat
  /-- An ERET has issued, and the snapshot waits for the first slot at TRAP.PC to issue (R279). -/
  replay : Bool
  /-- The turn of the ISSUING task has ended (R31): none of its bundles is dispatched. -/
  leaving : Bool
  /-- Engine jobs that the core's tasks have issued. -/
  issuedJobs : Nat
  /-- The lines that the cache part of the local store holds, with their tags, most recently used first (R66, R285).
  (Log 115: DESIGN CHOICE) -/
  cachePart : List (Nat × Tag) := []
  /-- Accesses other than `loads` that have not completed (R221, R287). -/
  inFlight : List InFlight := []
  /-- The accesses of the latest cycles to the banks of the local store (R285). (Log 116: DEDUCED) -/
  banks : List (Nat × BitVec 32) := []
  /-- By context, the slots that wait for a task parked on a stall to hold the pipeline again (R270). -/
  cuts : SMap (Option Cut) := []
  deriving DecidableEq, Repr

/-- The null tag (R7). -/
def nullTag : Tag := 0

def VReg.zero : VReg := { data := 0, tag := nullTag }
def XReg.zero : XReg := { data := 0, tag := nullTag }
def AccRow.zero : AccRow := { data := 0, tag := nullTag }
def LatchRow.zero : LatchRow := { data := 0, tag := nullTag }

/-- A core after cold reset: every context FREE, a split of 8 (R286), pump identifiers at 1 (R236), every
element under the null tag (R423). (Log 4: DESIGN CHOICE) -/
def Core.reset : Core :=
  { tasks := [], v := [], x := [], acc := [], planes := [], fore := false, latch := [], pend := [],
    snapshot := [], scr := 8, splitEnd := 0, splitBusy := false, stash := [], pumps := [], tiles := [], sends := [], latches := [],
    jobs := [], loads := [], issue := .zero, issuing := none, turnStart := 0, lastWin := [], switch := none,
    tlb := [], walk := none, bad := [], clock := 0, replay := false,
    leaving := false, issuedJobs := 0 }

/-- A producer write that has not landed (R58, R253): its queue, entry and tag. (Log 8: DEDUCED) -/
structure Landing where
  data : VBits
  tag : Tag
  due : Nat
  deriving DecidableEq, Repr

/-- A quad queue (R55, R252): entries by position 0 to 7. -/
structure Queue where
  rd : BitVec 3
  fill : Nat
  entries : SMap VReg
  prod : BitVec 2
  cons : BitVec 2
  tag : Tag
  fs : Fmt
  fk : Fmt
  rm : RM
  sat : Bool
  landing : List Landing
  deriving DecidableEq, Repr

/-- (Log 4: DESIGN CHOICE) -/
def Queue.reset : Queue :=
  { rd := 0, fill := 0, entries := [], prod := 0, cons := 0, tag := nullTag, fs := .f32, fk := .f32,
    rm := .rne, sat := false, landing := [] }

/-- A quad or die barrier (R152). -/
structure Barrier where
  expected : Nat
  arrived : Nat
  phase : BitVec 16
  tag : Tag
  deriving DecidableEq, Repr

/-- (Log 4: DESIGN CHOICE) -/
def Barrier.reset : Barrier := { expected := 0, arrived := 0, phase := 0, tag := nullTag }

/-- A line held by a die cache (R297 to R302) or a spill buffer (R303). `key` is its memory address;
`dirty` and `valid` have a bit per 16-byte sector. (Log 10: DESIGN CHOICE) -/
structure CLine where
  key : Nat
  way : Nat
  owner : Nat
  tag : Tag
  data : LineBits
  dirty : BitVec 4
  poison : Bool
  reserved : Bool
  /-- The partitions whose step removes a kept line of which the tag entry had a parity error (R436). -/
  doomed : BitVec 64
  valid : BitVec 4 := 15
  deriving DecidableEq, Repr

/-- The backing frame of a cistern page as the page's home die knows it, 0 for none (R378). (Log 120: DEDUCED) -/
structure Backed where
  part : Nat
  page : Nat
  frame : Nat
  deriving DecidableEq, Repr

/-- A page of a cistern reservation and how many of its 1,024 lines are charged at its die (R256, R304). -/
structure Reserved where
  part : Nat
  page : Nat
  lines : Nat
  deriving DecidableEq, Repr

/-- A compute die: its cache, most recently used line first; its spill buffer, with the pages, as (partition, page),
whose spill events wait for ring space (R303, R374); its monitors (R281). (Log 10: DESIGN CHOICE) -/
structure Die where
  lines : List CLine
  spill : List CLine
  monitors : List Nat
  reserved : List Reserved
  spillStall : Bool
  backed : List Backed := []
  unposted : List (Nat × Nat) := []
  deriving DecidableEq, Repr

def Die.reset : Die := { lines := [], spill := [], monitors := [], reserved := [], spillStall := false }

/-- The effect on control flow that a bundle's C slot chose (R137). -/
inductive Ctl where
  | go (pc : Word)
  /-- A loop of count 0 passes its body (R140); it is no branch, so a level that ends here loops back (R141). -/
  | pass (after : Word)
  | loopBack (after : Word)
  | exit
  | park (c : ParkCause)
  | trapAfter (t : Trap)
  | eret
  /-- The task steps the generation of its own partition, which ends it (R389). -/
  | endTenancy
  /-- The task stops at a safe point with a live map (R147). -/
  | stop (live : Nat)
  /-- The bundle goes on in sequence, or loops back, once what waits for its own park is done (R141, R313). -/
  | sequel
  deriving DecidableEq, Repr

/-- Why a bundle does not issue now: a queue or tile stall, which parks (R28), an interlocked stall, or the
interlocked stall on die d's full spill buffer, which names a page (R303). (Log 33: DEDUCED) -/
inductive Hold where
  | parkable (c : ParkCause)
  | interlock
  | spill (d page : Nat)
  deriving DecidableEq, Repr

/-- The bundle in progress: its address, the address after it, the registers as they stood before it (R51),
and what its slots have asked for so far. -/
structure Frame where
  task : Task
  core : Core
  ops : List SlotOp
  traps : List (Nat × Trap)
  holds : List Hold
  ctl : Option Ctl
  park : Option ParkCause
  /-- The length of the bundle in bytes. -/
  len : Nat := 0
  /-- Slots whose accesses wait for the wake of the bundle's own park (R312, R314). -/
  later : List SlotOp := []
  /-- The frame holds such slots, after that wake. -/
  resumed : Bool := false
  deriving DecidableEq, Repr

/-- The tenancy of a partition (R382): generation, base generation, closed flag. -/
structure Tenancy where
  gen : BitVec 10
  base : BitVec 10
  closed : Bool
  deriving DecidableEq, Repr

def Tenancy.reset : Tenancy := { gen := 1, base := 1, closed := false }

/-- The sump sweeper (R383, R392): whether a pass runs, whether one is owed, the generations at its start and
the elements that it has not yet visited. -/
structure Sweeper where
  running : Bool
  owed : Bool
  passes : BitVec 32
  rate : BitVec 4
  startGens : SMap (BitVec 10)
  todo : List SweepElem
  deriving DecidableEq, Repr

def Sweeper.reset : Sweeper := { running := false, owed := false, passes := 0, rate := 1, startGens := [], todo := [] }

/-- A request packet that the dispatcher has fetched and not completed (R355, R357); `copy` is the job of a
COPY that has begun, `launch` the launch of a LAUNCH. -/
structure Packet where
  q : Nat
  idx : Nat
  part : Nat
  pasid : Nat
  words : List Word
  begun : Bool
  copy : Option PumpJob
  launch : Option Nat
  /-- A read of a BARRIER's word has met its condition (R358). -/
  met : Bool := false
  /-- How it ends: status code, detail and bits [31:16] of its status word, whose writes wait (R360). -/
  outcome : Option (Nat × Nat × Nat) := none
  deriving DecidableEq, Repr

/-- What an error record of a launch holds (R361). -/
structure LaunchError where
  kind : Nat
  cause : Nat
  coreId : Nat
  ctx : Nat
  pc : Word
  addr : Word
  info : Word
  slots : Nat
  deriving DecidableEq, Repr

/-- A launch in progress (R22 to R26): its packet (or rally entry), image, bound quads and what is left. -/
structure Launch where
  part : Nat
  q : Nat
  idx : Nat
  signal : Word
  sigval : Word
  irq : Bool
  base : Word
  codeOff : Word
  codeSize : Word
  liveOff : Word
  liveCnt : Nat
  tensOff : Word
  tensCnt : Nat
  spacing : Nat
  arg : Word
  err : Word
  quads : List Nat
  waiting : List Word
  priv : Bool
  halt : Option (BitVec 16)
  errors : Nat
  /-- The last of its errors, which its record is still to take: their writes wait (R361). -/
  unwritten : List LaunchError := []
  tag : Tag
  rally : Bool
  /-- For a rally entry, what a1, a2, s2 and s3 of its tasks take (R327). -/
  extra : List Word
  deriving DecidableEq, Repr

/-- A partition's slice on a quad (R363): the slices of its turn that follow, the reference time at which it
ends, and when a pre-emption was requested of it. -/
structure Slice where
  part : Nat
  left : Nat
  endsAt : Nat
  quiesce : Option Nat
  deriving DecidableEq, Repr

/-- An item of a live map with its data in index order (R283, R401); kind 9 has its BASE in `first`. -/
structure LiveItem where
  kind : Nat
  core : Nat
  ctx : Nat
  first : Nat
  last : Nat
  size : Nat
  data : List Byte
  deriving DecidableEq, Repr

/-- A pump channel as it is saved (R396): its values and the jobs to be replayed. -/
structure SavedPump where
  core : Nat
  ch : Nat
  pump : Pump
  deriving DecidableEq, Repr

/-- What pre-emption keeps of a partition on a quad, or of all of it (R284, R396, R401). A core is named by its
physical number at a slice end and by its logical position in an image. -/
structure Saved where
  tasks : List (Nat × Nat × Task)
  live : List LiveItem
  queues : List (Nat × Nat × Queue)
  tiles : List (Nat × Nat × Tile)
  stash : List (Nat × Nat × Stash)
  pumps : List SavedPump
  sends : List (Nat × Send)
  latches : List (Nat × Latch)
  quadBars : List (Nat × Nat × Barrier)
  dieBars : List (Nat × Nat × Barrier)
  bad : Bool
  deriving DecidableEq, Repr

def Saved.empty : Saved :=
  { tasks := [], live := [], queues := [], tiles := [], stash := [], pumps := [], sends := [], latches := [],
    quadBars := [], dieBars := [], bad := false }

/-- One entry of a rally table (R323). -/
structure RallyEntry where
  kind : Nat
  nin : Nat
  nout : Nat
  mb : Nat
  image : Word
  arg : Word
  deriving DecidableEq, Repr

/-- A ring of slots (R322). -/
structure Ring where
  base : Word
  slot : Nat
  cnt : Nat
  deriving DecidableEq, Repr

/-- The rally state of a partition (R321). `st` is coded as RLYS.STATE; `live` is the launch of the entry in
flight, `posted` its increments that have no answer yet, `was` its START and the bubbles before it was the
head. -/
structure Rally where
  tag : Tag
  priv : Bool
  entries : List RallyEntry
  st : Nat
  head : Nat
  stashLim : Nat
  dnNode : Word
  upNode : Word
  fin : Ring
  bin : Ring
  dn : Ring
  up : Ring
  trBase : Word
  trLen : Nat
  errRec : Word
  fillF : Nat
  fillB : Nat
  freeDn : Nat
  freeUp : Nat
  rdF : Nat
  rdB : Nat
  wrDn : Nat
  wrUp : Nat
  stash : Nat
  bubbles : List Nat
  errs : BitVec 7
  errEntry : Nat
  traced : Nat
  live : Option Nat
  posted : Nat
  start : Nat
  was : List Nat
  deriving DecidableEq, Repr

def Ring.none : Ring := { base := 0, slot := 0, cnt := 0 }

/-- An unloaded rally state (R335). -/
def Rally.none : Rally :=
  { tag := 0, priv := false, entries := [], st := 0, head := 0, stashLim := 0, dnNode := 0, upNode := 0,
    fin := .none, bin := .none, dn := .none, up := .none, trBase := 0, trLen := 0, errRec := 0, fillF := 0,
    fillB := 0, freeDn := 0, freeUp := 0, rdF := 0, rdB := 0, wrDn := 0, wrUp := 0, stash := 0,
    bubbles := [0, 0, 0], errs := 0, errEntry := 0, traced := 0, live := Option.none, posted := 0, start := 0,
    was := [0, 0, 0] }

/-- A candidate of a graph query (R343): distance as FP32 bits, vertex, expanded. -/
structure Cand where
  dist : Nat
  id : Nat
  done : Bool
  deriving DecidableEq, Repr

/-- A round of a graph query in progress (R343): the vertex expanded (none for the entry points), its
neighbour list once read, the new vertices once known, the distances that have come back by place among them, the
forwarded requests that have not, and the faults met, as place, DETAIL and vertex. -/
structure Round where
  u : Option Nat
  list : Option (List Nat)
  fresh : Option (List Nat)
  dists : List (Nat × Nat)
  waiting : Nat
  faults : List (Nat × Nat × Nat)
  deriving DecidableEq, Repr

/-- A query slot of a graph search engine (R339, R343, R347). -/
structure Query where
  part : Nat
  tag : Tag
  core : Nat
  ctx : Nat
  launch : Option Nat
  packet : List Byte
  seq : Nat
  order : Nat
  arrived : Bool
  running : Bool
  fmt : Fmt
  dim : Nat
  deg : Nat
  nvert : Nat
  recBase : Nat
  recSize : Nat
  nbrOff : Nat
  qvec : List Nat
  visited : List Nat
  cands : List Cand
  round : Option Round
  ending : Option (Nat × Nat)
  written : Nat
  /-- A result entry could not be written. -/
  lost : Bool
  status : Nat
  detail : Nat
  deriving DecidableEq, Repr

/-- A request forwarded to another engine (R339): the query's engine and slot, and the vertex whose neighbour
list or distance is asked for, with its place in the round. -/
structure GReq where
  home : Nat
  slot : Nat
  vertex : Nat
  dist : Bool
  place : Nat
  deriving DecidableEq, Repr

/-- A graph search engine: packets accepted, its 64 slots, requests forwarded to it. -/
structure Gse where
  accepted : Nat
  slots : SMap (Option Query)
  requests : List GReq
  deriving DecidableEq, Repr

def Gse.reset : Gse := { accepted := 0, slots := [], requests := [] }

/-- A fabric packet (R411): its header's fields and data; where and when it came in, and the tag of the partition that its
binding named on arrival (R419). -/
structure FPacket where
  dst : Nat
  src : Nat
  dinc : Nat
  sinc : Nat
  kind : Nat
  route : Nat
  job : Nat
  pseq : Nat
  addr : Word
  rtag : Nat
  opw : Nat
  imm : BitVec 256
  data : List Byte
  vc : Nat
  port : Option Nat
  since : Nat
  bound : Option Tag := none
  deriving DecidableEq, Repr

/-- A flit (R407): 64 payload bytes and the control word. -/
structure Flit where
  payload : BitVec 512
  ctl : BitVec 32
  deriving DecidableEq, Repr

/-- A Tornel port (R407 to R410): packets queued by virtual channel, flits of the packet being sent, counts,
the replay buffer with how many of its flits are to be sent again, and the flits of packets being received. -/
structure Port where
  out : SMap (List FPacket)
  sending : List Flit
  sendVc : Nat
  sent : Nat
  sentOn : SMap Nat
  freedBy : SMap Nat
  replay : List Flit
  resend : Nat
  rcvd : Nat
  freed : SMap Nat
  bufs : SMap (List Flit)
  reports : Nat
  /-- When the last report was sent (R409). -/
  reportAt : Nat
  /-- After a flit that has been discarded: how many places of the link's count have passed since RCVD, modulo 256 (R408).
  (Log 126: DEDUCED) -/
  passed : Option Nat := none
  deriving DecidableEq, Repr

def Port.reset : Port :=
  { out := [], sending := [], sendVc := 0, sent := 0, sentOn := [], freedBy := [], replay := [], resend := 0,
    rcvd := 0, freed := [], bufs := [], reports := 0, reportAt := 0 }

/-- What a remote access of this module does when it is answered (R233, R330). -/
inductive RemoteWhat where
  | load (d : RData) (size : Nat)
  | store
  | posted
  | atomic (sd : SReg) (f : Fmt)
  | increment (part entry : Nat)
  deriving DecidableEq, Repr

/-- A remote access that has no answer yet (R233, R420); `parts` are the addresses of its packets still to be
answered, `got` what has come back of a load, by address, and `bad` a status other than performed. -/
structure Remote where
  what : RemoteWhat
  core : Nat
  ctx : Nat
  tag : Tag
  launch : Option Nat
  node : Nat
  ea : Word
  link : Word
  deadline : Nat
  parts : List Nat
  got : List (Nat × List Byte)
  bad : Nat
  /-- What the task's CYCLE stands on, which tells it from a later task of its context. -/
  born : Word
  deriving DecidableEq, Repr

/-- A shoot-down in progress (R372): its pages, and the cores that have not acknowledged it. -/
structure Shoot where
  value : Word
  cores : List Nat
  deriving DecidableEq, Repr

/-- The corrected errors of a unit since its last record: their count, the last address and the partition that it
belongs to (R432). (Log 93: DEDUCED) -/
structure Corrected where
  count : Nat
  addr : Word
  part : Nat
  deriving DecidableEq, Repr

def Corrected.zero : Corrected := { count := 0, addr := 0, part := 0 }

/-- An injection that has not reported (R434): unit, class and when it was asked for. (Log 94: DEDUCED) -/
structure Armed where
  kind : Nat
  index : Nat
  cls : Nat
  since : Nat
  /-- The last write of EI.MASK armed it, so that its bit is set there. -/
  last : Bool
  deriving DecidableEq, Repr

/-- An error record (R430), with the time and cycle in which it was made and its SEQ. (Log 141: DEDUCED) -/
structure ErrRec where
  time : Nat
  cycle : Nat
  cls : Nat
  sev : Nat
  inj : Bool
  kind : Nat
  index : Nat
  pmask : Nat
  addr : Nat
  detail : Nat
  seq : Nat
  deriving DecidableEq, Repr

/-- A line written in an interval (R439): where it lies, what it held, under which tag, and whether the undo log had room
for it. (Log 18: DESIGN CHOICE) -/
structure Undo where
  part : Nat
  pa : Nat
  data : LineBits
  tag : Tag
  logged : Bool := true
  deriving DecidableEq, Repr

/-- A posting to a request ring that waits for space (R374). -/
structure Posting where
  page : Nat
  die : Nat
  kind : Nat
  detail : Nat
  deriving DecidableEq, Repr

/-- Inputs and interleaving, as data: an event takes its turn, a core takes its turn, the host writes host
memory or device memory, time passes with nothing else, an element of a core, named by the kind and index of R274, takes an error
that its code cannot correct (a result-queue entry by 16 times its context plus its place), or the host programs the MSI-X
table. (Log 1: DESIGN CHOICE) -/
inductive Input where
  | event (i : Instr)
  | core (c : Nat)
  | hostStore (pasid : Nat) (addr : Nat) (bytes : List Byte)
  | deviceStore (pa : Nat) (bytes : List Byte)
  | elapse (ns : Nat)
  | elementError (core kind index : Nat)
  | msixProgram
  deriving DecidableEq, Repr

/-- One GN-96 module. Maps are keyed by the numbers that their comments name and hold what is not at its
reset value. -/
structure State where
  /-- The core and context that take the next bundle, and the slot that is executing. -/
  c : Nat
  x : Nat
  slot : Nat
  /-- The cycle in which the executing slot issues. -/
  now : Nat
  frame : Option Frame
  agenda : List Input
  /-- How many free values have been taken. -/
  fresh : Nat
  /-- Slots of parked tasks whose accesses wait for the wake (R312, R314), by 16 core + context. -/
  later : SMap (Option Frame)
  cores : SMap Core
  /-- Queue k of quad q at 16 q + k; quad barrier b of quad q at 16 q + b; die barrier b of die d at
  16 d + b. -/
  queues : SMap Queue
  quadBars : SMap Barrier
  dieBars : SMap Barrier
  dies : SMap Die
  /-- Lines that a die cache has replaced and whose stash copies are still to be given up (R289). -/
  evicted : List Nat
  /-- Bytes, tags of 64-byte lines and poisoned lines, by the addresses of Machine/Addr. -/
  mem : SMap Byte
  tags : SMap Tag
  poisoned : SMap Bool
  /-- Registers of BAR0, by offset (R351). -/
  regs : SMap Word
  tenancy : SMap Tenancy
  sweeper : Sweeper
  packets : List Packet
  launches : SMap (Option Launch)
  nextLaunch : Nat
  /-- MSI-X entries sent, oldest first (R362, R374, R429); the table is clear and sends nothing until the
  host programs it (R423, R425). -/
  msix : List Nat
  msixClear : Bool
  /-- The undo log of the current interval of every partition, oldest first (R439). -/
  undo : List Undo
  /-- Postings held for a full request ring, by partition (R374). -/
  held : SMap (List Posting)
  /-- Slices by quad; the partition that last took a turn on it; contexts saved at slice ends, at
  64 p + quad, and what a SAVE keeps of partition p's launches at 64 (64 + p) (R363, R399). -/
  slices : SMap (Option Slice)
  lastTurn : SMap Nat
  /-- The quads removed from PQ.QUADS.MASK that stay in a partition's use, as a mask (R363). -/
  heldQuads : SMap Word
  saved : SMap (Option Saved)
  /-- By quad, the partitions that share it in time, as its slice found them (R363). -/
  sharedBy : SMap (List Nat)
  /-- Policy tables as last read, by partition, and the queue served last at PRIO i with its count, by 4 times the partition
  plus i (R364). -/
  policy : SMap (List (Nat × Nat))
  served : SMap (Nat × Nat)
  rally : SMap Rally
  /-- Graph search engines by stack. -/
  gse : SMap Gse
  ports : SMap Port
  /-- Packets for this node, in order of arrival, and those it is to announce itself to (R418). -/
  arrived : List FPacket
  announces : List Nat
  /-- Posted-write sequences by node: the next to be sent, the next to be performed (R416). -/
  pseqOut : SMap Nat
  pseqIn : SMap Nat
  /-- Remote accesses by request tag, and the next tag. -/
  remotes : SMap (Option Remote)
  nextRtag : Nat
  shoots : SMap (Option Shoot)
  /-- Migrations that have started and not ended, by partition and record (R376, R377). -/
  moving : List (Nat × Nat)
  /-- Corrected errors by 256 kind + index (R432), and armed injections. -/
  corrections : SMap Corrected
  armed : List Armed
  /-- The records of the cycle in which one was last written to the ring (R433). -/
  recent : List ErrRec
  /-- How many checkpoint closes have been asked for while one runs (R438). -/
  ckptNext : SMap Nat
  /-- When the power controller last took its tick (R441). -/
  tickAt : Nat
  /-- When the last reset ended (R426). -/
  resetAt : Nat
  /-- Time on the reference clock in ns (R18), and how far the arithmetic clock is ahead of it: 1,000 times the cycles
  that have passed less the clock's MHz times the ns; the cycle that every core has reached. -/
  time : Nat
  frac : Nat
  front : Nat
  deriving DecidableEq, Repr

/-- The state of every task context, core and unit after cold reset (R423): nothing is listed, and the MSI-X table is clear.
(Log 1: DESIGN CHOICE; 4: DESIGN CHOICE) -/
def State.reset : State :=
  { c := 0, x := 0, slot := 0, now := 0, frame := none, agenda := [], fresh := 0, later := [], cores := [], queues := [],
    quadBars := [], dieBars := [], dies := [], evicted := [], mem := [], tags := [], poisoned := [], regs := [],
    tenancy := [], sweeper := .reset, packets := [], launches := [], nextLaunch := 0, msix := [], msixClear := true, undo := [],
    held := [], slices := [], lastTurn := [], heldQuads := [], saved := [], sharedBy := [], policy := [], served := [], rally := [], gse := [],
    ports := [], arrived := [], announces := [], pseqOut := [], pseqIn := [], remotes := [], nextRtag := 0,
    shoots := [], moving := [], corrections := [], armed := [], recent := [], ckptNext := [], tickAt := 0, resetAt := 0, time := 0,
    frac := 0, front := 0 }

end Sys2Proof.Machine
end

