-- ==== Sys2Proof/Machine/Addr.lean ====
section
/-! DEFINITION. One address space for every byte that the model holds: device physical memory as the spec
numbers it, and beside it host memory, cistern lines and the local stores at addresses of the model's own.
A 64-byte line has the number of its first address over 64. -/

namespace Sys2Proof.Machine

/-- Host memory by PASID and I/O virtual address (R367). -/
def hostAddr (pasid iova : Nat) : Nat := 2 ^ 80 + pasid * 2 ^ 64 + iova % 2 ^ 64

/-- A cistern page has no frame; its bytes stand under partition and virtual address (R301). -/
def cisternAddr (part va : Nat) : Nat := 2 ^ 104 + part * 2 ^ 56 + va % 2 ^ 56

/-- The local store of a core (R285). -/
def localAddr (core off : Nat) : Nat := 2 ^ 112 + core * 2 ^ 20 + off % 2 ^ 20

def isHost (a : Nat) : Bool := 2 ^ 80 ≤ a && a < 2 ^ 104
def isCistern (a : Nat) : Bool := 2 ^ 104 ≤ a && a < 2 ^ 112
def isLocal (a : Nat) : Bool := 2 ^ 112 ≤ a
def isDevice (a : Nat) : Bool := a < Config.physLimit

/-- Byte address a names memory that exists: device memory ends at 1,536 GiB (R442). (Log 107: DEDUCED) -/
def exists_ (a : Nat) : Bool := a < Config.physLimit || 2 ^ 80 ≤ a

/-- The stack and die of a device physical address (R442). -/
def stackOf (pa : Nat) : Nat := pa / 2 ^ 36 % 32
def dieOf (pa : Nat) : Nat := stackOf pa / 3

/-- The little-endian bytes of a number (R6). -/
def toBytes : Nat → Nat → List Byte
  | 0, _ => []
  | n + 1, v => BitVec.ofNat 8 v :: toBytes n (v / 256)

/-- The number that little-endian bytes stand for (R6). -/
def ofBytes : List Byte → Nat
  | [] => 0
  | b :: bs => b.toNat + 256 * ofBytes bs

/-- The low n bytes of a list, padded with zeros. -/
def takeBytes (n : Nat) (bs : List Byte) : List Byte := (bs ++ List.replicate n 0).take n

end Sys2Proof.Machine
end

