-- ==== Sys2Proof/Machine/Regs.lean ====
section
/-! DEFINITION. The registers of BAR0 (R351): where they lie, what they read after reset, which bits
software writes and how (R10), and the fields that other definitions read. -/

namespace Sys2Proof.Machine

/-- Bits [hi:lo] of a word. -/
def bits (w : Word) (hi lo : Nat) : Nat := w.toNat / 2 ^ lo % 2 ^ (hi + 1 - lo)

/-- The mask of bits [hi:lo]. -/
def maskBits (hi lo : Nat) : Word := BitVec.ofNat 64 ((2 ^ (hi + 1 - lo) - 1) * 2 ^ lo)

/-- A word with bits [hi:lo] replaced. -/
def putBits (w : Word) (hi lo v : Nat) : Word :=
  (w &&& ~~~ (maskBits hi lo)) ||| BitVec.ofNat 64 (v % 2 ^ (hi + 1 - lo) * 2 ^ lo)

def queueReg (q off : Nat) : Nat := 0x10_0000 + 0x100 * q + off
def partReg (p off : Nat) : Nat := 0x20_0000 + 0x1000 * p + off
def dcpReg (d p : Nat) : Nat := 0x40_0000 + 0x1_0000 * d + 8 * p
def fabricReg (off : Nat) : Nat := 0x60_0000 + off
def resetReg (off : Nat) : Nat := 0x70_0000 + off
def relReg (off : Nat) : Nat := 0x78_0000 + off

/-- How software's write acts on a register (R10): the RW bits, the W1C bits, and what becomes of a value
outside its field's range. -/
structure RegRule where
  rw : Word := 0
  w1c : Word := 0
  fix : Word → Word := id

/-- A field value above a limit is written as the limit. -/
def atMost (hi lo limit : Nat) (w : Word) : Word := if bits w hi lo > limit then putBits w hi lo limit else w

/-- A field value below a limit is written as the limit. -/
def atLeast (hi lo limit : Nat) (w : Word) : Word := if bits w hi lo < limit then putBits w hi lo limit else w

/-- The registers of a queue block (R352). -/
def queueRule (off : Nat) : Option RegRule :=
  match off with
  | 0x00 => some { rw := maskBits 63 6 }
  | 0x08 => some { rw := maskBits 10 0 ||| maskBits 32 12, fix := fun w => atLeast 3 0 4 w }
  | 0x10 => some {}
  | 0x18 => some {}
  | 0x20 => some { w1c := maskBits 3 0 }
  | 0x28 => some { rw := maskBits 33 0 }
  | 0x30 => some {}
  | _ => none

/-- The registers of a partition block below its rally window (R353, R371, R383, R398, R437). -/
def partRule (off : Nat) : Option RegRule :=
  match off with
  | 0x00 => some { rw := maskBits 63 0 }
  | 0x08 => some { rw := maskBits 22 0, fix := fun w => atMost 13 0 10000 (atLeast 13 0 1 (atLeast 21 14 1 w)) }
  | 0x10 => some { rw := maskBits 0 0 ||| maskBits 63 6 }
  | 0x18 => some { rw := maskBits 63 0 }
  | 0x20 => some { rw := maskBits 30 0 }
  | 0x28 => some { rw := maskBits 63 0 }
  | 0x30 => some { rw := maskBits 63 0 }
  | 0x38 => some { w1c := maskBits 0 0 }
  | 0x40 => some { rw := maskBits 0 0 ||| maskBits 56 16 }
  | 0x48 => some { rw := maskBits 20 0 }
  | 0x50 => some { rw := maskBits 3 0 ||| maskBits 56 6, fix := atMost 3 0 12 }
  | 0x58 => some { rw := maskBits 63 32 }
  | 0x60 => some { rw := maskBits 3 0 ||| maskBits 56 6, fix := atMost 3 0 12 }
  | 0x68 => some { rw := maskBits 63 32 }
  | 0x70 => some { rw := maskBits 56 20 }
  | 0x78 => some {}
  | 0x80 => some { rw := maskBits 43 0 }
  | 0x88 => some { w1c := maskBits 0 0 ||| maskBits 3 2 }
  | 0x90 => some { rw := maskBits 11 0 }
  | 0xA0 => some {}
  | 0xA8 => some { rw := maskBits 31 0 }
  | 0xB0 => some {}
  | 0xB8 => some {}
  | 0xC0 => some { rw := maskBits 56 16 }
  | 0xC8 => some { rw := maskBits 23 0 }
  | 0xD0 => some {}
  | 0xD8 => some { w1c := maskBits 3 2 ||| maskBits 13 12 }
  | 0xE0 => some {}
  | 0xE8 => some { rw := maskBits 0 0 ||| maskBits 56 16 }
  | 0xF0 => some { rw := maskBits 15 0 }
  | 0xF8 => some { w1c := maskBits 36 35 }
  | 0x100 => some {}
  | _ => none

/-- A class code of 3 in FN.CLS writes 0 (R421). -/
def fixClass (w : Word) : Word :=
  [0, 2, 4].foldl (fun w lo => if bits w (lo + 1) lo = 3 then putBits w (lo + 1) lo 0 else w) w

/-- An INTi of 993 or more marked valid is written as zero with its INTV bit (R414). -/
def fixRoute (w : Word) : Word :=
  (List.range 4).foldl (fun w i =>
    if bits w (48 + i) (48 + i) = 1 && bits w (17 + 10 * i) (8 + 10 * i) ≥ 993 then
      putBits (putBits w (17 + 10 * i) (8 + 10 * i) 0) (48 + i) (48 + i) 0
    else w) w

/-- The fabric block (R421), by offset from its base. (Log 125: DESIGN CHOICE) -/
def fabricRule (off : Nat) : Option RegRule :=
  if off % 8 ≠ 0 then none
  else if off = 0x00 then
    some { rw := maskBits 9 0, fix := fun w => if bits w 9 0 ≥ 993 then putBits w 9 0 1023 else w }
  else if off = 0x08 then some {}
  else if off = 0x10 then some { rw := maskBits 5 0, fix := fixClass }
  else if off = 0x18 then some { rw := maskBits 9 0, fix := fun w => atMost 9 0 1000 w }
  else if off = 0x20 || off = 0x28 then some {}
  else if 0x1000 ≤ off && off < 0x1800 then (if off % 0x40 < 0x10 then some {} else none)
  else if 0x8000 ≤ off && off < 0x8000 + 8 * 993 then
    some { rw := maskBits 4 0 ||| maskBits 56 8, fix := fixRoute }
  else if 0x1_0000 ≤ off && off < 0x1_0000 + 8 * 993 then some {}
  else if 0x2_0000 ≤ off && off < 0x2_8000 then some { rw := maskBits 16 0 }
  else if 0x3_0000 ≤ off && off < 0x3_0800 then some { rw := maskBits 22 0 }
  else none

/-- The reliability block with the power registers (R429, R441). -/
def relRule (off : Nat) : Option RegRule :=
  match off with
  | 0x00 => some { rw := maskBits 56 6 }
  | 0x08 => some { rw := maskBits 16 0 ||| maskBits 47 32, fix := atMost 3 0 10 }
  | 0x10 => some { rw := maskBits 63 32 }
  | 0x18 => some { w1c := maskBits 32 32 }
  | 0x20 => some { rw := maskBits 10 0 }
  | 0x28 => some { rw := maskBits 15 0 }
  | 0x40 => some { rw := maskBits 12 0, fix := fun w => atMost 12 0 4200 (atLeast 12 0 1000 w) }
  | 0x48 => some {}
  | 0x50 => some {}
  | _ => none

/-- The rally window (R333): every register is read-only. -/
def rallyRule (off : Nat) : Option RegRule := if off < 0x100 && off % 8 = 0 then some {} else none

/-- The rule of the register at a BAR0 offset (R351); none where no register lies. -/
def regRule (off : Nat) : Option RegRule :=
  if off % 8 ≠ 0 then none
  else if 0x10_0000 ≤ off && off < 0x10_0000 + 0x100 * 65 then queueRule ((off - 0x10_0000) % 0x100)
  else if 0x20_0000 ≤ off && off < 0x20_0000 + 0x1000 * 64 then
    let o := (off - 0x20_0000) % 0x1000
    if o < 0x800 then partRule o else rallyRule (o - 0x800)
  else if 0x40_0000 ≤ off && off < 0x40_0000 + 0x1_0000 * 8 then
    if (off - 0x40_0000) % 0x1_0000 < 8 * 64 then
      some { rw := maskBits 37 0 ||| maskBits 51 40,
             fix := fun w => atMost 37 16 2097152 (atMost 51 40 2048 w) }
    else none
  else if 0x60_0000 ≤ off && off < 0x70_0000 then fabricRule (off - 0x60_0000)
  else if 0x70_0000 ≤ off && off < 0x70_0028 then some {}
  else if 0x78_0000 ≤ off && off < 0x78_0058 then relRule (off - 0x78_0000)
  else none

/-- What a register reads after cold reset. FN.INC has no reset value in the spec; the model names 1.
(Log 4: DESIGN CHOICE) -/
def regReset (off : Nat) : Word :=
  if 0x10_0000 ≤ off && off < 0x10_0000 + 0x100 * 65 then (if (off - 0x10_0000) % 0x100 = 8 then 4 else 0)
  else if 0x20_0000 ≤ off && off < 0x20_0000 + 0x1000 * 64 then
    (if (off - 0x20_0000) % 0x1000 = 8 then 0x43E8 else 0)
  else if off = 0x60_0000 then 1023
  else if off = 0x60_0008 then 1
  else if off = 0x60_0018 then 50
  else if off = 0x78_0008 then 0x100_0000_0000
  else if off = 0x78_0040 then 4200
  else if off = 0x78_0048 then 0x960_0000
  else 0

/-- The stored value of a register. A difference from reset is listed, the value at reset is not. -/
def State.reg (s : State) (off : Nat) : Word := SMap.get 0 s.regs off ^^^ regReset off

def State.setReg (s : State) (off : Nat) (v : Word) : State :=
  { s with regs := SMap.set 0 s.regs off (v ^^^ regReset off) }

/-- Bits [hi:lo] of a register. -/
def State.field (s : State) (off hi lo : Nat) : Nat := bits (s.reg off) hi lo

def State.setField (s : State) (off hi lo v : Nat) : State := s.setReg off (putBits (s.reg off) hi lo v)

/-- A cold or warm reset is in progress until group 0 is READY: no block but the reset block responds, and notify
writes are ignored (R427). -/
def State.inReset (s : State) : Bool := s.field (resetReg 0x10) 0 0 = 0

/-- A counter field that adds n and saturates. -/
def State.count (s : State) (off hi lo n : Nat) : State :=
  s.setField off hi lo (min (2 ^ (hi + 1 - lo) - 1) (s.field off hi lo + n))

/-- The value that software's write leaves in a register (R10). -/
def RegRule.apply (r : RegRule) (old v : Word) : Word :=
  r.fix ((old &&& ~~~ r.rw &&& ~~~ (r.w1c &&& v)) ||| (v &&& r.rw))

/-- The tenancy of a partition (R382). -/
def State.ten (s : State) (p : Nat) : Tenancy := SMap.get Tenancy.reset s.tenancy p

def State.setTen (s : State) (p : Nat) (t : Tenancy) : State :=
  { s with tenancy := SMap.set Tenancy.reset s.tenancy p t }

/-- The partition and generation of a tag (R7). -/
def tagPart (t : Tag) : Nat := t.toNat / 1024
def tagGen (t : Tag) : Nat := t.toNat % 1024

/-- The tag (p, g). -/
def mkTag (p g : Nat) : Tag := BitVec.ofNat 16 (p * 1024 + g % 1024)

/-- The current tag (p, GEN[p]) of a partition. -/
def State.curTag (s : State) (p : Nat) : Tag := mkTag p (s.ten p).gen.toNat

/-- Land (R14, R390): the tag is its partition's current one and the partition is not closed. -/
def State.lands (s : State) (t : Tag) : Bool := t == s.curTag (tagPart t) && !(s.ten (tagPart t)).closed

/-- The tag rule of R379 for an agent under `t`, without a shared entry. -/
def State.readable (s : State) (t e : Tag) : Bool := t == e && s.lands t

/-- The tag rule of R379 through a shared entry of owner o: an agent under its partition's current tag reads what the owner
has written under its own, as long as the owner is open. -/
def State.readableShared (s : State) (t e : Tag) (o : Option Nat) : Bool :=
  s.readable t e ||
    match o with
    | some o => t == s.curTag (tagPart t) && e == s.curTag o && s.lands e
    | none => false

/-- A launch in progress. -/
def State.launch (s : State) (l : Nat) : Option Launch := SMap.get none s.launches l

def State.setLaunch (s : State) (l : Nat) (x : Option Launch) : State :=
  { s with launches := SMap.set none s.launches l x }

/-- Land failures are counted for the partition of the tag (R388). -/
def State.countDrop (s : State) (t : Tag) : State := s.count (partReg (tagPart t) 0xA8) 31 0 1

end Sys2Proof.Machine
end

