-- ==== Sys2Proof/Machine/Uses.lean ====
section
/-! DEFINITION. The registers that each instruction reads and writes (R131, R132, R263), trap points (R261)
and latencies (R265). -/

namespace Sys2Proof.Machine

/-- s1 to s63 and a0 to a31 are known to the scoreboard; s0 and the loop indices are not (R41, R131). -/
def scalarKey : SReg → List RegKey
  | .s n => if n = 0 then [] else [.s n.toNat]
  | .a n => [.a n.toNat]
  | .i _ => []

/-- p0 is neither a read that waits nor a write (R41). -/
def predKey (n : BitVec 4) : List RegKey := if n = 0 then [] else [.p n.toNat]

/-- v0 to v1535 alone are registers of the vector file (R40, R131, R132). -/
def vKey (n : Nat) : List RegKey := if n < 1536 then [.v n] else []

/-- A vector source: a register, or the result queue, which waits for every earlier push (R173). -/
def srcKey : VSrc → List RegKey
  | .v n => vKey n.toNat
  | .t _ => [.results]
  | .k _ _ _ => []

def dstKey : VDst → List RegKey
  | .v n => vKey n.toNat
  | .k _ => []
  | .none => []

def accKey (a : AccRef) : List RegKey :=
  match a.ax with
  | some n => [.a n.toNat]
  | none => []

def remoteKey : RData → List RegKey
  | .scalar r => scalarKey r
  | .vector n => vKey n.toNat

def latchKey : LatchDst → List RegKey
  | .plain ab _ => [.a ab.toNat]
  | .tile _ => []

/-- The scale operand of a scaled beat (R198). -/
def scaleKey (f : MFmt) (x : BitVec 4) : List RegKey := if mfmtScaled f then [.x x.toNat] else []

/-- The second register of a CAS (R227). -/
def casKey (op : AtomOp) (r : SReg) : List RegKey :=
  if op == .cas then
    match r with
    | .s n => [.s (n.toNat + 1)]
    | .a n => [.a (n.toNat + 1)]
    | .i _ => []
  else []

/-- The coordinate registers of a tile (R245). -/
def coordKeys (ac : BitVec 5) (n : BitVec 3) : List RegKey :=
  (List.range n.toNat).map fun d => .a (ac.toNat + d)

/-- p8 to p15, the implied destinations of LOOP.P (R140). -/
def stageKeys : List RegKey := (List.range 8).map fun n => .p (8 + n)

/-- The registers that an instruction reads, one entry for each field that names one (R132, R263). -/
def reads : Instr → List RegKey
  | .cNop _ => []
  | .br g _ => predKey g.pred
  | .brl g _ => predKey g.pred
  | .jmp g sa _ => predKey g.pred ++ scalarKey sa
  | .jmpl g sa _ => predKey g.pred ++ scalarKey sa
  | .ret g => predKey g.pred ++ [.s 63]
  | .loop g sa _ => predKey g.pred ++ scalarKey sa
  | .loopi g _ _ => predKey g.pred
  | .loopP g sa _ _ => predKey g.pred ++ scalarKey sa
  | .lbrk g => predKey g.pred
  | .lcont g => predKey g.pred
  | .ldelta g _ _ sa => predKey g.pred ++ scalarKey sa
  | .sync g _ _ => predKey g.pred
  | .safe g _ => predKey g.pred
  | .waitx g _ sa => predKey g.pred ++ scalarKey sa
  | .parkYield g => predKey g.pred
  | .parkTime g sa => predKey g.pred ++ scalarKey sa
  | .parkWord g sa sb => predKey g.pred ++ scalarKey sa ++ scalarKey sb
  | .parkQueue g _ => predKey g.pred
  | .tspawn g _ _ sa sb => predKey g.pred ++ scalarKey sa ++ scalarKey sb ++ [.a 0]
  | .texit g => predKey g.pred
  | .halt g _ => predKey g.pred
  | .barq g _ sa => predKey g.pred ++ scalarKey sa
  | .bard g _ sa => predKey g.pred ++ scalarKey sa
  | .bara g _ _ => predKey g.pred
  | .barw g _ _ => predKey g.pred
  | .pgwait g sa => predKey g.pred ++ scalarKey sa
  | .trap g _ => predKey g.pred
  | .eret g => predKey g.pred
  | .mfs g _ num => predKey g.pred ++ [.sys num.toNat]
  | .mts g _ sa => predKey g.pred ++ scalarKey sa
  | .geninc g _ sp => predKey g.pred ++ scalarKey sp
  | .genrd g _ sp => predKey g.pred ++ scalarKey sp
  | .sweep g sa _ _ => predKey g.pred ++ scalarKey sa
  | .ckpt g sp => predKey g.pred ++ scalarKey sp
  | .sNop _ => []
  | .add g _ sa sb => predKey g.pred ++ scalarKey sa ++ scalarKey sb
  | .sub g _ sa sb => predKey g.pred ++ scalarKey sa ++ scalarKey sb
  | .mul g _ sa sb => predKey g.pred ++ scalarKey sa ++ scalarKey sb
  | .mulhu g _ sa sb => predKey g.pred ++ scalarKey sa ++ scalarKey sb
  | .mulhs g _ sa sb => predKey g.pred ++ scalarKey sa ++ scalarKey sb
  | .divu g _ sa sb => predKey g.pred ++ scalarKey sa ++ scalarKey sb
  | .divs g _ sa sb => predKey g.pred ++ scalarKey sa ++ scalarKey sb
  | .remu g _ sa sb => predKey g.pred ++ scalarKey sa ++ scalarKey sb
  | .rems g _ sa sb => predKey g.pred ++ scalarKey sa ++ scalarKey sb
  | .and g _ sa sb => predKey g.pred ++ scalarKey sa ++ scalarKey sb
  | .or g _ sa sb => predKey g.pred ++ scalarKey sa ++ scalarKey sb
  | .xor g _ sa sb => predKey g.pred ++ scalarKey sa ++ scalarKey sb
  | .andn g _ sa sb => predKey g.pred ++ scalarKey sa ++ scalarKey sb
  | .shl g _ sa sb => predKey g.pred ++ scalarKey sa ++ scalarKey sb
  | .shr g _ sa sb => predKey g.pred ++ scalarKey sa ++ scalarKey sb
  | .sra g _ sa sb => predKey g.pred ++ scalarKey sa ++ scalarKey sb
  | .rol g _ sa sb => predKey g.pred ++ scalarKey sa ++ scalarKey sb
  | .min g _ sa sb => predKey g.pred ++ scalarKey sa ++ scalarKey sb
  | .max g _ sa sb => predKey g.pred ++ scalarKey sa ++ scalarKey sb
  | .minu g _ sa sb => predKey g.pred ++ scalarKey sa ++ scalarKey sb
  | .maxu g _ sa sb => predKey g.pred ++ scalarKey sa ++ scalarKey sb
  | .clz g _ sa => predKey g.pred ++ scalarKey sa
  | .ctz g _ sa => predKey g.pred ++ scalarKey sa
  | .popc g _ sa => predKey g.pred ++ scalarKey sa
  | .sext g _ sa _ => predKey g.pred ++ scalarKey sa
  | .zext g _ sa _ => predKey g.pred ++ scalarKey sa
  | .mov g _ sa => predKey g.pred ++ scalarKey sa
  | .addx g _ sa sb _ => predKey g.pred ++ scalarKey sa ++ scalarKey sb
  | .addi g _ sa _ => predKey g.pred ++ scalarKey sa
  | .andi g _ sa _ => predKey g.pred ++ scalarKey sa
  | .ori g _ sa _ => predKey g.pred ++ scalarKey sa
  | .xori g _ sa _ => predKey g.pred ++ scalarKey sa
  | .shli g _ sa _ => predKey g.pred ++ scalarKey sa
  | .shri g _ sa _ => predKey g.pred ++ scalarKey sa
  | .srai g _ sa _ => predKey g.pred ++ scalarKey sa
  | .li g _ _ => predKey g.pred
  | .lih g sd _ => predKey g.pred ++ scalarKey sd
  | .ceq g _ sa sb => predKey g.pred ++ scalarKey sa ++ scalarKey sb
  | .cne g _ sa sb => predKey g.pred ++ scalarKey sa ++ scalarKey sb
  | .clt g _ sa sb => predKey g.pred ++ scalarKey sa ++ scalarKey sb
  | .cle g _ sa sb => predKey g.pred ++ scalarKey sa ++ scalarKey sb
  | .cltu g _ sa sb => predKey g.pred ++ scalarKey sa ++ scalarKey sb
  | .cleu g _ sa sb => predKey g.pred ++ scalarKey sa ++ scalarKey sb
  | .ceqi g _ sa _ => predKey g.pred ++ scalarKey sa
  | .clti g _ sa _ => predKey g.pred ++ scalarKey sa
  | .cltui g _ sa _ => predKey g.pred ++ scalarKey sa
  | .sel g _ sa sb pn => predKey g.pred ++ scalarKey sa ++ scalarKey sb ++ predKey pn
  | .fadd g _ sa sb => predKey g.pred ++ scalarKey sa ++ scalarKey sb
  | .fmul g _ sa sb => predKey g.pred ++ scalarKey sa ++ scalarKey sb
  | .fmin g _ sa sb => predKey g.pred ++ scalarKey sa ++ scalarKey sb
  | .fmax g _ sa sb => predKey g.pred ++ scalarKey sa ++ scalarKey sb
  | .ftoi g _ sa => predKey g.pred ++ scalarKey sa
  | .itof g _ sa => predKey g.pred ++ scalarKey sa
  | .pNop _ => []
  | .pand g _ pa pb => predKey g.pred ++ predKey pa ++ predKey pb
  | .por g _ pa pb => predKey g.pred ++ predKey pa ++ predKey pb
  | .pxor g _ pa pb => predKey g.pred ++ predKey pa ++ predKey pb
  | .pandn g _ pa pb => predKey g.pred ++ predKey pa ++ predKey pb
  | .pnot g _ pa => predKey g.pred ++ predKey pa
  | .pseti g _ _ => predKey g.pred
  | .planes g _ pa _ => predKey g.pred ++ predKey pa
  | .pbcst g _ pa _ => predKey g.pred ++ predKey pa
  | .pany g _ pa => predKey g.pred ++ predKey pa
  | .pall g _ pa => predKey g.pred ++ predKey pa
  | .prot g _ pa _ => predKey g.pred ++ predKey pa
  | .xld g _ ab _ => predKey g.pred ++ [.a ab.toNat]
  | .xset g _ _ => predKey g.pred
  | .xmov g _ xa => predKey g.pred ++ [.x xa.toNat]
  | .qfmt g _ _ _ _ _ => predKey g.pred
  | .vNop _ => []
  | .vadd g _ _ _ va vb => predKey g.pred ++ srcKey va ++ srcKey vb
  | .vsub g _ _ _ va vb => predKey g.pred ++ srcKey va ++ srcKey vb
  | .vmul g _ _ _ va vb => predKey g.pred ++ srcKey va ++ srcKey vb
  | .vfma g _ _ _ va vb vc => predKey g.pred ++ srcKey va ++ srcKey vb ++ srcKey vc
  | .vfms g _ _ _ va vb vc => predKey g.pred ++ srcKey va ++ srcKey vb ++ srcKey vc
  | .vfnma g _ _ _ va vb vc => predKey g.pred ++ srcKey va ++ srcKey vb ++ srcKey vc
  | .vmin g _ _ _ va vb => predKey g.pred ++ srcKey va ++ srcKey vb
  | .vmax g _ _ _ va vb => predKey g.pred ++ srcKey va ++ srcKey vb
  | .vabs g _ _ _ va => predKey g.pred ++ srcKey va
  | .vneg g _ _ _ va => predKey g.pred ++ srcKey va
  | .vrcp g _ _ _ va => predKey g.pred ++ srcKey va
  | .vrsq g _ _ _ va => predKey g.pred ++ srcKey va
  | .vsqrt g _ _ _ va => predKey g.pred ++ srcKey va
  | .vexp2 g _ _ _ va => predKey g.pred ++ srcKey va
  | .vlog2 g _ _ _ va => predKey g.pred ++ srcKey va
  | .vcmpeq g _ _ _ va vb => predKey g.pred ++ srcKey va ++ srcKey vb
  | .vcmplt g _ _ _ va vb => predKey g.pred ++ srcKey va ++ srcKey vb
  | .vcmple g _ _ _ va vb => predKey g.pred ++ srcKey va ++ srcKey vb
  | .vcmpne g _ _ _ va vb => predKey g.pred ++ srcKey va ++ srcKey vb
  | .vclass g _ _ _ va _ => predKey g.pred ++ srcKey va
  | .vsel g _ _ _ va vb pc => predKey g.pred ++ srcKey va ++ srcKey vb ++ predKey pc
  | .vcvt g _ _ _ va _ _ _ => predKey g.pred ++ srcKey va
  | .vqnt g _ _ _ va vc _ _ _ => predKey g.pred ++ srcKey va ++ srcKey vc
  | .vcbdec g _ _ _ va _ => predKey g.pred ++ srcKey va
  | .vround g _ _ _ va => predKey g.pred ++ srcKey va
  | .viadd g _ _ _ va vb => predKey g.pred ++ srcKey va ++ srcKey vb
  | .visub g _ _ _ va vb => predKey g.pred ++ srcKey va ++ srcKey vb
  | .vimul g _ _ _ va vb => predKey g.pred ++ srcKey va ++ srcKey vb
  | .vimin g _ _ _ va vb => predKey g.pred ++ srcKey va ++ srcKey vb
  | .vimax g _ _ _ va vb => predKey g.pred ++ srcKey va ++ srcKey vb
  | .vand g _ _ _ va vb => predKey g.pred ++ srcKey va ++ srcKey vb
  | .vor g _ _ _ va vb => predKey g.pred ++ srcKey va ++ srcKey vb
  | .vxor g _ _ _ va vb => predKey g.pred ++ srcKey va ++ srcKey vb
  | .vshl g _ _ _ va vb => predKey g.pred ++ srcKey va ++ srcKey vb
  | .vshr g _ _ _ va vb => predKey g.pred ++ srcKey va ++ srcKey vb
  | .vsra g _ _ _ va vb => predKey g.pred ++ srcKey va ++ srcKey vb
  | .vicmpeq g _ _ _ va vb => predKey g.pred ++ srcKey va ++ srcKey vb
  | .vicmplt g _ _ _ va vb => predKey g.pred ++ srcKey va ++ srcKey vb
  | .viabs g _ _ _ va => predKey g.pred ++ srcKey va
  | .vpopc g _ _ _ va => predKey g.pred ++ srcKey va
  | .vmov g _ _ _ va => predKey g.pred ++ srcKey va
  | .vbcst g _ _ _ va _ => predKey g.pred ++ srcKey va
  | .vperm g _ _ _ va vb => predKey g.pred ++ srcKey va ++ srcKey vb
  | .vrotl g _ _ _ va _ => predKey g.pred ++ srcKey va
  | .vextr g _ _ _ va vb _ => predKey g.pred ++ srcKey va ++ srcKey vb
  | .vins g _ _ _ va vb _ => predKey g.pred ++ srcKey va ++ srcKey vb
  | .vzip g _ _ _ va vb _ => predKey g.pred ++ srcKey va ++ srcKey vb
  | .vunzip g _ _ _ va vb _ => predKey g.pred ++ srcKey va ++ srcKey vb
  | .viota g _ _ _ => predKey g.pred
  | .vcompr g _ _ _ va pc => predKey g.pred ++ srcKey va ++ predKey pc
  | .vexpnd g _ _ _ va pc => predKey g.pred ++ srcKey va ++ predKey pc
  | .vrsum g _ _ _ va pc => predKey g.pred ++ srcKey va ++ predKey pc
  | .vrmax g _ _ _ va pc => predKey g.pred ++ srcKey va ++ predKey pc
  | .vrmin g _ _ _ va pc => predKey g.pred ++ srcKey va ++ predKey pc
  | .vscan g _ _ _ va pc => predKey g.pred ++ srcKey va ++ predKey pc
  | .vdot g _ _ _ va vb pc => predKey g.pred ++ srcKey va ++ srcKey vb ++ predKey pc
  | .vargmx g _ _ _ va pc => predKey g.pred ++ srcKey va ++ predKey pc
  | .mNop _ => []
  | .mpush g _ vs _ => predKey g.pred ++ srcKey vs
  | .mpusht g _ _ _ => predKey g.pred
  | .mshift g f acc vs _ xa xb _ => predKey g.pred ++ accKey acc ++ srcKey vs ++ scaleKey f xa ++ scaleKey f xb
  | .mshiftl g f acc _ xa xb _ => predKey g.pred ++ accKey acc ++ scaleKey f xa ++ scaleKey f xb
  | .mshiftt g f acc _ _ xa xb _ => predKey g.pred ++ accKey acc ++ scaleKey f xa ++ scaleKey f xb
  | .mflip g => predKey g.pred
  | .mdrain g _ acc _ _ _ _ => predKey g.pred ++ accKey acc
  | .mzero g acc => predKey g.pred ++ accKey acc
  | .maddv g _ acc vs _ _ => predKey g.pred ++ accKey acc ++ srcKey vs
  | .mdrainz g _ acc _ _ _ _ => predKey g.pred ++ accKey acc
  | .lNop _ => []
  | .lds g _ _ _ ab sa _ => predKey g.pred ++ [.a ab.toNat] ++ scalarKey sa
  | .sts g _ sv ab sa _ => predKey g.pred ++ scalarKey sv ++ [.a ab.toNat] ++ scalarKey sa
  | .vld g _ _ ab sa _ => predKey g.pred ++ [.a ab.toNat] ++ scalarKey sa
  | .vst g _ vd ab sa _ => predKey g.pred ++ vKey vd.toNat ++ [.a ab.toNat] ++ scalarKey sa
  | .vlds g _ _ ab _ sa => predKey g.pred ++ [.a ab.toNat] ++ scalarKey sa
  | .vsts g _ vd ab _ sa => predKey g.pred ++ vKey vd.toNat ++ [.a ab.toNat] ++ scalarKey sa
  | .vldx g _ _ ab sa vx => predKey g.pred ++ [.a ab.toNat] ++ scalarKey sa ++ vKey vx.toNat
  | .vstx g _ vd ab sa vx => predKey g.pred ++ vKey vd.toNat ++ [.a ab.toNat] ++ scalarKey sa ++ vKey vx.toNat
  | .gathr g _ _ vx ab sa _ _ pr => predKey g.pred ++ vKey vx.toNat ++ [.a ab.toNat] ++ scalarKey sa ++ predKey pr
  | .atoml g op _ sd ab sa _ => predKey g.pred ++ scalarKey sd ++ casKey op sd ++ [.a ab.toNat] ++ scalarKey sa
  | .ldg g _ _ _ ab sa _ pr => predKey g.pred ++ [.a ab.toNat] ++ scalarKey sa ++ predKey pr
  | .stg g _ sv ab sa _ => predKey g.pred ++ scalarKey sv ++ [.a ab.toNat] ++ scalarKey sa
  | .vldg g _ _ ab sa _ pr => predKey g.pred ++ [.a ab.toNat] ++ scalarKey sa ++ predKey pr
  | .vstg g _ vd ab sa _ => predKey g.pred ++ vKey vd.toNat ++ [.a ab.toNat] ++ scalarKey sa
  | .atomg g op _ sd ab sa _ => predKey g.pred ++ scalarKey sd ++ casKey op sd ++ [.a ab.toNat] ++ scalarKey sa
  | .watom g op _ sd ab sa _ => predKey g.pred ++ scalarKey sd ++ casKey op sd ++ [.a ab.toNat] ++ scalarKey sa
  | .watomr g _ _ vd ab sa _ => predKey g.pred ++ vKey vd.toNat ++ [.a ab.toNat] ++ scalarKey sa
  | .pgreq g _ ab sa _ => predKey g.pred ++ [.a ab.toNat] ++ scalarKey sa
  | .cdisc g ab _ sa => predKey g.pred ++ [.a ab.toNat] ++ scalarKey sa
  | .cflush g _ ab _ sa => predKey g.pred ++ [.a ab.toNat] ++ scalarKey sa
  | .smap g _ ab _ sg sz => predKey g.pred ++ [.a ab.toNat] ++ scalarKey sg ++ scalarKey sz
  | .sunmap g _ => predKey g.pred
  | .sflush g _ => predKey g.pred
  | .sdisc g _ => predKey g.pred
  | .rldg g _ _ ab _ sa => predKey g.pred ++ [.a ab.toNat] ++ scalarKey sa
  | .rstg g _ d ab _ sa => predKey g.pred ++ remoteKey d ++ [.a ab.toNat] ++ scalarKey sa
  | .rstp g _ d ab _ sa => predKey g.pred ++ remoteKey d ++ [.a ab.toNat] ++ scalarKey sa
  | .ratom g op _ sd ab _ sa => predKey g.pred ++ scalarKey sd ++ casKey op sd ++ [.a ab.toNat] ++ scalarKey sa
  | .rfence g => predKey g.pred
  | .eNop _ => []
  | .pcopy g _ ab _ _ => predKey g.pred ++ [.a ab.toNat]
  | .pcopyt g _ ab _ _ => predKey g.pred ++ [.a ab.toNat]
  | .pcopyr g _ ab _ _ => predKey g.pred ++ [.a ab.toNat]
  | .pstat g _ _ => predKey g.pred
  | .pstatErr g _ _ => predKey g.pred
  | .pstatClr g _ _ => predKey g.pred
  | .tbind g _ _ ab sa ac n _ _ => predKey g.pred ++ [.a ab.toNat] ++ scalarKey sa ++ coordKeys ac n
  | .tfill g _ => predKey g.pred
  | .tdrain g _ => predKey g.pred
  | .tfree g _ => predKey g.pred
  | .tstate g _ _ => predKey g.pred
  | .vsend g sa ab _ _ _ => predKey g.pred ++ scalarKey sa ++ [.a ab.toNat]
  | .vlatch g t _ _ => predKey g.pred ++ latchKey t
  | .vstat g _ => predKey g.pred
  | .qpush g _ ab _ => predKey g.pred ++ [.a ab.toNat]
  | .qadv g _ _ => predKey g.pred
  | .qcfg g _ _ _ => predKey g.pred
  | .qrst g _ => predKey g.pred
  | .gsrch g ab _ _ => predKey g.pred ++ [.a ab.toNat]
  | .gstat g _ sa => predKey g.pred ++ scalarKey sa
  | .rlydone g _ => predKey g.pred
  | .rlyfree g _ => predKey g.pred
  | .rlystash g _ => predKey g.pred
  | .rlypop g _ => predKey g.pred
  | .cres g _ ab sa => predKey g.pred ++ [.a ab.toNat] ++ scalarKey sa
  | .crel g ab sa => predKey g.pred ++ [.a ab.toNat] ++ scalarKey sa
  | .split g _ => predKey g.pred
  | .splitOccupancyEnd _ => []
  | .bundleFetch _ => []
  | .resultDelivery _ => []
  | .loadDataReturn _ => []
  | .xldLanding _ => []
  | .contributionLanding _ => []
  | .pushLanding _ => []
  | .queueProducerLanding _ _ => []
  | .stallPark _ _ => []
  | .taskWake _ _ => []
  | .priorityPromotion _ _ => []
  | .turnEnd _ => []
  | .switchBegin _ => []
  | .switchEnd _ => []
  | .placementStart _ _ => []
  | .stashFill _ _ _ => []
  | .tileFillComplete _ _ => []
  | .tileDrainComplete _ _ => []
  | .pumpJobStart _ _ => []
  | .pumpJobComplete _ _ => []
  | .pumpJobHalt _ _ => []
  | .engineRangeJobComplete _ => []
  | .wellheadUpdate _ => []
  | .volleyDrive _ _ => []
  | .spillStallRelease _ => []
  | .heldPostingRelease _ => []
  | .notifyWrite _ _ _ => []
  | .packetFetch _ => []
  | .launch _ _ => []
  | .launchComplete _ => []
  | .copy _ _ => []
  | .rallyLoad _ _ => []
  | .gen _ _ => []
  | .barrier _ _ => []
  | .barrierConditionMet _ _ => []
  | .fence _ _ => []
  | .hostWordPoll _ => []
  | .sliceEnd _ => []
  | .sliceStart _ => []
  | .spacingOverrun _ _ _ => []
  | .contextSave _ => []
  | .save _ => []
  | .restore _ => []
  | .shootdown _ _ => []
  | .shootdownAck _ _ => []
  | .shootdownDone _ => []
  | .migrationStart _ _ => []
  | .migrationLineMove _ _ => []
  | .migrationFinish _ _ => []
  | .migrationDone _ _ => []
  | .sweepPassStart => []
  | .sweepElement _ => []
  | .sweepPassComplete => []
  | .rallyEntryStart _ => []
  | .rallyEntryComplete _ => []
  | .rallyIncrementTimeout _ => []
  | .gseQueryPacket _ => []
  | .gseRound _ _ => []
  | .gseForwardedRequest _ => []
  | .gseQueryComplete _ _ => []
  | .flitSend _ => []
  | .flitReceive _ _ _ => []
  | .reportTimer _ => []
  | .reportReceive _ _ _ => []
  | .fabricRead => []
  | .fabricWrite => []
  | .fabricPostedWrite => []
  | .fabricAtomic => []
  | .fabricResponse => []
  | .staleNotice => []
  | .announce => []
  | .announceSend _ => []
  | .rallyIncrement => []
  | .postedWriteGapTimeout _ => []
  | .escapeMove _ _ => []
  | .remoteTimeout _ => []
  | .portTrainingDone _ _ _ => []
  | .nodeIdWrite _ => []
  | .coldReset => []
  | .warmReset => []
  | .functionReset => []
  | .startGroupBegin _ => []
  | .unitReady _ _ => []
  | .correctedError _ _ _ _ => []
  | .correctedThreshold _ _ => []
  | .uncorrectableLineError _ _ => []
  | .tagParityError _ _ => []
  | .errorInject _ => []
  | .injectedReport _ _ _ _ _ => []
  | .ckptCloseDone _ => []
  | .rollback _ => []
  | .rollbackDone _ => []
  | .powerControlTick _ => []
  | .registerWrite _ _ => []
  | .tlbWalkComplete _ => []

/-- The registers that an instruction names or implies as destinations (R131, R263). (Log 15: DEDUCED) -/
def writes : Instr → List RegKey
  | .cNop _ => []
  | .br _ _ => []
  | .brl _ _ => [.s 63]
  | .jmp _ _ _ => []
  | .jmpl _ _ _ => [.s 63]
  | .ret _ => []
  | .loop _ _ _ => []
  | .loopi _ _ _ => []
  | .loopP _ _ _ _ => stageKeys
  | .lbrk _ => []
  | .lcont _ => []
  | .ldelta _ _ _ _ => []
  | .sync _ _ _ => []
  | .safe _ _ => []
  | .waitx _ _ _ => []
  | .parkYield _ => []
  | .parkTime _ _ => []
  | .parkWord _ _ _ => []
  | .parkQueue _ _ => []
  | .tspawn _ _ _ _ _ => []
  | .texit _ => []
  | .halt _ _ => []
  | .barq _ _ _ => []
  | .bard _ _ _ => []
  | .bara _ _ _ => []
  | .barw _ _ _ => []
  | .pgwait _ _ => []
  | .trap _ _ => []
  | .eret _ => []
  | .mfs _ sd _ => scalarKey sd
  | .mts _ num _ => [.sys num.toNat]
  | .geninc _ sd _ => scalarKey sd
  | .genrd _ sd _ => scalarKey sd
  | .sweep _ _ _ _ => []
  | .ckpt _ _ => []
  | .sNop _ => []
  | .add _ sd _ _ => scalarKey sd
  | .sub _ sd _ _ => scalarKey sd
  | .mul _ sd _ _ => scalarKey sd
  | .mulhu _ sd _ _ => scalarKey sd
  | .mulhs _ sd _ _ => scalarKey sd
  | .divu _ sd _ _ => scalarKey sd
  | .divs _ sd _ _ => scalarKey sd
  | .remu _ sd _ _ => scalarKey sd
  | .rems _ sd _ _ => scalarKey sd
  | .and _ sd _ _ => scalarKey sd
  | .or _ sd _ _ => scalarKey sd
  | .xor _ sd _ _ => scalarKey sd
  | .andn _ sd _ _ => scalarKey sd
  | .shl _ sd _ _ => scalarKey sd
  | .shr _ sd _ _ => scalarKey sd
  | .sra _ sd _ _ => scalarKey sd
  | .rol _ sd _ _ => scalarKey sd
  | .min _ sd _ _ => scalarKey sd
  | .max _ sd _ _ => scalarKey sd
  | .minu _ sd _ _ => scalarKey sd
  | .maxu _ sd _ _ => scalarKey sd
  | .clz _ sd _ => scalarKey sd
  | .ctz _ sd _ => scalarKey sd
  | .popc _ sd _ => scalarKey sd
  | .sext _ sd _ _ => scalarKey sd
  | .zext _ sd _ _ => scalarKey sd
  | .mov _ sd _ => scalarKey sd
  | .addx _ sd _ _ _ => scalarKey sd
  | .addi _ sd _ _ => scalarKey sd
  | .andi _ sd _ _ => scalarKey sd
  | .ori _ sd _ _ => scalarKey sd
  | .xori _ sd _ _ => scalarKey sd
  | .shli _ sd _ _ => scalarKey sd
  | .shri _ sd _ _ => scalarKey sd
  | .srai _ sd _ _ => scalarKey sd
  | .li _ sd _ => scalarKey sd
  | .lih _ sd _ => scalarKey sd
  | .ceq _ pd _ _ => predKey pd
  | .cne _ pd _ _ => predKey pd
  | .clt _ pd _ _ => predKey pd
  | .cle _ pd _ _ => predKey pd
  | .cltu _ pd _ _ => predKey pd
  | .cleu _ pd _ _ => predKey pd
  | .ceqi _ pd _ _ => predKey pd
  | .clti _ pd _ _ => predKey pd
  | .cltui _ pd _ _ => predKey pd
  | .sel _ sd _ _ _ => scalarKey sd
  | .fadd _ sd _ _ => scalarKey sd
  | .fmul _ sd _ _ => scalarKey sd
  | .fmin _ sd _ _ => scalarKey sd
  | .fmax _ sd _ _ => scalarKey sd
  | .ftoi _ sd _ => scalarKey sd
  | .itof _ sd _ => scalarKey sd
  | .pNop _ => []
  | .pand _ pd _ _ => predKey pd
  | .por _ pd _ _ => predKey pd
  | .pxor _ pd _ _ => predKey pd
  | .pandn _ pd _ _ => predKey pd
  | .pnot _ pd _ => predKey pd
  | .pseti _ pd _ => predKey pd
  | .planes _ pd _ _ => predKey pd
  | .pbcst _ pd _ _ => predKey pd
  | .pany _ pd _ => predKey pd
  | .pall _ pd _ => predKey pd
  | .prot _ pd _ _ => predKey pd
  | .xld _ xd _ _ => [.x xd.toNat]
  | .xset _ xd _ => [.x xd.toNat]
  | .xmov _ xd _ => [.x xd.toNat]
  | .qfmt _ k _ _ _ _ => [.sys (0x40 + k.toNat)]
  | .vNop _ => []
  | .vadd _ _ _ vd _ _ => dstKey vd
  | .vsub _ _ _ vd _ _ => dstKey vd
  | .vmul _ _ _ vd _ _ => dstKey vd
  | .vfma _ _ _ vd _ _ _ => dstKey vd
  | .vfms _ _ _ vd _ _ _ => dstKey vd
  | .vfnma _ _ _ vd _ _ _ => dstKey vd
  | .vmin _ _ _ vd _ _ => dstKey vd
  | .vmax _ _ _ vd _ _ => dstKey vd
  | .vabs _ _ _ vd _ => dstKey vd
  | .vneg _ _ _ vd _ => dstKey vd
  | .vrcp _ _ _ vd _ => dstKey vd
  | .vrsq _ _ _ vd _ => dstKey vd
  | .vsqrt _ _ _ vd _ => dstKey vd
  | .vexp2 _ _ _ vd _ => dstKey vd
  | .vlog2 _ _ _ vd _ => dstKey vd
  | .vcmpeq _ _ _ pd _ _ => predKey pd
  | .vcmplt _ _ _ pd _ _ => predKey pd
  | .vcmple _ _ _ pd _ _ => predKey pd
  | .vcmpne _ _ _ pd _ _ => predKey pd
  | .vclass _ _ _ pd _ _ => predKey pd
  | .vsel _ _ _ vd _ _ _ => dstKey vd
  | .vcvt _ _ _ vd _ _ _ _ => dstKey vd
  | .vqnt _ _ _ vd _ _ _ _ _ => dstKey vd
  | .vcbdec _ _ _ vd _ _ => dstKey vd
  | .vround _ _ _ vd _ => dstKey vd
  | .viadd _ _ _ vd _ _ => dstKey vd
  | .visub _ _ _ vd _ _ => dstKey vd
  | .vimul _ _ _ vd _ _ => dstKey vd
  | .vimin _ _ _ vd _ _ => dstKey vd
  | .vimax _ _ _ vd _ _ => dstKey vd
  | .vand _ _ _ vd _ _ => dstKey vd
  | .vor _ _ _ vd _ _ => dstKey vd
  | .vxor _ _ _ vd _ _ => dstKey vd
  | .vshl _ _ _ vd _ _ => dstKey vd
  | .vshr _ _ _ vd _ _ => dstKey vd
  | .vsra _ _ _ vd _ _ => dstKey vd
  | .vicmpeq _ _ _ pd _ _ => predKey pd
  | .vicmplt _ _ _ pd _ _ => predKey pd
  | .viabs _ _ _ vd _ => dstKey vd
  | .vpopc _ _ _ vd _ => dstKey vd
  | .vmov _ _ _ vd _ => dstKey vd
  | .vbcst _ _ _ vd _ _ => dstKey vd
  | .vperm _ _ _ vd _ _ => dstKey vd
  | .vrotl _ _ _ vd _ _ => dstKey vd
  | .vextr _ _ _ vd _ _ _ => dstKey vd
  | .vins _ _ _ vd _ _ _ => dstKey vd
  | .vzip _ _ _ vd _ _ _ => dstKey vd
  | .vunzip _ _ _ vd _ _ _ => dstKey vd
  | .viota _ _ _ vd => dstKey vd
  | .vcompr _ _ _ vd _ _ => dstKey vd
  | .vexpnd _ _ _ vd _ _ => dstKey vd
  | .vrsum _ _ _ vd _ _ => dstKey vd
  | .vrmax _ _ _ vd _ _ => dstKey vd
  | .vrmin _ _ _ vd _ _ => dstKey vd
  | .vscan _ _ _ vd _ _ => dstKey vd
  | .vdot _ _ _ vd _ _ _ => dstKey vd
  | .vargmx _ _ _ vd _ _ => dstKey vd
  | .mNop _ => []
  | .mpush _ _ _ _ => []
  | .mpusht _ _ _ _ => []
  | .mshift _ _ _ _ _ _ _ _ => []
  | .mshiftl _ _ _ _ _ _ _ => []
  | .mshiftt _ _ _ _ _ _ _ _ => []
  | .mflip _ => []
  | .mdrain _ _ _ vd _ _ _ => vKey vd.toNat
  | .mzero _ _ => []
  | .maddv _ _ _ _ _ _ => []
  | .mdrainz _ _ _ vd _ _ _ => vKey vd.toNat
  | .lNop _ => []
  | .lds _ _ _ sd _ _ _ => scalarKey sd
  | .sts _ _ _ _ _ _ => []
  | .vld _ _ vd _ _ _ => vKey vd.toNat
  | .vst _ _ _ _ _ _ => []
  | .vlds _ _ vd _ _ _ => vKey vd.toNat
  | .vsts _ _ _ _ _ _ => []
  | .vldx _ _ vd _ _ _ => vKey vd.toNat
  | .vstx _ _ _ _ _ _ => []
  | .gathr _ _ _ _ _ _ _ _ pr => predKey pr
  | .atoml _ op _ sd _ _ _ => scalarKey sd ++ casKey op sd
  | .ldg _ _ _ sd _ _ _ pr => scalarKey sd ++ predKey pr
  | .stg _ _ _ _ _ _ => []
  | .vldg _ _ vd _ _ _ pr => vKey vd.toNat ++ predKey pr
  | .vstg _ _ _ _ _ _ => []
  | .atomg _ op _ sd _ _ _ => scalarKey sd ++ casKey op sd
  | .watom _ op _ sd _ _ _ => scalarKey sd ++ casKey op sd
  | .watomr _ _ _ _ _ _ _ => []
  | .pgreq _ _ _ _ _ => []
  | .cdisc _ _ _ _ => []
  | .cflush _ _ _ _ _ => []
  | .smap _ _ _ _ _ _ => []
  | .sunmap _ _ => []
  | .sflush _ _ => []
  | .sdisc _ _ => []
  | .rldg _ _ d _ _ _ => remoteKey d
  | .rstg _ _ _ _ _ _ => []
  | .rstp _ _ _ _ _ _ => []
  | .ratom _ op _ sd _ _ _ => scalarKey sd ++ casKey op sd
  | .rfence _ => []
  | .eNop _ => []
  | .pcopy _ _ _ _ sd => scalarKey sd
  | .pcopyt _ _ _ _ sd => scalarKey sd
  | .pcopyr _ _ _ _ sd => scalarKey sd
  | .pstat _ _ sd => scalarKey sd
  | .pstatErr _ _ sd => scalarKey sd
  | .pstatClr _ _ sd => scalarKey sd
  | .tbind _ _ _ _ _ _ _ _ _ => []
  | .tfill _ _ => []
  | .tdrain _ _ => []
  | .tfree _ _ => []
  | .tstate _ _ sd => scalarKey sd
  | .vsend _ _ _ _ _ _ => []
  | .vlatch _ _ _ _ => []
  | .vstat _ sd => scalarKey sd
  | .qpush _ _ _ _ => []
  | .qadv _ _ _ => []
  | .qcfg _ _ _ _ => []
  | .qrst _ _ => []
  | .gsrch _ _ _ sd => scalarKey sd
  | .gstat _ sd _ => scalarKey sd
  | .rlydone _ _ => []
  | .rlyfree _ _ => []
  | .rlystash _ _ => []
  | .rlypop _ _ => []
  | .cres _ sd _ _ => scalarKey sd
  | .crel _ _ _ => []
  | .split _ _ => []
  | .splitOccupancyEnd _ => []
  | .bundleFetch _ => []
  | .resultDelivery _ => []
  | .loadDataReturn _ => []
  | .xldLanding _ => []
  | .contributionLanding _ => []
  | .pushLanding _ => []
  | .queueProducerLanding _ _ => []
  | .stallPark _ _ => []
  | .taskWake _ _ => []
  | .priorityPromotion _ _ => []
  | .turnEnd _ => []
  | .switchBegin _ => []
  | .switchEnd _ => []
  | .placementStart _ _ => []
  | .stashFill _ _ _ => []
  | .tileFillComplete _ _ => []
  | .tileDrainComplete _ _ => []
  | .pumpJobStart _ _ => []
  | .pumpJobComplete _ _ => []
  | .pumpJobHalt _ _ => []
  | .engineRangeJobComplete _ => []
  | .wellheadUpdate _ => []
  | .volleyDrive _ _ => []
  | .spillStallRelease _ => []
  | .heldPostingRelease _ => []
  | .notifyWrite _ _ _ => []
  | .packetFetch _ => []
  | .launch _ _ => []
  | .launchComplete _ => []
  | .copy _ _ => []
  | .rallyLoad _ _ => []
  | .gen _ _ => []
  | .barrier _ _ => []
  | .barrierConditionMet _ _ => []
  | .fence _ _ => []
  | .hostWordPoll _ => []
  | .sliceEnd _ => []
  | .sliceStart _ => []
  | .spacingOverrun _ _ _ => []
  | .contextSave _ => []
  | .save _ => []
  | .restore _ => []
  | .shootdown _ _ => []
  | .shootdownAck _ _ => []
  | .shootdownDone _ => []
  | .migrationStart _ _ => []
  | .migrationLineMove _ _ => []
  | .migrationFinish _ _ => []
  | .migrationDone _ _ => []
  | .sweepPassStart => []
  | .sweepElement _ => []
  | .sweepPassComplete => []
  | .rallyEntryStart _ => []
  | .rallyEntryComplete _ => []
  | .rallyIncrementTimeout _ => []
  | .gseQueryPacket _ => []
  | .gseRound _ _ => []
  | .gseForwardedRequest _ => []
  | .gseQueryComplete _ _ => []
  | .flitSend _ => []
  | .flitReceive _ _ _ => []
  | .reportTimer _ => []
  | .reportReceive _ _ _ => []
  | .fabricRead => []
  | .fabricWrite => []
  | .fabricPostedWrite => []
  | .fabricAtomic => []
  | .fabricResponse => []
  | .staleNotice => []
  | .announce => []
  | .announceSend _ => []
  | .rallyIncrement => []
  | .postedWriteGapTimeout _ => []
  | .escapeMove _ _ => []
  | .remoteTimeout _ => []
  | .portTrainingDone _ _ _ => []
  | .nodeIdWrite _ => []
  | .coldReset => []
  | .warmReset => []
  | .functionReset => []
  | .startGroupBegin _ => []
  | .unitReady _ _ => []
  | .correctedError _ _ _ _ => []
  | .correctedThreshold _ _ => []
  | .uncorrectableLineError _ _ => []
  | .tagParityError _ _ => []
  | .errorInject _ => []
  | .injectedReport _ _ _ _ _ => []
  | .ckptCloseDone _ => []
  | .rollback _ => []
  | .rollbackDone _ => []
  | .powerControlTick _ => []
  | .registerWrite _ _ => []
  | .tlbWalkComplete _ => []

/-- The queue of a slot operation: 0 C+S+P, 1 V0+V1, 2 M, 3 L+E (R259). -/
def queueOf (slot : Nat) : Nat :=
  if slot < 3 then 0 else if slot < 5 then 1 else if slot = 5 then 2 else 3

/-- The fixed latency of a result (R265); a memory result has its own latency. -/
def latency : Instr → Nat
  | .cNop _ => 1
  | .br _ _ => 1
  | .brl _ _ => 1
  | .jmp _ _ _ => 1
  | .jmpl _ _ _ => 1
  | .ret _ => 1
  | .loop _ _ _ => 1
  | .loopi _ _ _ => 1
  | .loopP _ _ _ _ => 1
  | .lbrk _ => 1
  | .lcont _ => 1
  | .ldelta _ _ _ _ => 1
  | .sync _ _ _ => 1
  | .safe _ _ => 1
  | .waitx _ _ _ => 1
  | .parkYield _ => 1
  | .parkTime _ _ => 1
  | .parkWord _ _ _ => 1
  | .parkQueue _ _ => 1
  | .tspawn _ _ _ _ _ => 1
  | .texit _ => 1
  | .halt _ _ => 1
  | .barq _ _ _ => 1
  | .bard _ _ _ => 1
  | .bara _ _ _ => 1
  | .barw _ _ _ => 1
  | .pgwait _ _ => 1
  | .trap _ _ => 1
  | .eret _ => 1
  | .mfs _ _ _ => 1
  | .mts _ _ _ => 1
  | .geninc _ _ _ => 1
  | .genrd _ _ _ => 1
  | .sweep _ _ _ _ => 1
  | .ckpt _ _ => 1
  | .sNop _ => 1
  | .add _ _ _ _ => 1
  | .sub _ _ _ _ => 1
  | .mul _ _ _ _ => 3
  | .mulhu _ _ _ _ => 3
  | .mulhs _ _ _ _ => 3
  | .divu _ _ _ _ => 18
  | .divs _ _ _ _ => 18
  | .remu _ _ _ _ => 18
  | .rems _ _ _ _ => 18
  | .and _ _ _ _ => 1
  | .or _ _ _ _ => 1
  | .xor _ _ _ _ => 1
  | .andn _ _ _ _ => 1
  | .shl _ _ _ _ => 1
  | .shr _ _ _ _ => 1
  | .sra _ _ _ _ => 1
  | .rol _ _ _ _ => 1
  | .min _ _ _ _ => 1
  | .max _ _ _ _ => 1
  | .minu _ _ _ _ => 1
  | .maxu _ _ _ _ => 1
  | .clz _ _ _ => 1
  | .ctz _ _ _ => 1
  | .popc _ _ _ => 1
  | .sext _ _ _ _ => 1
  | .zext _ _ _ _ => 1
  | .mov _ _ _ => 1
  | .addx _ _ _ _ _ => 1
  | .addi _ _ _ _ => 1
  | .andi _ _ _ _ => 1
  | .ori _ _ _ _ => 1
  | .xori _ _ _ _ => 1
  | .shli _ _ _ _ => 1
  | .shri _ _ _ _ => 1
  | .srai _ _ _ _ => 1
  | .li _ _ _ => 1
  | .lih _ _ _ => 1
  | .ceq _ _ _ _ => 1
  | .cne _ _ _ _ => 1
  | .clt _ _ _ _ => 1
  | .cle _ _ _ _ => 1
  | .cltu _ _ _ _ => 1
  | .cleu _ _ _ _ => 1
  | .ceqi _ _ _ _ => 1
  | .clti _ _ _ _ => 1
  | .cltui _ _ _ _ => 1
  | .sel _ _ _ _ _ => 1
  | .fadd _ _ _ _ => 4
  | .fmul _ _ _ _ => 4
  | .fmin _ _ _ _ => 4
  | .fmax _ _ _ _ => 4
  | .ftoi _ _ _ => 4
  | .itof _ _ _ => 4
  | .pNop _ => 1
  | .pand _ _ _ _ => 1
  | .por _ _ _ _ => 1
  | .pxor _ _ _ _ => 1
  | .pandn _ _ _ _ => 1
  | .pnot _ _ _ => 1
  | .pseti _ _ _ => 1
  | .planes _ _ _ _ => 1
  | .pbcst _ _ _ _ => 1
  | .pany _ _ _ => 1
  | .pall _ _ _ => 1
  | .prot _ _ _ _ => 1
  | .xld _ _ _ _ => 1
  | .xset _ _ _ => 1
  | .xmov _ _ _ => 1
  | .qfmt _ _ _ _ _ _ => 1
  | .vNop _ => 4
  | .vadd _ _ _ _ _ _ => 4
  | .vsub _ _ _ _ _ _ => 4
  | .vmul _ _ _ _ _ _ => 4
  | .vfma _ _ _ _ _ _ _ => 4
  | .vfms _ _ _ _ _ _ _ => 4
  | .vfnma _ _ _ _ _ _ _ => 4
  | .vmin _ _ _ _ _ _ => 4
  | .vmax _ _ _ _ _ _ => 4
  | .vabs _ _ _ _ _ => 4
  | .vneg _ _ _ _ _ => 4
  | .vrcp _ _ _ _ _ => 8
  | .vrsq _ _ _ _ _ => 8
  | .vsqrt _ _ _ _ _ => 8
  | .vexp2 _ _ _ _ _ => 8
  | .vlog2 _ _ _ _ _ => 8
  | .vcmpeq _ _ _ _ _ _ => 4
  | .vcmplt _ _ _ _ _ _ => 4
  | .vcmple _ _ _ _ _ _ => 4
  | .vcmpne _ _ _ _ _ _ => 4
  | .vclass _ _ _ _ _ _ => 4
  | .vsel _ _ _ _ _ _ _ => 4
  | .vcvt _ _ _ _ _ _ _ _ => 4
  | .vqnt _ _ _ _ _ _ _ _ _ => 4
  | .vcbdec _ _ _ _ _ _ => 4
  | .vround _ _ _ _ _ => 4
  | .viadd _ _ _ _ _ _ => 4
  | .visub _ _ _ _ _ _ => 4
  | .vimul _ _ _ _ _ _ => 4
  | .vimin _ _ _ _ _ _ => 4
  | .vimax _ _ _ _ _ _ => 4
  | .vand _ _ _ _ _ _ => 4
  | .vor _ _ _ _ _ _ => 4
  | .vxor _ _ _ _ _ _ => 4
  | .vshl _ _ _ _ _ _ => 4
  | .vshr _ _ _ _ _ _ => 4
  | .vsra _ _ _ _ _ _ => 4
  | .vicmpeq _ _ _ _ _ _ => 4
  | .vicmplt _ _ _ _ _ _ => 4
  | .viabs _ _ _ _ _ => 4
  | .vpopc _ _ _ _ _ => 4
  | .vmov _ _ _ _ _ => 4
  | .vbcst _ _ _ _ _ _ => 4
  | .vperm _ _ _ _ _ _ => 4
  | .vrotl _ _ _ _ _ _ => 4
  | .vextr _ _ _ _ _ _ _ => 4
  | .vins _ _ _ _ _ _ _ => 4
  | .vzip _ _ _ _ _ _ _ => 4
  | .vunzip _ _ _ _ _ _ _ => 4
  | .viota _ _ _ _ => 4
  | .vcompr _ _ _ _ _ _ => 4
  | .vexpnd _ _ _ _ _ _ => 4
  | .vrsum _ _ _ _ _ _ => 8
  | .vrmax _ _ _ _ _ _ => 8
  | .vrmin _ _ _ _ _ _ => 8
  | .vscan _ _ _ _ _ _ => 8
  | .vdot _ _ _ _ _ _ _ => 8
  | .vargmx _ _ _ _ _ _ => 8
  | .mNop _ => 1
  | .mpush _ _ _ _ => 1
  | .mpusht _ _ _ _ => 1
  | .mshift _ _ _ _ _ _ _ _ => 1
  | .mshiftl _ _ _ _ _ _ _ => 1
  | .mshiftt _ _ _ _ _ _ _ _ => 1
  | .mflip _ => 1
  | .mdrain _ _ _ _ _ _ _ => 8
  | .mzero _ _ => 1
  | .maddv _ _ _ _ _ _ => 1
  | .mdrainz _ _ _ _ _ _ _ => 8
  | .lNop _ => 6
  | .lds _ _ _ _ _ _ _ => 6
  | .sts _ _ _ _ _ _ => 6
  | .vld _ _ _ _ _ _ => 6
  | .vst _ _ _ _ _ _ => 6
  | .vlds _ _ _ _ _ _ => 6
  | .vsts _ _ _ _ _ _ => 6
  | .vldx _ _ _ _ _ _ => 6
  | .vstx _ _ _ _ _ _ => 6
  | .gathr _ _ _ _ _ _ _ _ _ => 6
  | .atoml _ _ _ _ _ _ _ => 8
  | .ldg _ _ _ _ _ _ _ _ => 1
  | .stg _ _ _ _ _ _ => 6
  | .vldg _ _ _ _ _ _ _ => 1
  | .vstg _ _ _ _ _ _ => 6
  | .atomg _ _ _ _ _ _ _ => 1
  | .watom _ _ _ _ _ _ _ => 1
  | .watomr _ _ _ _ _ _ _ => 1
  | .pgreq _ _ _ _ _ => 6
  | .cdisc _ _ _ _ => 6
  | .cflush _ _ _ _ _ => 6
  | .smap _ _ _ _ _ _ => 6
  | .sunmap _ _ => 6
  | .sflush _ _ => 6
  | .sdisc _ _ => 6
  | .rldg _ _ _ _ _ _ => 6
  | .rstg _ _ _ _ _ _ => 6
  | .rstp _ _ _ _ _ _ => 6
  | .ratom _ _ _ _ _ _ _ => 6
  | .rfence _ => 6
  | .eNop _ => 2
  | .pcopy _ _ _ _ _ => 2
  | .pcopyt _ _ _ _ _ => 2
  | .pcopyr _ _ _ _ _ => 2
  | .pstat _ _ _ => 2
  | .pstatErr _ _ _ => 2
  | .pstatClr _ _ _ => 2
  | .tbind _ _ _ _ _ _ _ _ _ => 2
  | .tfill _ _ => 2
  | .tdrain _ _ => 2
  | .tfree _ _ => 2
  | .tstate _ _ _ => 2
  | .vsend _ _ _ _ _ _ => 2
  | .vlatch _ _ _ _ => 2
  | .vstat _ _ => 2
  | .qpush _ _ _ _ => 2
  | .qadv _ _ _ => 2
  | .qcfg _ _ _ _ => 2
  | .qrst _ _ => 2
  | .gsrch _ _ _ _ => 2
  | .gstat _ _ _ => 2
  | .rlydone _ _ => 2
  | .rlyfree _ _ => 2
  | .rlystash _ _ => 2
  | .rlypop _ _ => 2
  | .cres _ _ _ _ => 2
  | .crel _ _ _ => 2
  | .split _ _ => 2
  | .splitOccupancyEnd _ => 0
  | .bundleFetch _ => 0
  | .resultDelivery _ => 0
  | .loadDataReturn _ => 0
  | .xldLanding _ => 0
  | .contributionLanding _ => 0
  | .pushLanding _ => 0
  | .queueProducerLanding _ _ => 0
  | .stallPark _ _ => 0
  | .taskWake _ _ => 0
  | .priorityPromotion _ _ => 0
  | .turnEnd _ => 0
  | .switchBegin _ => 0
  | .switchEnd _ => 0
  | .placementStart _ _ => 0
  | .stashFill _ _ _ => 0
  | .tileFillComplete _ _ => 0
  | .tileDrainComplete _ _ => 0
  | .pumpJobStart _ _ => 0
  | .pumpJobComplete _ _ => 0
  | .pumpJobHalt _ _ => 0
  | .engineRangeJobComplete _ => 0
  | .wellheadUpdate _ => 0
  | .volleyDrive _ _ => 0
  | .spillStallRelease _ => 0
  | .heldPostingRelease _ => 0
  | .notifyWrite _ _ _ => 0
  | .packetFetch _ => 0
  | .launch _ _ => 0
  | .launchComplete _ => 0
  | .copy _ _ => 0
  | .rallyLoad _ _ => 0
  | .gen _ _ => 0
  | .barrier _ _ => 0
  | .barrierConditionMet _ _ => 0
  | .fence _ _ => 0
  | .hostWordPoll _ => 0
  | .sliceEnd _ => 0
  | .sliceStart _ => 0
  | .spacingOverrun _ _ _ => 0
  | .contextSave _ => 0
  | .save _ => 0
  | .restore _ => 0
  | .shootdown _ _ => 0
  | .shootdownAck _ _ => 0
  | .shootdownDone _ => 0
  | .migrationStart _ _ => 0
  | .migrationLineMove _ _ => 0
  | .migrationFinish _ _ => 0
  | .migrationDone _ _ => 0
  | .sweepPassStart => 0
  | .sweepElement _ => 0
  | .sweepPassComplete => 0
  | .rallyEntryStart _ => 0
  | .rallyEntryComplete _ => 0
  | .rallyIncrementTimeout _ => 0
  | .gseQueryPacket _ => 0
  | .gseRound _ _ => 0
  | .gseForwardedRequest _ => 0
  | .gseQueryComplete _ _ => 0
  | .flitSend _ => 0
  | .flitReceive _ _ _ => 0
  | .reportTimer _ => 0
  | .reportReceive _ _ _ => 0
  | .fabricRead => 0
  | .fabricWrite => 0
  | .fabricPostedWrite => 0
  | .fabricAtomic => 0
  | .fabricResponse => 0
  | .staleNotice => 0
  | .announce => 0
  | .announceSend _ => 0
  | .rallyIncrement => 0
  | .postedWriteGapTimeout _ => 0
  | .escapeMove _ _ => 0
  | .remoteTimeout _ => 0
  | .portTrainingDone _ _ _ => 0
  | .nodeIdWrite _ => 0
  | .coldReset => 0
  | .warmReset => 0
  | .functionReset => 0
  | .startGroupBegin _ => 0
  | .unitReady _ _ => 0
  | .correctedError _ _ _ _ => 0
  | .correctedThreshold _ _ => 0
  | .uncorrectableLineError _ _ => 0
  | .tagParityError _ _ => 0
  | .errorInject _ => 0
  | .injectedReport _ _ _ _ _ => 0
  | .ckptCloseDone _ => 0
  | .rollback _ => 0
  | .rollbackDone _ => 0
  | .powerControlTick _ => 0
  | .registerWrite _ _ => 0
  | .tlbWalkComplete _ => 0

/-- A NOP of any slot: no effect, and its guard is ignored (R120). -/
def isNop : Instr → Bool
  | .cNop _ => true
  | .sNop _ => true
  | .pNop _ => true
  | .vNop _ => true
  | .mNop _ => true
  | .lNop _ => true
  | .eNop _ => true
  | _ => false

/-- A V-slot operation that names a queue as source or destination (R261). -/
def namesQueue (srcs : List VSrc) (dst : VDst) : Bool :=
  (match dst with | .k _ => true | _ => false) || srcs.any fun v => match v with | .k _ _ _ => true | _ => false

/-- The vector operands of a V-slot operation. -/
def vOperands : Instr → List VSrc × VDst
  | .vNop _ => ([], .none)
  | .vadd _ _ _ vd va vb => ([va, vb], vd)
  | .vsub _ _ _ vd va vb => ([va, vb], vd)
  | .vmul _ _ _ vd va vb => ([va, vb], vd)
  | .vfma _ _ _ vd va vb vc => ([va, vb, vc], vd)
  | .vfms _ _ _ vd va vb vc => ([va, vb, vc], vd)
  | .vfnma _ _ _ vd va vb vc => ([va, vb, vc], vd)
  | .vmin _ _ _ vd va vb => ([va, vb], vd)
  | .vmax _ _ _ vd va vb => ([va, vb], vd)
  | .vabs _ _ _ vd va => ([va], vd)
  | .vneg _ _ _ vd va => ([va], vd)
  | .vrcp _ _ _ vd va => ([va], vd)
  | .vrsq _ _ _ vd va => ([va], vd)
  | .vsqrt _ _ _ vd va => ([va], vd)
  | .vexp2 _ _ _ vd va => ([va], vd)
  | .vlog2 _ _ _ vd va => ([va], vd)
  | .vcmpeq _ _ _ _ va vb => ([va, vb], .none)
  | .vcmplt _ _ _ _ va vb => ([va, vb], .none)
  | .vcmple _ _ _ _ va vb => ([va, vb], .none)
  | .vcmpne _ _ _ _ va vb => ([va, vb], .none)
  | .vclass _ _ _ _ va _ => ([va], .none)
  | .vsel _ _ _ vd va vb _ => ([va, vb], vd)
  | .vcvt _ _ _ vd va _ _ _ => ([va], vd)
  | .vqnt _ _ _ vd va vc _ _ _ => ([va, vc], vd)
  | .vcbdec _ _ _ vd va _ => ([va], vd)
  | .vround _ _ _ vd va => ([va], vd)
  | .viadd _ _ _ vd va vb => ([va, vb], vd)
  | .visub _ _ _ vd va vb => ([va, vb], vd)
  | .vimul _ _ _ vd va vb => ([va, vb], vd)
  | .vimin _ _ _ vd va vb => ([va, vb], vd)
  | .vimax _ _ _ vd va vb => ([va, vb], vd)
  | .vand _ _ _ vd va vb => ([va, vb], vd)
  | .vor _ _ _ vd va vb => ([va, vb], vd)
  | .vxor _ _ _ vd va vb => ([va, vb], vd)
  | .vshl _ _ _ vd va vb => ([va, vb], vd)
  | .vshr _ _ _ vd va vb => ([va, vb], vd)
  | .vsra _ _ _ vd va vb => ([va, vb], vd)
  | .vicmpeq _ _ _ _ va vb => ([va, vb], .none)
  | .vicmplt _ _ _ _ va vb => ([va, vb], .none)
  | .viabs _ _ _ vd va => ([va], vd)
  | .vpopc _ _ _ vd va => ([va], vd)
  | .vmov _ _ _ vd va => ([va], vd)
  | .vbcst _ _ _ vd va _ => ([va], vd)
  | .vperm _ _ _ vd va vb => ([va, vb], vd)
  | .vrotl _ _ _ vd va _ => ([va], vd)
  | .vextr _ _ _ vd va vb _ => ([va, vb], vd)
  | .vins _ _ _ vd va vb _ => ([va, vb], vd)
  | .vzip _ _ _ vd va vb _ => ([va, vb], vd)
  | .vunzip _ _ _ vd va vb _ => ([va, vb], vd)
  | .viota _ _ _ vd => ([], vd)
  | .vcompr _ _ _ vd va _ => ([va], vd)
  | .vexpnd _ _ _ vd va _ => ([va], vd)
  | .vrsum _ _ _ vd va _ => ([va], vd)
  | .vrmax _ _ _ vd va _ => ([va], vd)
  | .vrmin _ _ _ vd va _ => ([va], vd)
  | .vscan _ _ _ vd va _ => ([va], vd)
  | .vdot _ _ _ vd va vb _ => ([va, vb], vd)
  | .vargmx _ _ _ vd va _ => ([va], vd)
  | _ => ([], .none)

/-- The M-slot operations that are trap points: those with AXE or RX, MPUSHT and MSHIFTT (R261). -/
def mTraps : Instr → Bool
  | .mpush _ _ _ row => row == .i0
  | .mpusht _ _ _ _ => true
  | .mshift _ _ acc _ row _ _ _ => acc.ax.isSome || row == .i0
  | .mshiftl _ _ acc row _ _ _ => acc.ax.isSome || row == .i0
  | .mshiftt _ _ _ _ _ _ _ _ => true
  | .mdrain _ _ acc _ row _ _ => acc.ax.isSome || row == .i0
  | .mzero _ acc => acc.ax.isSome
  | .maddv _ _ acc _ row _ => acc.ax.isSome || row == .i0
  | .mdrainz _ _ acc _ row _ _ => acc.ax.isSome || row == .i0
  | _ => false

/-- The trap points of R261. -/
def trapPoint (slot : Nat) (i : Instr) : Bool :=
  if isNop i then false
  else if slot = 1 then false
  else if slot = 3 || slot = 4 then namesQueue (vOperands i).1 (vOperands i).2
  else if slot = 5 then mTraps i
  else true

/-- A V-slot operation that writes a queue (R58). -/
def writesQueue (slot : Nat) (i : Instr) : Bool :=
  (slot = 3 || slot = 4) && match (vOperands i).2 with | .k _ => true | _ => false

/-- A slot operation pushes onto the result queue (R50, R52): a V slot's does. -/
def pushes (slot : Nat) (i : Instr) : Bool := (slot = 3 || slot = 4) && !isNop i

/-- The destinations that the scoreboard holds until they are delivered (R263): an XLD's is exposed (R191, R264),
and fetch places the stage predicates of a LOOP.P (R140, R268); a push holds the result queue (R173). -/
def delivers (slot : Nat) (i : Instr) : List RegKey :=
  (match i with
    | .xld _ _ _ _ => []
    | .loopP _ _ _ _ => []
    | _ => writes i) ++ if pushes slot i then [.results] else []

/-- A register that the tasks of a core share. -/
def RegKey.shared : RegKey → Bool
  | .v _ => true
  | .x _ => true
  | .row _ => true
  | _ => false

/-- The scoreboard entry of a register as context x names it. -/
def boardOf (b : List Board) (x : Nat) (k : RegKey) : Board :=
  match b.find? fun e => e.key == k && (e.ctx == x || k.shared) with
  | some e => e
  | none => { key := k, ctx := x, deliver := 0, lastRead := 0 }

/-- The scoreboard with the entry of a register replaced; entries long past are dropped with it. -/
def putBoard (b : List Board) (e : Board) : List Board :=
  e :: b.filter fun o => !(o.key == e.key && (o.ctx == e.ctx || e.key.shared))

/-- The guard of a slot operation; an event has none and reads as unguarded. -/
def guardOf : Instr → Guard
  | .cNop g => g
  | .br g _ => g
  | .brl g _ => g
  | .jmp g _ _ => g
  | .jmpl g _ _ => g
  | .ret g => g
  | .loop g _ _ => g
  | .loopi g _ _ => g
  | .loopP g _ _ _ => g
  | .lbrk g => g
  | .lcont g => g
  | .ldelta g _ _ _ => g
  | .sync g _ _ => g
  | .safe g _ => g
  | .waitx g _ _ => g
  | .parkYield g => g
  | .parkTime g _ => g
  | .parkWord g _ _ => g
  | .parkQueue g _ => g
  | .tspawn g _ _ _ _ => g
  | .texit g => g
  | .halt g _ => g
  | .barq g _ _ => g
  | .bard g _ _ => g
  | .bara g _ _ => g
  | .barw g _ _ => g
  | .pgwait g _ => g
  | .trap g _ => g
  | .eret g => g
  | .mfs g _ _ => g
  | .mts g _ _ => g
  | .geninc g _ _ => g
  | .genrd g _ _ => g
  | .sweep g _ _ _ => g
  | .ckpt g _ => g
  | .sNop g => g
  | .add g _ _ _ => g
  | .sub g _ _ _ => g
  | .mul g _ _ _ => g
  | .mulhu g _ _ _ => g
  | .mulhs g _ _ _ => g
  | .divu g _ _ _ => g
  | .divs g _ _ _ => g
  | .remu g _ _ _ => g
  | .rems g _ _ _ => g
  | .and g _ _ _ => g
  | .or g _ _ _ => g
  | .xor g _ _ _ => g
  | .andn g _ _ _ => g
  | .shl g _ _ _ => g
  | .shr g _ _ _ => g
  | .sra g _ _ _ => g
  | .rol g _ _ _ => g
  | .min g _ _ _ => g
  | .max g _ _ _ => g
  | .minu g _ _ _ => g
  | .maxu g _ _ _ => g
  | .clz g _ _ => g
  | .ctz g _ _ => g
  | .popc g _ _ => g
  | .sext g _ _ _ => g
  | .zext g _ _ _ => g
  | .mov g _ _ => g
  | .addx g _ _ _ _ => g
  | .addi g _ _ _ => g
  | .andi g _ _ _ => g
  | .ori g _ _ _ => g
  | .xori g _ _ _ => g
  | .shli g _ _ _ => g
  | .shri g _ _ _ => g
  | .srai g _ _ _ => g
  | .li g _ _ => g
  | .lih g _ _ => g
  | .ceq g _ _ _ => g
  | .cne g _ _ _ => g
  | .clt g _ _ _ => g
  | .cle g _ _ _ => g
  | .cltu g _ _ _ => g
  | .cleu g _ _ _ => g
  | .ceqi g _ _ _ => g
  | .clti g _ _ _ => g
  | .cltui g _ _ _ => g
  | .sel g _ _ _ _ => g
  | .fadd g _ _ _ => g
  | .fmul g _ _ _ => g
  | .fmin g _ _ _ => g
  | .fmax g _ _ _ => g
  | .ftoi g _ _ => g
  | .itof g _ _ => g
  | .pNop g => g
  | .pand g _ _ _ => g
  | .por g _ _ _ => g
  | .pxor g _ _ _ => g
  | .pandn g _ _ _ => g
  | .pnot g _ _ => g
  | .pseti g _ _ => g
  | .planes g _ _ _ => g
  | .pbcst g _ _ _ => g
  | .pany g _ _ => g
  | .pall g _ _ => g
  | .prot g _ _ _ => g
  | .xld g _ _ _ => g
  | .xset g _ _ => g
  | .xmov g _ _ => g
  | .qfmt g _ _ _ _ _ => g
  | .vNop g => g
  | .vadd g _ _ _ _ _ => g
  | .vsub g _ _ _ _ _ => g
  | .vmul g _ _ _ _ _ => g
  | .vfma g _ _ _ _ _ _ => g
  | .vfms g _ _ _ _ _ _ => g
  | .vfnma g _ _ _ _ _ _ => g
  | .vmin g _ _ _ _ _ => g
  | .vmax g _ _ _ _ _ => g
  | .vabs g _ _ _ _ => g
  | .vneg g _ _ _ _ => g
  | .vrcp g _ _ _ _ => g
  | .vrsq g _ _ _ _ => g
  | .vsqrt g _ _ _ _ => g
  | .vexp2 g _ _ _ _ => g
  | .vlog2 g _ _ _ _ => g
  | .vcmpeq g _ _ _ _ _ => g
  | .vcmplt g _ _ _ _ _ => g
  | .vcmple g _ _ _ _ _ => g
  | .vcmpne g _ _ _ _ _ => g
  | .vclass g _ _ _ _ _ => g
  | .vsel g _ _ _ _ _ _ => g
  | .vcvt g _ _ _ _ _ _ _ => g
  | .vqnt g _ _ _ _ _ _ _ _ => g
  | .vcbdec g _ _ _ _ _ => g
  | .vround g _ _ _ _ => g
  | .viadd g _ _ _ _ _ => g
  | .visub g _ _ _ _ _ => g
  | .vimul g _ _ _ _ _ => g
  | .vimin g _ _ _ _ _ => g
  | .vimax g _ _ _ _ _ => g
  | .vand g _ _ _ _ _ => g
  | .vor g _ _ _ _ _ => g
  | .vxor g _ _ _ _ _ => g
  | .vshl g _ _ _ _ _ => g
  | .vshr g _ _ _ _ _ => g
  | .vsra g _ _ _ _ _ => g
  | .vicmpeq g _ _ _ _ _ => g
  | .vicmplt g _ _ _ _ _ => g
  | .viabs g _ _ _ _ => g
  | .vpopc g _ _ _ _ => g
  | .vmov g _ _ _ _ => g
  | .vbcst g _ _ _ _ _ => g
  | .vperm g _ _ _ _ _ => g
  | .vrotl g _ _ _ _ _ => g
  | .vextr g _ _ _ _ _ _ => g
  | .vins g _ _ _ _ _ _ => g
  | .vzip g _ _ _ _ _ _ => g
  | .vunzip g _ _ _ _ _ _ => g
  | .viota g _ _ _ => g
  | .vcompr g _ _ _ _ _ => g
  | .vexpnd g _ _ _ _ _ => g
  | .vrsum g _ _ _ _ _ => g
  | .vrmax g _ _ _ _ _ => g
  | .vrmin g _ _ _ _ _ => g
  | .vscan g _ _ _ _ _ => g
  | .vdot g _ _ _ _ _ _ => g
  | .vargmx g _ _ _ _ _ => g
  | .mNop g => g
  | .mpush g _ _ _ => g
  | .mpusht g _ _ _ => g
  | .mshift g _ _ _ _ _ _ _ => g
  | .mshiftl g _ _ _ _ _ _ => g
  | .mshiftt g _ _ _ _ _ _ _ => g
  | .mflip g => g
  | .mdrain g _ _ _ _ _ _ => g
  | .mzero g _ => g
  | .maddv g _ _ _ _ _ => g
  | .mdrainz g _ _ _ _ _ _ => g
  | .lNop g => g
  | .lds g _ _ _ _ _ _ => g
  | .sts g _ _ _ _ _ => g
  | .vld g _ _ _ _ _ => g
  | .vst g _ _ _ _ _ => g
  | .vlds g _ _ _ _ _ => g
  | .vsts g _ _ _ _ _ => g
  | .vldx g _ _ _ _ _ => g
  | .vstx g _ _ _ _ _ => g
  | .gathr g _ _ _ _ _ _ _ _ => g
  | .atoml g _ _ _ _ _ _ => g
  | .ldg g _ _ _ _ _ _ _ => g
  | .stg g _ _ _ _ _ => g
  | .vldg g _ _ _ _ _ _ => g
  | .vstg g _ _ _ _ _ => g
  | .atomg g _ _ _ _ _ _ => g
  | .watom g _ _ _ _ _ _ => g
  | .watomr g _ _ _ _ _ _ => g
  | .pgreq g _ _ _ _ => g
  | .cdisc g _ _ _ => g
  | .cflush g _ _ _ _ => g
  | .smap g _ _ _ _ _ => g
  | .sunmap g _ => g
  | .sflush g _ => g
  | .sdisc g _ => g
  | .rldg g _ _ _ _ _ => g
  | .rstg g _ _ _ _ _ => g
  | .rstp g _ _ _ _ _ => g
  | .ratom g _ _ _ _ _ _ => g
  | .rfence g => g
  | .eNop g => g
  | .pcopy g _ _ _ _ => g
  | .pcopyt g _ _ _ _ => g
  | .pcopyr g _ _ _ _ => g
  | .pstat g _ _ => g
  | .pstatErr g _ _ => g
  | .pstatClr g _ _ => g
  | .tbind g _ _ _ _ _ _ _ _ => g
  | .tfill g _ => g
  | .tdrain g _ => g
  | .tfree g _ => g
  | .tstate g _ _ => g
  | .vsend g _ _ _ _ _ => g
  | .vlatch g _ _ _ => g
  | .vstat g _ => g
  | .qpush g _ _ _ => g
  | .qadv g _ _ => g
  | .qcfg g _ _ _ => g
  | .qrst g _ => g
  | .gsrch g _ _ _ => g
  | .gstat g _ _ => g
  | .rlydone g _ => g
  | .rlyfree g _ => g
  | .rlystash g _ => g
  | .rlypop g _ => g
  | .cres g _ _ _ => g
  | .crel g _ _ => g
  | .split g _ => g
  | .splitOccupancyEnd _ => { pred := 0, neg := false }
  | .bundleFetch _ => { pred := 0, neg := false }
  | .resultDelivery _ => { pred := 0, neg := false }
  | .loadDataReturn _ => { pred := 0, neg := false }
  | .xldLanding _ => { pred := 0, neg := false }
  | .contributionLanding _ => { pred := 0, neg := false }
  | .pushLanding _ => { pred := 0, neg := false }
  | .queueProducerLanding _ _ => { pred := 0, neg := false }
  | .stallPark _ _ => { pred := 0, neg := false }
  | .taskWake _ _ => { pred := 0, neg := false }
  | .priorityPromotion _ _ => { pred := 0, neg := false }
  | .turnEnd _ => { pred := 0, neg := false }
  | .switchBegin _ => { pred := 0, neg := false }
  | .switchEnd _ => { pred := 0, neg := false }
  | .placementStart _ _ => { pred := 0, neg := false }
  | .stashFill _ _ _ => { pred := 0, neg := false }
  | .tileFillComplete _ _ => { pred := 0, neg := false }
  | .tileDrainComplete _ _ => { pred := 0, neg := false }
  | .pumpJobStart _ _ => { pred := 0, neg := false }
  | .pumpJobComplete _ _ => { pred := 0, neg := false }
  | .pumpJobHalt _ _ => { pred := 0, neg := false }
  | .engineRangeJobComplete _ => { pred := 0, neg := false }
  | .wellheadUpdate _ => { pred := 0, neg := false }
  | .volleyDrive _ _ => { pred := 0, neg := false }
  | .spillStallRelease _ => { pred := 0, neg := false }
  | .heldPostingRelease _ => { pred := 0, neg := false }
  | .notifyWrite _ _ _ => { pred := 0, neg := false }
  | .packetFetch _ => { pred := 0, neg := false }
  | .launch _ _ => { pred := 0, neg := false }
  | .launchComplete _ => { pred := 0, neg := false }
  | .copy _ _ => { pred := 0, neg := false }
  | .rallyLoad _ _ => { pred := 0, neg := false }
  | .gen _ _ => { pred := 0, neg := false }
  | .barrier _ _ => { pred := 0, neg := false }
  | .barrierConditionMet _ _ => { pred := 0, neg := false }
  | .fence _ _ => { pred := 0, neg := false }
  | .hostWordPoll _ => { pred := 0, neg := false }
  | .sliceEnd _ => { pred := 0, neg := false }
  | .sliceStart _ => { pred := 0, neg := false }
  | .spacingOverrun _ _ _ => { pred := 0, neg := false }
  | .contextSave _ => { pred := 0, neg := false }
  | .save _ => { pred := 0, neg := false }
  | .restore _ => { pred := 0, neg := false }
  | .shootdown _ _ => { pred := 0, neg := false }
  | .shootdownAck _ _ => { pred := 0, neg := false }
  | .shootdownDone _ => { pred := 0, neg := false }
  | .migrationStart _ _ => { pred := 0, neg := false }
  | .migrationLineMove _ _ => { pred := 0, neg := false }
  | .migrationFinish _ _ => { pred := 0, neg := false }
  | .migrationDone _ _ => { pred := 0, neg := false }
  | .sweepPassStart => { pred := 0, neg := false }
  | .sweepElement _ => { pred := 0, neg := false }
  | .sweepPassComplete => { pred := 0, neg := false }
  | .rallyEntryStart _ => { pred := 0, neg := false }
  | .rallyEntryComplete _ => { pred := 0, neg := false }
  | .rallyIncrementTimeout _ => { pred := 0, neg := false }
  | .gseQueryPacket _ => { pred := 0, neg := false }
  | .gseRound _ _ => { pred := 0, neg := false }
  | .gseForwardedRequest _ => { pred := 0, neg := false }
  | .gseQueryComplete _ _ => { pred := 0, neg := false }
  | .flitSend _ => { pred := 0, neg := false }
  | .flitReceive _ _ _ => { pred := 0, neg := false }
  | .reportTimer _ => { pred := 0, neg := false }
  | .reportReceive _ _ _ => { pred := 0, neg := false }
  | .fabricRead => { pred := 0, neg := false }
  | .fabricWrite => { pred := 0, neg := false }
  | .fabricPostedWrite => { pred := 0, neg := false }
  | .fabricAtomic => { pred := 0, neg := false }
  | .fabricResponse => { pred := 0, neg := false }
  | .staleNotice => { pred := 0, neg := false }
  | .announce => { pred := 0, neg := false }
  | .announceSend _ => { pred := 0, neg := false }
  | .rallyIncrement => { pred := 0, neg := false }
  | .postedWriteGapTimeout _ => { pred := 0, neg := false }
  | .escapeMove _ _ => { pred := 0, neg := false }
  | .remoteTimeout _ => { pred := 0, neg := false }
  | .portTrainingDone _ _ _ => { pred := 0, neg := false }
  | .nodeIdWrite _ => { pred := 0, neg := false }
  | .coldReset => { pred := 0, neg := false }
  | .warmReset => { pred := 0, neg := false }
  | .functionReset => { pred := 0, neg := false }
  | .startGroupBegin _ => { pred := 0, neg := false }
  | .unitReady _ _ => { pred := 0, neg := false }
  | .correctedError _ _ _ _ => { pred := 0, neg := false }
  | .correctedThreshold _ _ => { pred := 0, neg := false }
  | .uncorrectableLineError _ _ => { pred := 0, neg := false }
  | .tagParityError _ _ => { pred := 0, neg := false }
  | .errorInject _ => { pred := 0, neg := false }
  | .injectedReport _ _ _ _ _ => { pred := 0, neg := false }
  | .ckptCloseDone _ => { pred := 0, neg := false }
  | .rollback _ => { pred := 0, neg := false }
  | .rollbackDone _ => { pred := 0, neg := false }
  | .powerControlTick _ => { pred := 0, neg := false }
  | .registerWrite _ _ => { pred := 0, neg := false }
  | .tlbWalkComplete _ => { pred := 0, neg := false }

end Sys2Proof.Machine
end

