-- ==== Sys2Proof/Machine/Regfile.lean ====
section
/-! DEFINITION. The executing task and core; register reads and writes under the rules of spec/02; guards;
the stops of an operation; exposed results and their landing. -/

namespace Sys2Proof.Machine

/-- Why a slot operation does not complete: a trap, a hold, or an access to memory that does not exist. -/
inductive Stop where
  | trap (t : Trap)
  | hold (h : Hold)
  | fault (f : Fault)
  deriving DecidableEq, Repr

/-- What an operation gives: a value, or the stop that comes before any effect of it. -/
abbrev Act (α : Type) := Except Stop α

/-- Core n. -/
def State.coreAt (s : State) (n : Nat) : Core := SMap.get Core.reset s.cores n

def State.setCoreAt (s : State) (n : Nat) (k : Core) : State :=
  { s with cores := SMap.set Core.reset s.cores n k }

/-- Context x of a core. -/
def Core.task (k : Core) (x : Nat) : Task := SMap.get Task.free k.tasks x

def Core.setTask (k : Core) (x : Nat) (t : Task) : Core := { k with tasks := SMap.set Task.free k.tasks x t }

/-- The core and task whose slot executes. -/
def State.core (s : State) : Core := s.coreAt s.c

def State.setCore (s : State) (k : Core) : State := s.setCoreAt s.c k

def State.task (s : State) : Task := s.core.task s.x

def State.setTask (s : State) (t : Task) : State := s.setCore (s.core.setTask s.x t)

def State.modCore (s : State) (f : Core → Core) : State := s.setCore (f s.core)

def State.modTask (s : State) (f : Task → Task) : State := s.setTask (f s.task)

def State.taskAt (s : State) (n x : Nat) : Task := (s.coreAt n).task x

def State.setTaskAt (s : State) (n x : Nat) (t : Task) : State := s.setCoreAt n ((s.coreAt n).setTask x t)

/-- The quad of a core, its place in it, and its die (R1). -/
def quadOf (core : Nat) : Nat := core / 4
def memberOf (core : Nat) : Nat := core % 4
def dieOfCore (core : Nat) : Nat := core / 32

/-- The task and core as they stood before the bundle (R51). -/
def State.preTask (s : State) : Task :=
  match s.frame with
  | some f => f.task
  | none => s.task

def State.preCore (s : State) : Core :=
  match s.frame with
  | some f => f.core
  | none => s.core

/-- The partition of the executing task. -/
def State.part (s : State) : Nat := tagPart s.task.tag

/-- An element under the tag rule, as the executing task reads it (R379). -/
def State.seen (s : State) (tag : Tag) : Bool := s.readable s.task.tag tag

/-- Index register n: the level n outward from the innermost (R42). -/
def Task.index (t : Task) (n : Nat) : Word :=
  match t.loops[n]? with
  | some l => l.index
  | none => 0

/-- The value of a scalar operand (R41, R42). -/
def Task.scalar (t : Task) : SReg → Word
  | .s n => if n = 0 then 0 else SMap.get 0 t.s n.toNat
  | .a n => SMap.get 0 t.a n.toNat
  | .i n => t.index n.toNat

/-- A scalar register written; a write to s0 is discarded and an index register is never a destination
(R41, R43). -/
def Task.setScalar (t : Task) (r : SReg) (v : Word) : Task :=
  match r with
  | .s n => if n = 0 then t else { t with s := SMap.set 0 t.s n.toNat v }
  | .a n => { t with a := SMap.set 0 t.a n.toNat v }
  | .i _ => t

/-- A predicate register; p0 reads all-true (R41). -/
def Task.pred (t : Task) (n : BitVec 4) : Lanes := if n = 0 then BitVec.allOnes 256 else SMap.get 0 t.p n.toNat

/-- A predicate register written; a write to p0 is discarded (R41). -/
def Task.setPred (t : Task) (n : BitVec 4) (v : Lanes) : Task :=
  if n = 0 then t else { t with p := SMap.set 0 t.p n.toNat v }

def State.scalar (s : State) (r : SReg) : Word := s.preTask.scalar r

def State.areg (s : State) (n : BitVec 5) : Word := s.preTask.scalar (.a n)

def State.pred (s : State) (n : BitVec 4) : Lanes := s.preTask.pred n

def State.putScalar (s : State) (r : SReg) (v : Word) : State := s.setTask (s.task.setScalar r v)

def State.putPred (s : State) (n : BitVec 4) (v : Lanes) : State := s.setTask (s.task.setPred n v)

/-- All lanes true, or all false (R162). -/
def allLanes (b : Bool) : Lanes := if b then BitVec.allOnes 256 else 0

/-- The lane mask of a guard (R50). -/
def State.guardLanes (s : State) (g : Guard) : Lanes := if g.neg then ~~~ (s.pred g.pred) else s.pred g.pred

/-- The guard of a slot other than V0 and V1: lane 0 (R49). -/
def State.guard (s : State) (g : Guard) : Bool := (s.guardLanes g).getLsbD 0

/-- A write to an element ends its uncorrectable error (R274). -/
def Core.heal (k : Core) (kind index : Nat) : Core :=
  { k with bad := k.bad.filter fun b => b != (kind, index) }

/-- Vector register n under the tag rule. -/
def State.vreg (s : State) (n : Nat) : VBits :=
  let r := SMap.get VReg.zero s.preCore.v n
  if s.seen r.tag then r.data else 0

/-- Vector register n as the destination of a partial write: another tenancy's data reads as zero (R67). -/
def State.vregNow (s : State) (n : Nat) : VBits :=
  let r := SMap.get VReg.zero s.core.v n
  if s.seen r.tag then r.data else 0

/-- A vector register written whole, under the task's tag. -/
def State.putV (s : State) (n : Nat) (v : VBits) : State :=
  s.setCore { s.core.heal 2 n with v := SMap.set VReg.zero s.core.v n { data := v, tag := s.task.tag } }

/-- Result-queue entry n, 0 the newest (R52). -/
def State.result (s : State) (n : Nat) : VBits :=
  match s.preTask.results[n]? with
  | some r => if s.seen r.tag then r.data else 0
  | none => 0

/-- The result-queue entries of context x move up with their errors, and the newest has none (R52, R274). -/
def Core.pushErrors (k : Core) (x : Nat) : Core :=
  let mine := fun (b : Nat × Nat) => b.1 == 8 && b.2 / 16 == x
  { k with bad := (k.bad.filter fun b => !(mine b && b.2 % 16 == 15)).map fun b => if mine b then (8, b.2 + 1) else b }

/-- One push onto the result queue (R52). -/
def State.pushResult (s : State) (v : VBits) : State :=
  let s1 := if s.core.bad.isEmpty then s else s.setCore (s.core.pushErrors s.x)
  s1.setTask { s.task with results := ({ data := v, tag := s.task.tag } :: s.task.results).take 16 }

/-- A vector with its first bytes replaced (R216). -/
def withLowBytes (v : VBits) (bs : List Byte) : VBits :=
  let w := 8 * bs.length
  BitVec.ofNat 8192 (v.toNat / 2 ^ w * 2 ^ w + ofBytes bs)

/-- Scale register n as a P slot of the task reads it (R192). -/
def State.xreg (s : State) (n : Nat) : XBits :=
  let r := SMap.get XReg.zero s.preCore.x n
  if s.seen r.tag then r.data else 0

def State.putX (s : State) (n : Nat) (v : XBits) : State :=
  s.setCore { s.core.heal 4 n with x := SMap.set XReg.zero s.core.x n { data := v, tag := s.task.tag } }

/-- Accumulator row n under the tag rule (R204, R213). -/
def State.accRow (s : State) (n : Nat) : RowBits :=
  let r := SMap.get AccRow.zero s.core.acc n
  if s.seen r.tag then r.data else 0

def State.putAcc (s : State) (n : Nat) (v : RowBits) : State :=
  s.setCore { s.core.heal 3 n with acc := SMap.set AccRow.zero s.core.acc n { data := v, tag := s.task.tag } }

/-- A quad queue. -/
def State.queue (s : State) (quad k : Nat) : Queue := SMap.get Queue.reset s.queues (16 * quad + k)

def State.setQueue (s : State) (quad k : Nat) (q : Queue) : State :=
  { s with queues := SMap.set Queue.reset s.queues (16 * quad + k) q }

/-- A trap that is precise at its own bundle. -/
def trapNow {α : Type} (c : Cause) (addr info : Word) : Act α :=
  .error (.trap { cause := c, addr := addr, info := info, at_ := .bundle })

/-- The codes of the causes (R272). -/
def causeCode : Cause → BitVec 8
  | .illbundle => 0x01 | .priv => 0x02 | .lsrange => 0x03 | .align => 0x04 | .tilebind => 0x05
  | .xlate => 0x06 | .remote => 0x07 | .poison => 0x08 | .volley => 0x09 | .swtrap => 0x0A
  | .queue => 0x0C | .loopstack => 0x0D | .stateue => 0x0F

/-- A range trap with the offending value (R136). -/
def outOfRange {α : Type} (v : Word) : Act α := trapNow .lsrange 0 v

/-- A hardware-raised SWTRAP (R136). -/
def swTrap {α : Type} (code detail : Nat) : Act α :=
  trapNow .swtrap 0 (BitVec.ofNat 64 (code * 2 ^ 32 + detail % 2 ^ 32))

/-- A QUEUE trap: the queue in [3:0], the reason in [7:4] (R272). -/
def queueTrap {α : Type} (k reason : Nat) : Act α := trapNow .queue 0 (BitVec.ofNat 64 (k + 16 * reason))

/-- An interlocked stall (R262). -/
def stall {α : Type} : Act α := .error (.hold .interlock)

/-- A stall that parks after PARK.THRESH cycles (R28). -/
def parkStall {α : Type} (c : ParkCause) : Act α := .error (.hold (.parkable c))

/-- Value c of an accumulator row (R53). -/
def rowVal (r : RowBits) (c : Nat) : Nat := (r.extractLsb' (32 * c) 32).toNat

/-- A row of 64 values (R53). -/
def mkRow (f : Nat → Nat) : RowBits :=
  BitVec.ofNat 2048 ((List.range 64).foldr (fun c acc => acc * 2 ^ 32 + f c % 2 ^ 32) 0)

/-- One value added to another: FP32 in RNE, or INT32 modulo 2^32 (R83, R84). -/
def addVal (int : Bool) (a b : Nat) : Nat := if int then (a + b) % 2 ^ 32 else addF32 .rne a b

/-- What a pending result does to its destination when it lands (R203, R204): a contribution adds to the row
or overwrites it, a row under another tag reading as zero; each stamps the operation's tag. -/
def Core.land (k : Core) (p : Pend) : Core :=
  match p.what with
  | .acc row int overwrite data =>
    let old := SMap.get AccRow.zero k.acc row
    let base := if old.tag = p.tag then old.data else 0
    let new := if overwrite then data else mkRow fun c => addVal int (rowVal base c) (rowVal data c)
    { k.heal 3 row with acc := SMap.set AccRow.zero k.acc row { data := new, tag := p.tag } }
  | .push group data => { k with planes := SMap.set VReg.zero k.planes group { data := data, tag := p.tag } }
  | .scale n data => { k.heal 4 n with x := SMap.set XReg.zero k.x n { data := data, tag := p.tag } }

/-- A landing on core n: dropped and counted if Land fails (R204, R388). -/
def State.landOne (s : State) (n : Nat) (p : Pend) : State :=
  if s.lands p.tag then s.setCoreAt n ((s.coreAt n).land p) else s.countDrop p.tag

/-- Landings in the order given. (Log 110: DEDUCED) -/
def State.landAll (s : State) (n : Nat) (ps : List Pend) : State := ps.foldl (fun s p => s.landOne n p) s

/-- Whether a pending result belongs to the P slot's XLDs; the others belong to the M slot. -/
def Pend.isScale (p : Pend) : Bool :=
  match p.what with
  | .scale _ _ => true
  | _ => false

/-- A pending result placed among others by landing cycle, behind those of its own cycle. (Log 110: DEDUCED) -/
def insertByDue (p : Pend) : List Pend → List Pend
  | [] => [p]
  | q :: qs => if p.due < q.due then p :: q :: qs else q :: insertByDue p qs

/-- Pending results in the order in which they land (R279). (Log 110: DEDUCED) -/
def byDue (ps : List Pend) : List Pend := ps.foldl (fun acc p => insertByDue p acc) []

/-- The pending results of core n that are due and pass the test land in the order of their landing cycles,
which for one destination is the order of issue (R191, R201). (Log 21: DEDUCED) -/
def State.landDue (s : State) (n t : Nat) (which : Pend → Bool) : State :=
  let k := s.coreAt n
  let go := fun p : Pend => which p && p.due ≤ t
  (s.setCoreAt n { k with pend := k.pend.filter fun p => !go p }).landAll n (byDue (k.pend.filter go))

/-- Every entry of the snapshot of core n lands at once, in issue order (R280). -/
def State.releaseSnapshot (s : State) (n : Nat) : State :=
  let k := s.coreAt n
  (s.setCoreAt n { k with snapshot := [] }).landAll n k.snapshot

/-- A latched-in value of scale register n for a slot that issues at cycle t: the newest XLD that has landed
by then, else the register (R191). -/
def State.scaleAt (s : State) (n t : Nat) : XBits :=
  let k := s.core
  let landed := k.pend.filter fun p => p.due ≤ t && match p.what with | .scale m _ => m == n | _ => false
  match landed.reverse with
  | p :: _ =>
    match p.what with
    | .scale _ data => if s.seen p.tag then data else 0
    | _ => s.xreg n
  | [] => s.xreg n

end Sys2Proof.Machine
end

