-- ==== Sys2Proof/Machine/Lines.lean ====
section
/-! DEFINITION. Memory by lines of 64 bytes: raw lines with tag and poison, lines as the die caches, spill buffers and
stash copies hold them (R289, R297 to R303), and what a write sets off (R281). -/

namespace Sys2Proof.Machine

/-- What an unlisted byte of memory reads as. (Log 5: DESIGN CHOICE) -/
def blankByte : Byte := 0

/-- A line with its tag and poison mark. -/
structure Line where
  data : LineBits
  tag : Tag
  poison : Bool
  deriving DecidableEq, Repr

/-- One byte of memory below the caches. (Log 5: DESIGN CHOICE) -/
def State.rawByte (s : State) (a : Nat) : Byte := SMap.get blankByte s.mem a

/-- The canonical form of memory: addresses rise and no listed byte is what an unlisted one reads as. -/
abbrev Memory.wf (m : SMap Byte) : Prop := SMap.wf blankByte m = true

/-- n bytes of memory from address a, below the caches. -/
def State.rawBytes (s : State) (a : Nat) : Nat → List Byte
  | 0 => []
  | n + 1 => s.rawByte a :: s.rawBytes (a + 1) n

/-- Bytes stored from address a, below the caches. -/
def setRawBytes (m : SMap Byte) (a : Nat) : List Byte → SMap Byte
  | [] => m
  | b :: bs => setRawBytes (SMap.set blankByte m a b) (a + 1) bs

def State.setRaw (s : State) (a : Nat) (bs : List Byte) : State := { s with mem := setRawBytes s.mem a bs }

/-- The 64-byte line that holds address a. -/
def lineOf (a : Nat) : Nat := a / 64 * 64

def bytesToLine (bs : List Byte) : LineBits := BitVec.ofNat 512 (ofBytes bs)

def lineToBytes (d : LineBits) : List Byte := toBytes 64 d.toNat

/-- The line at address a below the caches. -/
def State.rawLine (s : State) (a : Nat) : Line :=
  let l := lineOf a
  { data := bytesToLine (s.rawBytes l 64), tag := SMap.get nullTag s.tags (l / 64),
    poison := SMap.get false s.poisoned (l / 64) }

def State.setRawLine (s : State) (a : Nat) (x : Line) : State :=
  let l := lineOf a
  { s.setRaw l (lineToBytes x.data) with
    tags := SMap.set nullTag s.tags (l / 64) x.tag, poisoned := SMap.set false s.poisoned (l / 64) x.poison }

/-- An MSI-X message of entry v; a cleared table sends none (R425). (Log 90: DEDUCED) -/
def State.interrupt (s : State) (v : Nat) : State := if s.msixClear then s else { s with msix := s.msix ++ [v] }

def unitCode : UnitKind → Nat
  | .core => 1 | .dieCache => 2 | .wellhead => 3 | .port => 4 | .dispatcher => 5 | .walker => 6 | .power => 7

def State.die (s : State) (d : Nat) : Die := SMap.get Die.reset s.dies d

def State.setDie (s : State) (d : Nat) (x : Die) : State := { s with dies := SMap.set Die.reset s.dies d x }

/-- The address of a location in memory. -/
def Loc.addr : Loc → Nat
  | .frame pa _ => pa
  | .host a => a
  | .cistern a _ _ => a

/-- The location n bytes further on, within its page. -/
def Loc.plus (l : Loc) (n : Nat) : Loc :=
  match l with
  | .frame pa o => .frame (pa + n) o
  | .host a => .host (a + n)
  | .cistern a h b => .cistern (a + n) h (b.map (· + n))

/-- The home die of a line (R297). (Log 11: DESIGN CHOICE) -/
def Loc.home : Loc → Nat
  | .frame pa _ => dieOf pa
  | .host _ => 0
  | .cistern _ h _ => h

def CLine.line (c : CLine) : Line := { data := c.data, tag := c.tag, poison := c.poison }

/-- The line a die holds, in its cache or its spill buffer (R303). -/
def Die.find (d : Die) (key : Nat) : Option CLine :=
  match d.lines.find? (fun c => c.key == key) with
  | some c => some c
  | none => d.spill.find? (fun c => c.key == key)

/-- The bytes of a line from offset off replaced. -/
def putBytes (d : LineBits) (off : Nat) (bs : List Byte) : LineBits :=
  let old := lineToBytes d
  bytesToLine (old.take off ++ bs ++ old.drop (off + bs.length))

/-- A line with bytes replaced from offset off, all other bytes zero where the line held another tag (R67,
R380). -/
def Line.merge (x : Line) (tag : Tag) (off : Nat) (bs : List Byte) : Line :=
  { data := putBytes (if x.tag = tag then x.data else 0) off bs, tag := tag, poison := false }

/-- The sectors in a mask taken from one line, the others from another (R297). -/
def sectorBits (mask : BitVec 4) (old new : LineBits) : LineBits :=
  (List.range 4).foldl (fun acc i =>
    if mask.getLsbD i then
      let m : LineBits := BitVec.ofNat 512 ((2 ^ 128 - 1) * 2 ^ (128 * i))
      (acc &&& ~~~ m) ||| (new &&& m)
    else acc) old

/-- The sectors touched by n bytes from offset off of a line. -/
def sectorMask (off n : Nat) : BitVec 4 :=
  BitVec.ofNat 4 ((List.range 4).foldl (fun acc i =>
    if off < 16 * (i + 1) && 16 * i < off + n then acc + 2 ^ i else acc) 0)

/-- A held line with the sectors that it does not hold taken from memory (R297). -/
def CLine.overlay (c : CLine) (x : Line) : Line :=
  if c.valid = 15 then c.line
  else { data := sectorBits c.valid x.data c.data, tag := c.tag, poison := c.poison || x.poison }

/-- What a die knows of the backing of a cistern line's page (R378). -/
def Die.backing (d : Die) (key : Nat) : Option Backed :=
  d.backed.find? fun b => cisternAddr b.part (b.page * Config.pageSize) / Config.pageSize == key / Config.pageSize

/-- The frame address of a cistern line whose page has a frame that the die knows of (R378). -/
def Die.frameOf (d : Die) (key : Nat) : Option Nat :=
  match d.backing key with
  | some b => if b.frame = 0 then none else some (b.frame + key % Config.pageSize)
  | none => none

/-- A die learns of the backing of a page with the first access to it, and else by a reread (R372, R378).
(Log 120: DEDUCED) -/
def Die.learn (d : Die) (p page frame : Nat) : Die :=
  if d.backed.any fun b => b.part == p && b.page == page then d
  else { d with backed := d.backed ++ [{ part := p, page := page, frame := frame }] }

/-- The frame that a cistern line's home die reads it from: the one that the entry gives, as long as the die knows of none
(R378). -/
def State.backingOf (s : State) (h key : Nat) (b : Option Nat) : Option Nat :=
  if ((s.die h).backing key).isNone then b else (s.die h).frameOf key

/-- The stack of a device address has failed (R428). -/
def State.stackFailed (s : State) (pa : Nat) : Bool := s.field (resetReg 0x20) (stackOf pa) (stackOf pa) = 1

/-- The stack of a device address is READY, or has failed: an access to it is not held (R428). (Log 87: DEDUCED) -/
def State.stackReady (s : State) (pa : Nat) : Bool :=
  s.field (resetReg 0x10) (1 + stackOf pa) (1 + stackOf pa) = 1 || s.stackFailed pa

/-- A line of device memory below the caches as its stack delivers it: poisoned on a failed stack (R428). -/
def State.memLine (s : State) (key : Nat) : Line :=
  let x := s.rawLine key
  { x with poison := x.poison || s.stackFailed key }

/-- A line of device memory as memory and its home die's cache hold it. -/
def State.frameLine (s : State) (key : Nat) : Line :=
  match (s.die (dieOf key)).find key with
  | some c => c.overlay (s.memLine key)
  | none => s.memLine key

/-- The line of a location as memory and the die caches hold it: a cistern line that its die does not hold is read from
its late frame, or is zero (R302, R378). -/
def State.heldLine (s : State) (l : Loc) : Line :=
  let key := lineOf l.addr
  match l with
  | .host _ => s.rawLine key
  | .frame _ _ => s.frameLine key
  | .cistern a h b =>
    match (s.die h).find key with
    | some c => c.line
    | none =>
      match s.backingOf h key (b.map lineOf) with
      | some pa => s.frameLine pa
      | none => { data := 0, tag := s.curTag ((a - 2 ^ 104) / 2 ^ 56), poison := false }

/-- The address in memory of a local address as core n's quad numbers it (R7). -/
def quadAddr (n a : Nat) : Nat := localAddr (quadOf n * 4 + a / 2 ^ 20 % 4) (a % 2 ^ 20)

def Core.stashEntry (k : Core) (e : Nat) : Stash := SMap.get Stash.none k.stash e

def Core.setStash (k : Core) (e : Nat) (x : Stash) : Core := { k with stash := SMap.set Stash.none k.stash e x }

/-- The stash copies of a line of memory (R289), each as core, entry and sector. -/
def State.copiesOf (s : State) (line : Nat) : List (Nat × Nat × Nat) :=
  s.cores.flatMap fun (n, k) => k.stash.flatMap fun (e, x) => x.sectors.filterMap fun (i, sec) =>
    match sec.at_ with
    | some a => if sec.filled && lineOf a = line then some (n, e, i) else none
    | none => none

/-- The address in the local store of a sector of a stash entry. -/
def State.sectorAddr (s : State) (n e i : Nat) : Nat := quadAddr n (((s.coreAt n).stashEntry e).base + 16 * i)

/-- A line with what a dirty sector of the stash holds of it, as its write-back would leave it (R290). -/
def State.withSector (s : State) (x : Line) (host : Bool) (n e i : Nat) : Line :=
  let sec := SMap.get Sector.none ((s.coreAt n).stashEntry e).sectors i
  let a := s.sectorAddr n e i
  let tag := SMap.get nullTag s.tags (a / 64)
  let off := sec.at_.getD 0 % 64
  if !sec.dirty || !s.lands tag || x.poison then x
  else if host then { x with data := putBytes x.data off (s.rawBytes a 16) }
  else x.merge tag off (s.rawBytes a 16)

/-- The line of a location as memory, die caches and stash copies hold it together (R297, R308). -/
def State.line (s : State) (l : Loc) : Line :=
  (s.copiesOf (lineOf l.addr)).foldl (fun x (n, e, i) => s.withSector x (isHost l.addr) n e i) (s.heldLine l)

/-- A tag whose generation is not its partition's current one, is null, or belongs to a closed partition (R387, R390). -/
def State.stale (s : State) (t : Tag) : Bool := tagGen t = 0 || !s.lands t

/-- Die d is the home of a line with a key (R297), as far as the key tells: a cistern line is held by no other die
(R302). (Log 11: DESIGN CHOICE) -/
def isHome (d key : Nat) : Bool := if isHost key then d == 0 else if isDevice key then dieOf key == d else true

/-- No die but its home holds a line with a key in its cache. -/
def Die.dropCopy (x : Die) (d key : Nat) : Die :=
  if isHome d key then x else { x with lines := x.lines.filter fun c => c.key != key }

/-- A line is in no core's cache part, and in no die's cache but that of its home (R289, R297, R306).
(Log 115: DESIGN CHOICE) -/
def State.dropParts (s : State) (line : Nat) : State :=
  let s1 := s.dies.foldl (fun s (d, x) => s.setDie d (x.dropCopy d line)) s
  s1.cores.foldl (fun s (n, k) =>
    if k.cachePart.any (·.1 == line) then s.setCoreAt n { s.coreAt n with cachePart := k.cachePart.filter (·.1 != line) } else s) s1

/-- A die's directory gives a line up: cache parts lose it at once, and stash copies are to be recalled (R289).
(Log 117: DEDUCED) -/
def State.evict (s : State) (line : Nat) : State :=
  let s1 := s.dropParts line
  if (s.copiesOf line).isEmpty then s1 else { s1 with evicted := s1.evicted.filter (· != line) ++ [line] }

/-- The die's lines without a key. -/
def State.dropLine (s : State) (d key : Nat) : State :=
  let die := s.die d
  s.setDie d { die with lines := die.lines.filter (fun c => c.key != key), spill := die.spill.filter (fun c => c.key != key) }

/-- The tag rule gives an agent the line of a location: host memory has no tags (R66), a frame may be read through a shared
entry (R379). -/
def State.grants (s : State) (tag : Tag) (l : Loc) (x : Line) : Bool :=
  match l with
  | .host _ => true
  | .frame _ o => s.readableShared tag x.tag o
  | .cistern _ _ _ => s.readable tag x.tag

/-- The data of a line as an agent sees it: a poisoned line gives zero (R220), and so does one that the tag rule denies it
(R379). -/
def State.visible (s : State) (tag : Tag) (l : Loc) (x : Line) : LineBits :=
  if x.poison then 0 else if s.grants tag l x then x.data else 0

/-- The unit that meets the poison of a line, as a kind and an index (R431): the die that holds it, or the wellhead of the
stack that does. (Log 103: DEDUCED) -/
def State.poisonUnit (s : State) (l : Loc) : Nat × Nat :=
  match l with
  | .frame pa _ => (3, stackOf pa)
  | .host _ => (2, 0)
  | .cistern a h b =>
    match (s.die h).find (lineOf a), s.backingOf h a b with
    | none, some pa => (3, stackOf pa)
    | _, _ => (2, h)

/-- The contexts of every listed core, as (core, context, task). -/
def State.tasks (s : State) : List (Nat × Nat × Task) :=
  s.cores.flatMap fun (n, k) => k.tasks.map fun (x, t) => (n, x, t)

/-- A parked task whose wake event has occurred becomes READY within 64 cycles, by TASK_WAKE (R28). -/
def State.wake (s : State) (n x : Nat) : State :=
  let t := s.taskAt n x
  s.setTaskAt n x { t with wakeAt := some (s.coreAt n).clock }

/-- Every monitor on the line fires: its waiters wake and it frees (R281). -/
def State.fireMonitors (s : State) (line : Nat) : State :=
  let s1 := s.dies.foldl (fun s (d, x) =>
    if x.monitors.contains line then s.setDie d { x with monitors := x.monitors.filter (· != line) } else s) s
  s.tasks.foldl (fun s (n, x, t) => if t.st = .parked (.page line) then s.wake n x else s) s1

end Sys2Proof.Machine
end

