-- ==== Sys2Proof/Machine/Walk.lean ====
section
/-! DEFINITION. The walk (R365 to R368), where an address lies without any effect of looking, what a write to a line
wakes (R149, R281, R358), and the writes of the device itself (R369). -/

namespace Sys2Proof.Machine

/-- The kinds of access, coded as in TRAP.INFO (R273). -/
inductive Access where
  | read | write | atomic | exec
  deriving DecidableEq, Repr

def Access.code : Access → Nat
  | .read => 0 | .write => 1 | .atomic => 2 | .exec => 3

/-- Why a translation gives no location: the fault and table level of R273 with the entry at which the walk
stopped and its soft-residency mark; a wait; or memory that does not exist. -/
inductive XErr where
  | fault (code level : Nat) (soft : Bool) (slot : Nat)
  | wait
  | spill (d page : Nat)
  | missing (pa : Nat)
  deriving DecidableEq, Repr

/-- Who accesses: a partition under a tag, through the TLB of a core or none. -/
structure Agent where
  part : Nat
  tag : Tag
  core : Option Nat
  deriving DecidableEq, Repr

/-- TRAP.INFO of an XLATE trap (R273). -/
def xlateInfo (a : Access) (code level : Nat) (stash : Bool) : Nat :=
  a.code + 4 * code + (if stash then 32 else 0) + 64 * level

/-- A stop from a translation error at va. -/
def XErr.stop (a : Access) (va : Word) (stash : Bool) : XErr → Stop
  | .fault code level _ _ =>
    .trap { cause := .xlate, addr := va, info := BitVec.ofNat 64 (xlateInfo a code level stash), at_ := .bundle }
  | .wait => .hold .interlock
  | .spill d page => .hold (.spill d page)
  | .missing pa => .fault (.noMemory pa)

/-- An 8-byte table entry, read coherently and without the tag rule (R369); of a poisoned line it reads as zero, and so is
not valid (R435). (Log 140: DEDUCED) -/
def State.entryAt (s : State) (pa : Nat) : Word :=
  let x := s.line (.frame pa none)
  if x.poison then 0 else BitVec.ofNat 64 (x.data.toNat / 2 ^ (8 * (pa % 64)) % 2 ^ 64)

/-- The index of a virtual address at a level (R365). -/
def levelIndex (level va : Nat) : Nat := va / 2 ^ (68 - 13 * level - 13) % 8192

/-- The bytes that a leaf of a level maps (R365). -/
def leafSize (level : Nat) : Nat := 2 ^ (68 - 13 * level - 13)

/-- The frame, page or link address of an entry (R366). -/
def entryAddr (e : Word) : Nat := bits e 56 16 * 2 ^ 16

/-- An entry whose fields R366 to R368 allow at its level. -/
def State.entryValid (s : State) (p level : Nat) (e : Word) : Bool :=
  let ty := bits e 9 7
  let leaf := level = 3 || bits e 6 6 = 1
  bits e 0 0 = 1 && bits e 63 57 = 0 && !(level = 3 && bits e 6 6 = 1) &&
  (if !leaf then ty = 0 && bits e 15 10 = 0 && entryAddr e < Config.physLimit
   else
    match ty with
    | 0 => bits e 15 10 = 0 && entryAddr e < Config.physLimit
    | 1 => level = 3 && bits e 15 13 = 0 && entryAddr e < Config.physLimit
    | 2 => bits e 15 10 = 0 && s.field (partReg p 0x48) 20 20 = 1
    | 3 => level = 3 && bits e 15 10 = 0 && bits e 56 32 = 0
    | 4 => level = 3 && bits e 15 10 = 0 && bits e 56 28 = 0
    | 5 => level = 3 && bits e 1 1 = 0 && entryAddr e < Config.physLimit
    | _ => false)

/-- Where a walk stopped: its level, the address of the entry there and the entry. -/
structure Stopped where
  level : Nat
  slot : Nat
  entry : Word
  deriving DecidableEq, Repr

/-- A location on a stack that has failed (R428). -/
def State.stackFailedAt (s : State) (l : Loc) : Bool :=
  match l with
  | .frame pa _ => s.stackFailed pa
  | _ => false

/-- An access to the line of a location is not held (R428): its stack, or that of the frame from which its die is to read a
cistern line, is READY or has failed. -/
def State.locReady (s : State) (l : Loc) : Bool :=
  match l with
  | .frame pa _ => s.stackReady pa
  | .host _ => true
  | .cistern a h b =>
    match (s.die h).find (lineOf a), s.backingOf h a b with
    | none, some pa => s.stackReady pa
    | _, _ => true

/-- The walk of va from a table at a level: to a leaf, or to an entry that is not valid (R365, R368). -/
def State.walkFrom (s : State) (p va table : Nat) : Nat → Except XErr Stopped
  | 0 => .error .wait
  | n + 1 =>
    let level := 3 - n
    let slot := table + 8 * levelIndex level va
    if slot ≥ Config.physLimit then .error (.missing slot)
    else if !s.stackReady slot then .error .wait
    else
      let e := s.entryAt slot
      if s.entryValid p level e && level < 3 && bits e 6 6 = 0 then s.walkFrom p va (entryAddr e) n
      else .ok { level := level, slot := slot, entry := e }

/-- The walk of va through partition p's table; with translation off there is no entry (R371). -/
def State.walk (s : State) (p va : Nat) : Except XErr Stopped :=
  if s.field (partReg p 0x40) 0 0 = 0 then .error (.fault 1 0 false 0)
  else s.walkFrom p va (s.field (partReg p 0x40) 56 16 * 2 ^ 16) 3

/-- The TLB entry of a core for a page (R369); with translation off no access finds one (R371). -/
def State.tlbFind (s : State) (ag : Agent) (va : Nat) : Option Stopped :=
  match ag.core with
  | none => none
  | some n =>
    if s.field (partReg ag.part 0x40) 0 0 = 0 then none else
    ((s.coreAt n).tlb.find? fun t => t.part == ag.part && va / leafSize t.level == t.page / leafSize t.level).map
      fun t => { level := t.level, slot := t.slot, entry := t.entry }

def State.tlbPut (s : State) (ag : Agent) (va : Nat) (w : Stopped) : State :=
  match ag.core with
  | none => s
  | some n =>
    let k := s.coreAt n
    let other := k.tlb.filter fun t => !(t.part == ag.part && t.slot == w.slot)
    s.setCoreAt n { k with tlb := { part := ag.part, page := va, level := w.level, slot := w.slot, entry := w.entry } :: other }

/-- The location that a valid leaf gives for va; a migrating or peer leaf gives none here. -/
def leafLoc (s : State) (p va : Nat) (w : Stopped) : Option Loc :=
  let off := va % leafSize w.level
  match bits w.entry 9 7 with
  | 0 => some (.frame (entryAddr w.entry + off) none)
  | 1 => some (.cistern (cisternAddr p va) (bits w.entry 12 10)
      (if entryAddr w.entry = 0 then none else some (entryAddr w.entry + off)))
  | 2 => some (.host (hostAddr (s.field (partReg p 0x48) 19 0) (entryAddr w.entry + off)))
  | 5 => some (.frame (entryAddr w.entry + off) (some (bits w.entry 15 10)))
  | _ => none

/-- The address of a migration record (R375). -/
def State.recordAddr (s : State) (p rec : Nat) : Nat := s.field (partReg p 0x70) 56 20 * 2 ^ 20 + 256 * rec

def State.word64 (s : State) (pa : Nat) : Word := s.entryAt pa

/-- The location of byte off of the page that a level-3 entry of a migration record names. -/
def entryLoc (s : State) (p page off : Nat) (e : Word) : Loc :=
  match bits e 9 7 with
  | 1 => .cistern (cisternAddr p (page * Config.pageSize + off)) (bits e 12 10)
      (if entryAddr e = 0 then none else some (entryAddr e + off))
  | 2 => .host (hostAddr (s.field (partReg p 0x48) 19 0) (entryAddr e + off))
  | _ => .frame (entryAddr e + off) none

/-- Bit l of a record's MAP. -/
def State.lineMoved (s : State) (p rec l : Nat) : Bool :=
  (s.word64 (s.recordAddr p rec + 0x80 + 8 * (l / 64))).getLsbD (l % 64)

/-- The agent of a partition's own device work, outside any core. -/
def State.partAgent (s : State) (p : Nat) : Agent := { part := p, tag := s.curTag p, core := none }

/-- Where va lies for an agent, with no effect of the looking: through a migrating entry, the place that holds the line
now (R376). -/
def State.locate (s : State) (ag : Agent) (va : Nat) : Option Loc := do
  let w ← match s.tlbFind ag va with
    | some w => some w
    | none => (s.walk ag.part va).toOption
  if va ≥ Config.vaLimit || !s.entryValid ag.part w.level w.entry then none
  else if bits w.entry 9 7 = 4 then
    let rec_ := bits w.entry 27 16
    let r := s.recordAddr ag.part rec_
    let moved := bits (s.word64 (r + 0x10)) 1 0 = 2 || s.lineMoved ag.part rec_ (va % Config.pageSize / 64)
    some (entryLoc s ag.part (va / Config.pageSize) (va % Config.pageSize) (s.word64 (if moved then r + 8 else r)))
  else leafLoc s ag.part va w

/-- The 8-byte word at va as an agent reads it now, and the location of its line, where it can be read.
(Log 118: DEDUCED) -/
def State.peek (s : State) (ag : Agent) (va : Nat) : Option (Word × Loc) :=
  (s.locate ag va).map fun l => (BitVec.ofNat 64 ((s.visible ag.tag l (s.line l)).toNat / 2 ^ (8 * (va % 64))), l)

/-- The condition of a BARRIER packet on a value (R358). -/
def Packet.meets (k : Packet) (v : Nat) : Bool :=
  let w := (k.words.getD 4 0).toNat
  match (k.words.getD 5 0).toNat with
  | 0 => w ≤ v
  | 1 => v == w
  | _ => v != w

/-- A begun BARRIER packet, by R355's type. -/
def Packet.isBarrier (k : Packet) : Bool := bits (k.words.getD 0 0) 7 0 = 5 && k.begun

/-- After a write to the line at an address, or an interval of R443, each wait on a word of it reads the word again: a
parked task wakes if it differs (R149), a BARRIER is met if its condition holds (R358). (Log 118: DEDUCED) -/
def State.rereadLine (s : State) (line : Nat) : State :=
  let on := fun (l : Loc) => lineOf l.addr = line
  let s1 := s.tasks.foldl (fun s' (n, x, t) =>
    match t.st with
    | .parked (.word va v) =>
      match s.peek { part := tagPart t.tag, tag := t.tag, core := some n } va.toNat with
      | some (w, l) => if on l && w ≠ v then s'.wake n x else s'
      | none => s'
    | _ => s') s
  let see := fun (k : Packet) =>
    if k.isBarrier then
      match s.peek (s.partAgent k.part) (k.words.getD 3 0).toNat with
      | some (w, l) => if on l && k.meets w.toNat then { k with met := true } else k
      | none => k
    else k
  if s1.packets.any Packet.isBarrier then { s1 with packets := s1.packets.map see } else s1

/-- What every write to the line of a location sets off: its monitors fire (R281) and waits on its words read again. -/
def State.written (s : State) (l : Loc) : State :=
  (match l with
    | .frame pa _ => s.fireMonitors (lineOf pa)
    | _ => s).rereadLine (lineOf l.addr)

/-- Bytes put into what the stash copies of a line hold of it. -/
def State.storeCopies (s : State) (line off : Nat) (bs : List Byte) : State :=
  (s.copiesOf line).foldl (fun s (n, e, i) =>
    let at_ := (SMap.get Sector.none ((s.coreAt n).stashEntry e).sectors i).at_.getD 0 % 64
    let lo := max off at_
    let hi := min (off + bs.length) (at_ + 16)
    if lo < hi then s.setRaw (s.sectorAddr n e i + (lo - at_)) ((bs.drop (lo - off)).take (hi - lo)) else s) s

/-- The new contents of a line of device memory go to its home die where that holds it, and to memory where it does not, or
where the line is stale, whose copy a replacement invalidates (R387). (Log 101: DEDUCED) -/
def State.renewLine (s : State) (key : Nat) (mask : BitVec 4) (new : Line) : State :=
  let d := dieOf key
  let die := s.die d
  let through := s.stale new.tag
  let put := fun (c : CLine) =>
    if c.key == key then { c with data := new.data, poison := false, dirty := if through then 0 else c.dirty ||| mask, valid := 15 } else c
  let s1 := if (die.find key).isSome then s.setDie d { die with lines := die.lines.map put, spill := die.spill.map put } else s
  if through || (die.find key).isNone then s1.setRawLine key new else s1

/-- A write of the device, or of the host, to device memory within one line: the bytes go wherever the line is held; its tag
stays, and its stash copies are then recalled (R289, R369). A partial store to a poisoned line, or one to a failed stack, is
dropped, and the flag is then false (R428, R435). (Log 101: DEDUCED; 117: DEDUCED) -/
def State.storeDevice (s : State) (pa : Nat) (bs : List Byte) : State × Bool :=
  let key := lineOf pa
  let off := pa % 64
  let x := s.frameLine key
  if s.stackFailed pa || (x.poison && bs.length < 64) then (s, false)
  else
    let s1 := (s.storeCopies key off bs).renewLine key (sectorMask off bs.length) { data := putBytes x.data off bs, tag := x.tag, poison := false }
    ((s1.evict key).written (.frame pa none), true)

end Sys2Proof.Machine
end

