-- ==== Sys2Proof/Machine/Records.lean ====
section
/-! DEFINITION. The error log (R429 to R434): records, their order within a cycle, injected reports; and the device's own
stores, with the undo log (R439). -/

namespace Sys2Proof.Machine

/-- The bytes of a record (R430). -/
def ErrRec.bytes (e : ErrRec) : List Byte :=
  let head := e.cls + e.sev * 2 ^ 8 + (if e.inj then 2 ^ 10 else 0) + e.kind * 2 ^ 16 + e.index * 2 ^ 24
  toBytes 4 head ++ toBytes 4 e.seq ++ toBytes 8 e.pmask ++ toBytes 8 e.addr ++ toBytes 8 e.detail

/-- The records that the ring holds (R429). -/
def State.ringSize (s : State) : Nat := 2 ^ (s.field (relReg 0x08) 3 0 + 6)

/-- Records written and not consumed (R429). -/
def State.ringUsed (s : State) : Nat := (s.field (relReg 0x10) 31 0 + 2 ^ 32 - s.field (relReg 0x10) 63 32) % 2 ^ 32

/-- A record is written at the place of the ring that its SEQ gives (R430). -/
def State.putRecord (s : State) (e : ErrRec) : State :=
  (s.storeDevice (s.field (relReg 0) 56 6 * 64 + 32 * (e.seq % s.ringSize)) e.bytes).1

/-- The records of an earlier cycle than a record's are no longer kept in mind (R433). -/
def State.keepRecord (s : State) (e : ErrRec) : State :=
  { s with recent := (s.recent.filter fun r => r.time == e.time && r.cycle == e.cycle) ++ [e] }

/-- A record is written as the next of the ring, or counted as lost when the ring is full or off (R430). -/
def State.appendRecord (s : State) (e : ErrRec) : State :=
  let prod := s.field (relReg 0x10) 31 0
  if s.field (relReg 0x08) 4 4 = 0 || s.ringUsed ≥ s.ringSize then
    (s.count (relReg 0x18) 31 0 1).setField (relReg 0x18) 32 32 1
  else
    let x := { e with seq := prod }
    let s1 := ((s.putRecord x).setField (relReg 0x10) 31 0 (prod + 1)).keepRecord x
    if s.field (relReg 0x08) 16 16 = 1 && s.ringUsed = 0 then s1.interrupt (s.field (relReg 0x08) 15 5) else s1

/-- A record of the ring that another of the same unit, made in the same cycle, has to precede (R433).
(Log 141: DEDUCED) -/
def State.yields (s : State) (e r : ErrRec) : Bool :=
  r.time == e.time && r.cycle == e.cycle && r.kind == e.kind && r.index == e.index && r.cls > e.cls &&
    (s.field (relReg 0x10) 31 0 + 2 ^ 32 - r.seq) % 2 ^ 32 ≤ s.ringUsed

/-- A record takes its place by class among those of its unit's cycle: it takes the place of the first of a higher class, which
in its turn moves on (R433). (Log 141: DEDUCED) -/
def State.orderRecord (s : State) (e : ErrRec) : Nat → State
  | 0 => s.appendRecord e
  | fuel + 1 =>
    match s.recent.find? (s.yields e) with
    | none => s.appendRecord e
    | some r =>
      let x := { e with seq := r.seq }
      ({ s.putRecord x with recent := s.recent.map fun y => if y.seq == r.seq then x else y } : State).orderRecord r fuel

/-- An error is recorded (R430, R433). (Log 141: DEDUCED) -/
def State.logError (s : State) (cls sev : Nat) (inj : Bool) (kind index pmask addr detail : Nat) : State :=
  s.orderRecord { time := s.time, cycle := s.front, cls := cls, sev := sev, inj := inj, kind := kind, index := index, pmask := pmask,
                  addr := addr, detail := detail, seq := 0 } s.recent.length

/-- The corrected errors that a unit has counted (R432). -/
def State.corrected (s : State) (kind index : Nat) : Corrected := SMap.get Corrected.zero s.corrections (256 * kind + index)

def State.setCorrected (s : State) (kind index : Nat) (c : Corrected) : State :=
  { s with corrections := SMap.set Corrected.zero s.corrections (256 * kind + index) c }

/-- SEV of a class (R431); classes 3 and 4 take it from the dirty bit of DETAIL. -/
def classSev (cls detail : Nat) : Nat :=
  match cls with
  | 1 => 1 | 3 => detail / 2 ^ 4 % 2 | 4 => detail / 2 ^ 4 % 2 | 5 => 1 | 6 => 1 | 12 => 2 | _ => 0

/-- The partitions that may allocate in a way of die d (R436). -/
def State.sharing (s : State) (d way : Nat) : BitVec 64 :=
  BitVec.ofNat 64 (((List.range 64).filter fun p => (s.field (dcpReg d p) 15 0).testBit way).map (2 ^ ·)).sum

/-- PMASK of an injected record: the partition of the line at its address, for a class that names a physical line;
for class 4 the partitions that share its way. (Log 94: DEDUCED) -/
def State.injectedMask (s : State) (index cls addr detail : Nat) : Nat :=
  if addr = 0 then 0
  else
    match cls with
    | 3 => 2 ^ tagPart (s.line (.frame addr none)).tag
    | 5 => 2 ^ tagPart (s.line (.frame addr none)).tag
    | 4 => (s.sharing index (detail % 16)).toNat
    | _ => 0

/-- The report that an injection asked for is made, and its bit clears (R434); for class 2 it counts as one correction.
(Log 94: DEDUCED) -/
def State.reportInjected (s : State) (kind index cls addr detail : Nat) : State :=
  let mine := fun (a : Armed) => a.kind == kind && a.index == index && a.cls == cls
  let shown := s.armed.any fun a => mine a && a.last
  let s0 : State := { s with armed := s.armed.filter fun a => !mine a }
  let s1 := if shown then s0.setField (relReg 0x28) cls cls 0 else s0
  if cls = 2 then
    let n := (s1.corrected kind index).count + 1
    (s1.logError 2 0 true kind index 0 addr n).setCorrected kind index Corrected.zero
  else s1.logError cls (classSev cls detail) true kind index (s1.injectedMask index cls addr detail) addr detail

/-- A unit's detector of a class makes a check, with the address and detail that it has at hand: it reports if an injection has
been waiting for it (R434). (Log 94: DEDUCED; 142: DEDUCED) -/
def State.checked (s : State) (kind index cls addr detail : Nat) : State :=
  if s.armed.any fun a => a.kind == kind && a.index == index && a.cls == cls then s.reportInjected kind index cls addr detail else s

/-- A write of the device within one line of device memory, a dropped one reported (R435).
(Log 17: DESIGN CHOICE; 101: DEDUCED) -/
def State.storeInPlace (s : State) (pa : Nat) (bs : List Byte) : State :=
  match s.storeDevice pa bs with
  | (s1, true) => s1
  | (s1, false) => s1.logError 6 1 false 3 (stackOf pa) (2 ^ tagPart (s.frameLine (lineOf pa)).tag) (lineOf pa) 1

/-- Bytes stored to device memory, line by line in ascending order (R309). (Log 101: DEDUCED) -/
def State.driverStore (s : State) (pa : Nat) (bs : List Byte) : Nat → State
  | 0 => s
  | fuel + 1 =>
    if bs.isEmpty then s
    else
      let m := min bs.length (64 - pa % 64)
      (s.storeInPlace pa (bs.take m)).driverStore (pa + m) (bs.drop m) fuel

/-- The undo log of partition p takes the old contents of a frame line at its first write in the interval
(R439), and its area in memory holds the entry; a full part of the area loses the entry and says so, once a line.
(Log 18: DESIGN CHOICE) -/
def State.undoLog (s : State) (p : Nat) (pa : Nat) : State :=
  if s.field (partReg p 0xE8) 0 0 = 0 then s
  else if s.undo.any (fun u => u.part == p && u.pa == lineOf pa) then s
  else
    let st := stackOf pa
    let used := (s.undo.filter fun u => u.part == p && u.logged && stackOf u.pa == st).length
    let old := s.rawLine pa
    let s := s.checked 3 st 13 0 st
    if used * 128 + 128 > s.field (partReg p 0xF0) 15 0 * 0x1_0000 then
      let s1 := (s.setField (partReg p 0xF8) 33 33 1).logError 13 0 false 3 st (2 ^ p) 0 st
      { s1 with undo := s1.undo ++ [{ part := p, pa := lineOf pa, data := old.data, tag := old.tag, logged := false }] }
    else
      let entry := lineToBytes old.data ++ toBytes 8 (lineOf pa) ++ toBytes 2 old.tag.toNat ++ List.replicate 54 0
      let area := s.field (partReg p 0xE8) 56 16 * 0x1_0000 + st * s.field (partReg p 0xF0) 15 0 * 0x1_0000
      let s1 := s.driverStore (area + used * 128) entry 3
      { s1 with undo := s1.undo ++ [{ part := p, pa := lineOf pa, data := old.data, tag := old.tag }] }

/-- Bytes that the host, or a save, writes to device memory, line by line in ascending order: each is logged for the
partition whose line it reaches (R309, R439). (Log 17: DESIGN CHOICE; 18: DESIGN CHOICE; 101: DEDUCED) -/
def State.hostStore (s : State) (pa : Nat) (bs : List Byte) : Nat → State
  | 0 => s
  | fuel + 1 =>
    if bs.isEmpty then s
    else
      let m := min bs.length (64 - pa % 64)
      ((s.undoLog (tagPart (s.frameLine (lineOf pa)).tag) pa).storeInPlace pa (bs.take m)).hostStore (pa + m) (bs.drop m) fuel

end Sys2Proof.Machine
end

