-- ==== Sys2Proof/Machine/Cache.lean ====
section
/-! DEFINITION. What the die caches and cache parts hold (R66, R285, R297 to R300, R387): write-back, the choice of a way,
fills, copies in other dies, and the placing of a written line. -/

namespace Sys2Proof.Machine

/-- The tag that a visit of the sweeper leaves on an element (R391): a stale one becomes the null tag of its partition.
(Log 139: DEDUCED) -/
def State.sweepTag (s : State) (t : Tag) : Tag :=
  if tagGen t ≠ 0 && tagGen t ≠ (s.ten (tagPart t)).gen.toNat then mkTag (tagPart t) 0 else t

/-- The tag of a line that moves between memory and the caches: a pass of the sweeper that runs visits it on its way, so
that it misses none (R391, R393). (Log 139: DEDUCED) -/
def State.passTag (s : State) (t : Tag) : Tag := if s.sweeper.running then s.sweepTag t else t

/-- A whole line of device memory written below the caches, whose copy goes. (Log 139: DEDUCED) -/
def State.putFrame (s : State) (pa : Nat) (x : Line) : State :=
  (s.dropLine (dieOf pa) (lineOf pa)).setRawLine pa { x with tag := s.passTag x.tag }

/-- A whole line sent to its frame by a die: on a failed stack it is dropped and reported (R428).
(Log 18: DESIGN CHOICE) -/
def State.sendFrame (s : State) (p pa : Nat) (x : Line) : State :=
  if s.stackFailed pa then s.logError 6 1 false 3 (stackOf pa) (2 ^ p) (lineOf pa) 1 else s.putFrame pa x

/-- A dirty line of a frame goes to memory, its old contents logged (R439); a line that memory holds under another address is
written there by its caller. A clean line goes nowhere. (Log 18: DESIGN CHOICE; 139: DEDUCED) -/
def State.writeBack (s : State) (c : CLine) : State :=
  if c.dirty = 0 then s
  else
    let s1 := s.undoLog (tagPart c.tag) c.key
    s1.setRawLine c.key { c.overlay (s1.rawLine c.key) with tag := s1.passTag c.tag }

/-- The set of a die cache that a line belongs to: 128 MiB in 16 ways are 131,072 sets (R297). (Log 10: DESIGN CHOICE) -/
def lineSet (key : Nat) : Nat := Config.cacheSet (key / 64) % 131072

/-- The lines that die d holds for partition p count for less than DCP.QUOTA: its lines that are not stale, and its
reserved cistern capacity (R298, R299, R387). -/
def State.belowQuota (s : State) (d p : Nat) : Bool :=
  let die := s.die d
  (die.lines.filter fun c => c.owner == p && !c.reserved && !s.stale c.tag).length +
    ((die.reserved.filter fun r => r.part == p).map (·.lines)).sum < s.field (dcpReg d p) 37 16

/-- The ways of die d in which partition p may allocate (R298). -/
def State.waysOf (s : State) (d p : Nat) : List Nat := (List.range 16).filter fun w => (s.field (dcpReg d p) 15 0).testBit w

/-- The way that a fill by partition p takes on die d, with the line it replaces (R299, R387): a stale line before any
other; below its quota a free way, or the least recently used line that is no reserved one; at it, its own. -/
def State.chooseWay (s : State) (d p key : Nat) (below : Bool) : Option (Nat × Option CLine) :=
  let ways := s.waysOf d p
  let here := (s.die d).lines.filter fun c => lineSet c.key == lineSet key
  let mine := here.filter fun c => ways.contains c.way && !c.reserved
  let newest := fun (c : CLine) => (c.way, some c)
  match mine.reverse.find? (fun c => s.stale c.tag) with
  | some c => some (newest c)
  | none =>
    if below then
      match ways.find? (fun w => here.all fun c => c.way != w) with
      | some w => some (w, none)
      | none => mine.reverse.head?.map newest
    else (mine.reverse.find? (fun c => c.owner == p)).map newest

/-- A line leaves die d's cache for another (R299, R387): a dirty one is written back unless it is stale, and the directory
of its home gives it up. -/
def State.replace (s : State) (d : Nat) (v : CLine) : State :=
  let s1 := if s.stale v.tag then s else s.writeBack v
  if isHome d v.key then s1.evict v.key else s1

/-- A line placed in die d's cache for partition p, its victim written back; with no way to take, nothing is
kept there and the flag is false (R299). -/
def State.insertLine (s : State) (d p : Nat) (c : CLine) (below : Bool) : State × Bool :=
  match s.chooseWay d p c.key below with
  | none => (s, false)
  | some (w, victim) =>
    let s1 := match victim with
      | some v => s.replace d v
      | none => s
    let die := s1.die d
    let kept := die.lines.filter fun x => x.key != c.key && victim != some x
    (s1.setDie d { die with lines := { c with way := w, owner := p, tag := s1.passTag c.tag } :: kept }, true)

/-- The held line with a key becomes the most recently used. -/
def State.touchLine (s : State) (d key : Nat) : State :=
  let die := s.die d
  match die.lines.find? (fun c => c.key == key) with
  | some c => s.setDie d { die with lines := c :: die.lines.filter fun x => x.key != key }
  | none => s

/-- A held line takes the sectors of a mask that it does not hold (R297). -/
def State.fillSectors (s : State) (d key : Nat) (mask : BitVec 4) (data : LineBits) : State :=
  let die := s.die d
  let take := fun (c : CLine) =>
    if c.key == key then { c with data := sectorBits (mask &&& ~~~ c.valid) c.data data, valid := c.valid ||| mask } else c
  s.setDie d { die with lines := die.lines.map take }

/-- A clean line filled into die d's cache for partition p with some of its sectors, most recently used (R297, R299). -/
def State.fill (s : State) (d p key : Nat) (x : Line) (mask : BitVec 4) : State :=
  let c : CLine := { key := key, way := 0, owner := p, tag := x.tag, data := x.data, dirty := 0, poison := x.poison,
                     reserved := false, doomed := 0, valid := mask }
  (s.insertLine d p c (s.belowQuota d p)).1

/-- A clean copy of host memory in a die's cache, under the tag of the agent that brings it in (R66). (Log 11: DESIGN
CHOICE) -/
def State.copyHost (s : State) (d p : Nat) (tag : Tag) (key : Nat) : State :=
  (s.dropLine d key).fill d p key { s.rawLine key with tag := tag } 15

/-- A read that hits a copy of host memory in die d's cache: one that the tag rule denies is replaced by a fresh one
(R66). -/
def State.hitHost (s : State) (d p : Nat) (tag : Tag) (key : Nat) : State :=
  match (s.die d).find key with
  | some c => if s.readable tag c.tag then s.touchLine d key else s.copyHost d p tag key
  | none => s.copyHost d p tag key

/-- A line read by a core of another die than its home leaves a clean copy in that die's cache, if the tag rule gives the
reader the line (R297, R299, R300); a cistern line leaves none (R302). (Log 11: DESIGN CHOICE) -/
def State.shareLine (s : State) (core : Option Nat) (p : Nat) (tag : Tag) (l : Loc) (x : Line) (mask : BitVec 4) : State :=
  match core with
  | none => s
  | some n =>
    let d := dieOfCore n
    let key := lineOf l.addr
    if isHome d key || !s.grants tag l x then s
    else
      match l with
      | .host _ => s.hitHost d p tag key
      | _ =>
        match (s.die d).find key with
        | some _ => (s.fillSectors d key mask x.data).touchLine d key
        | none => s.fill d p key x mask

/-- A read of n bytes from offset off of the line of a location, by partition p under a tag: a hit that the tag rule
grants is served in place, a miss of a frame line may allocate the sectors that it touches (R297, R299, R300), and a
copy of host memory that the tag rule denies is replaced by a fresh one (R66). (Log 11: DESIGN CHOICE) -/
def State.fetchLine (s : State) (core : Option Nat) (p : Nat) (tag : Tag) (l : Loc) (off n : Nat) : State × Line :=
  let key := lineOf l.addr
  let held := s.heldLine l
  let d := l.home
  let mask := sectorMask off n
  let s1 := match l with
    | .host _ => s.hitHost d p tag key
    | .cistern _ _ _ => if s.grants tag l held then s.touchLine d key else s
    | .frame _ _ =>
      match (s.die d).find key with
      | some _ => if s.grants tag l held then (s.fillSectors d key mask held.data).touchLine d key else s
      | none => s.fill d p key held mask
  (s1.shareLine core p tag l held mask, s.line l)

/-- The cache part of a core's local store holds a line of global memory under a tag, for want of room in place of the one
least recently used (R285): a line that the tag rule gives the core (R300), and no cistern line (R302); a line of host memory
is under the tag of the agent that brings it in (R66). (Log 115: DESIGN CHOICE) -/
def State.holdPart (s : State) (core : Option Nat) (tag : Tag) (l : Loc) (x : Line) : State :=
  let line := lineOf l.addr
  match core with
  | some n =>
    if isCistern line || !s.grants tag l x then s
    else
      let k := s.coreAt n
      let t := if isHost line then tag else x.tag
      s.setCoreAt n { k with cachePart := ((line, t) :: k.cachePart.filter (·.1 != line)).take (1024 * (12 - k.scr)) }
  | none => s

/-- The new contents of a line of device memory, placed by partition p with some of its sectors dirty (R299, R300): a held
line is updated and moves into p's ways when it sits outside them; with no way to take, the store is written through.
The other sectors of a line that was not held stay in memory, under the same tag. -/
def State.placeLine (s : State) (p pa : Nat) (x : Line) (dirty : BitVec 4) : State :=
  let key := lineOf pa
  let d := dieOf pa
  let die := s.die d
  let new := fun (was valid : BitVec 4) (way : Nat) =>
    ({ key := key, way := way, owner := p, tag := x.tag, data := x.data, dirty := was ||| dirty,
       poison := x.poison, reserved := false, doomed := 0, valid := valid ||| dirty } : CLine)
  let insert := fun (s : State) (c : CLine) =>
    let (s1, ok) := s.insertLine d p c (s.belowQuota d p)
    if ok then s1 else s1.setRawLine key x
  match die.find key with
  | some o =>
    if (s.waysOf d p).contains o.way then
      s.setDie d { die with lines := new o.dirty o.valid o.way :: die.lines.filter fun y => y.key != key }
    else insert (s.dropLine d key) (new o.dirty o.valid 0)
  | none => insert s (new 0 (if (s.rawLine key).tag = x.tag then 0 else 15) 0)

end Sys2Proof.Machine
end

