-- ==== Sys2Proof/Machine/Detect.lean ====
section
/-! DEFINITION. The checks that detectors make when an access reaches its line (R434). -/

namespace Sys2Proof.Machine

/-- The checks of the die cache of a line on an access to it: of its data and its tag entry, with what they have at hand, and of
its spill buffer where it is a cistern line (R431). (Log 142: DEDUCED) -/
def State.cacheChecks (s : State) (l : Loc) : State :=
  let d := l.home
  let key := lineOf l.addr
  let held := (s.die d).find key
  let pa := match l with
    | .frame a _ => lineOf a
    | .host _ => 0
    | .cistern _ _ _ => ((s.die d).frameOf key).getD 0
  let dirty := match held with
    | some c => if c.dirty = 0 then 0 else 2 ^ 4
    | none => 0
  let way := match held with
    | some c => c.way % 2 ^ 4
    | none => 0
  let s1 := (s.checked 2 d 2 pa 0).checked 2 d 3 pa dirty
  let s2 := s1.checked 2 d 4 pa (way + dirty + lineSet key * 2 ^ 8)
  match l with
  | .cistern a _ _ => s2.checked 2 d 7 (a / Config.pageSize * Config.pageSize % 2 ^ 56) d
  | _ => s2

/-- The checks of the stack that a line is read from (R431). (Log 142: DEDUCED) -/
def State.stackChecks (s : State) (l : Loc) : State :=
  match l with
  | .frame pa _ =>
    if ((s.die l.home).find (lineOf pa)).isSome then s
    else (s.checked 3 (stackOf pa) 2 (lineOf pa) 0).checked 3 (stackOf pa) 5 (lineOf pa) (pa / 64 % 64)
  | _ => s

/-- An access has been translated: the walker's TLB, the line's die cache and its stack check what they read, and the unit that
a store or an atomic meets checks for poison (R431, R434). (Log 142: DEDUCED) -/
def State.accessed (s : State) (ag : Agent) (va : Nat) (acc : Access) (l : Loc) : State :=
  if s.armed.isEmpty then s
  else
    let walker := match ag.core with | some n => dieOfCore n | none => l.home
    let s1 := ((s.checked 6 walker 2 va 0).cacheChecks l).stackChecks l
    match acc with
    | .write => let u := s1.poisonUnit l; s1.checked u.1 u.2 6 (lineOf va) 1
    | .atomic => s1.checked 2 l.home 6 (lineOf va) 2
    | _ => s1

end Sys2Proof.Machine
end

