-- ==== Sys2Proof/Machine/Xlate.lean ====
section
/-! DEFINITION. Translation (R218, R369 to R371): the checks on a leaf, accessed and dirty bits with the dirty log,
request rings, migrating pages; and the placing of cistern lines (R301 to R303). -/

namespace Sys2Proof.Machine

/-- An entry of a request ring (R374). -/
def postingBytes (x : Posting) : List Byte :=
  toBytes 8 (x.page % 2 ^ 39 + x.die * 2 ^ 39 + x.kind * 2 ^ 44) ++ toBytes 8 x.detail

/-- Space is free in partition p's request ring. -/
def State.ringSpace (s : State) (p : Nat) : Bool :=
  let r := partReg p 0x58
  (s.field r 31 0 + 2 ^ 32 - s.field r 63 32) % 2 ^ 32 < 2 ^ (s.field (partReg p 0x50) 3 0 + 4)

/-- A posting written to the ring; a ring that was empty raises the event vector (R374). -/
def State.writePosting (s : State) (p : Nat) (x : Posting) : State :=
  let r := partReg p 0x58
  let prod := s.field r 31 0
  let size := 2 ^ (s.field (partReg p 0x50) 3 0 + 4)
  let a := s.field (partReg p 0x50) 56 6 * 64 + 16 * (prod % size)
  let s1 := (s.storeInPlace a (postingBytes x)).setField r 31 0 (prod + 1)
  if prod == s.field r 63 32 && s.field (partReg p 0x90) 11 11 = 1 then
    s1.interrupt (s.field (partReg p 0x90) 10 0)
  else s1

/-- Ring entries posted and not consumed, read back from the ring. -/
def State.ringWaiting (s : State) (p : Nat) : List (Nat × Nat) :=
  let r := partReg p 0x58
  let cons := s.field r 63 32
  let n := (s.field r 31 0 + 2 ^ 32 - cons) % 2 ^ 32
  let size := 2 ^ (s.field (partReg p 0x50) 3 0 + 4)
  let base := s.field (partReg p 0x50) 56 6 * 64
  (List.range (min n size)).map fun i =>
    let a := base + 16 * ((cons + i) % size)
    ((s.word64 a).toNat, (s.word64 (a + 8)).toNat)

/-- A posting merges with one already waiting for the same page: page requests for the same access, and
spills (R374). -/
def State.alreadyWaiting (s : State) (p : Nat) (x : Posting) : Bool :=
  let same := fun (kind page detail : Nat) =>
    kind = x.kind && page = x.page % 2 ^ 39 && ((x.kind = 1 && detail = x.detail) || x.kind = 2)
  (x.kind = 1 || x.kind = 2) &&
    ((s.ringWaiting p).any (fun (h, d) => same (h / 2 ^ 44 % 16) (h % 2 ^ 39) d) ||
      (SMap.get [] s.held p).any fun y => same y.kind (y.page % 2 ^ 39) y.detail)

/-- A posting is made, held while the ring is full, or does not fit (R374). (Log 67: DEDUCED) -/
def State.post (s : State) (p : Nat) (x : Posting) : Option State :=
  if s.alreadyWaiting p x then some s
  else
    let waiting := SMap.get [] s.held p
    if waiting.isEmpty && s.ringSpace p then some (s.writePosting p x)
    else if waiting.length < 256 then
      some (({ s with held := SMap.set [] s.held p (waiting ++ [x]) } : State).setField (partReg p 0x88) 1 1 1)
    else none

/-- The dirty log takes an entry for the leaf, or overflows (R373). -/
def State.logDirty (s : State) (p va level : Nat) : State :=
  let r := partReg p 0x68
  let prod := s.field r 31 0
  let size := 2 ^ (s.field (partReg p 0x60) 3 0 + 8)
  if (prod + 2 ^ 32 - s.field r 63 32) % 2 ^ 32 ≥ size then s.setField (partReg p 0x88) 0 0 1
  else
    let page := va / leafSize level * leafSize level / 2 ^ 16
    let a := s.field (partReg p 0x60) 56 6 * 64 + 8 * (prod % size)
    (s.storeInPlace a (toBytes 8 (page + level * 2 ^ 39))).setField r 31 0 (prod + 1)

/-- An 8-byte word of device memory written by the device: an entry by the walker, a record's own fields (R369). -/
def State.putWord (s : State) (pa : Nat) (v : Word) : State := s.storeInPlace pa (toBytes 8 v.toNat)

/-- A and D as an access through a leaf needs them (R370): A at the first access, D with a log entry at the
first write. The flag says whether the entry changed. -/
def State.markEntry (s : State) (p va : Nat) (w : Stopped) (wr : Bool) : State × Word :=
  let needA := bits w.entry 4 4 = 0
  let needD := wr && bits w.entry 3 3 = 0
  let e := if needA then putBits w.entry 4 4 1 else w.entry
  let e := if needD then putBits e 3 3 1 else e
  if needA || needD then
    let s1 := s.putWord w.slot e
    (if needD then s1.logDirty p va w.level else s1, e)
  else (s, w.entry)

/-- The page of a cistern location has a reservation (R301). -/
def State.isReserved (s : State) (p va home : Nat) : Bool :=
  (s.die home).reserved.any fun r => r.part == p && r.page == va / Config.pageSize

/-- A spill event for a page of partition p at die d (R303): where the ring and its held postings have no space, the
event waits (R374). -/
def State.postSpill (s : State) (p d page : Nat) : State :=
  let die := s.die d
  let n := (die.spill.filter fun c => c.key / Config.pageSize == cisternAddr p (page * Config.pageSize) / Config.pageSize).length
  let mine := fun (x : Nat × Nat) => x == (p, page)
  match if n = 0 then some s else s.post p { page := page, die := d, kind := 2, detail := n } with
  | some t => t.setDie d { t.die d with unposted := (t.die d).unposted.filter fun x => !mine x }
  | none => if die.unposted.any mine then s else s.setDie d { die with unposted := die.unposted ++ [(p, page)] }

/-- A cistern line placed at its home die (R302, R303): in place where it is held; else in a way of the set
that the partition may use; where its own cistern lines hold every such way, the least recently used of them
goes to its frame, once that may be written (R428), or to the spill buffer, and a full buffer stalls the access. A kept line
of a lost tag entry takes its partitions with it (R436). (Log 23: DEDUCED) -/
def State.placeCistern (s : State) (p : Nat) (l : Loc) (x : Line) (dirty : BitVec 4) (doomed : BitVec 64) : Except XErr State :=
  let key := lineOf l.addr
  let d := l.home
  let die := s.die d
  let c : CLine := { key := key, way := 0, owner := p, tag := s.passTag x.tag, data := x.data, dirty := dirty,
                     poison := x.poison, reserved := true, doomed := doomed }
  if die.lines.any (fun y => y.key == key) then
    let was := match die.lines.find? (fun y => y.key == key) with | some o => o | none => c
    let others := die.lines.filter fun y => y.key != key
    .ok (s.setDie d { die with lines := { c with way := was.way, dirty := was.dirty ||| dirty } :: others })
  else if die.spill.any (fun y => y.key == key) then
    let spill := die.spill.map fun y => if y.key == key then { c with dirty := y.dirty ||| dirty } else y
    .ok (s.setDie d { die with spill := spill })
  else
    match s.chooseWay d p key true with
    | some _ => .ok (s.insertLine d p c true).1
    | none =>
      let mine := die.lines.filter fun y =>
        lineSet y.key == lineSet key && (s.waysOf d p).contains y.way && y.owner == p && y.reserved
      let leaver : CLine := match mine.reverse with | y :: _ => y | [] => c
      let clean := leaver.dirty == 0
      let page := (leaver.key - 2 ^ 104) % 2 ^ 56 / Config.pageSize
      let rest := die.lines.filter fun y => y.key != leaver.key
      let enter := fun (s : State) => if leaver.key == key then s
        else (s.setDie d { (s.die d) with lines := { c with way := leaver.way } :: rest }).evict leaver.key
      match die.frameOf leaver.key with
      | some pa =>
        if clean then .ok (enter s)
        else if !s.stackReady pa then .error .wait
        else .ok ((enter s).sendFrame p pa leaver.line)
      | none =>
        if clean && leaver.key != key then .ok (enter s)
        else if die.spill.length < 64 then
          let s1 := enter s
          .ok ((s1.setDie d { (s1.die d) with spill := (s1.die d).spill ++ [{ leaver with tag := s1.passTag leaver.tag }] }).postSpill p d page)
        else .error (.spill d page)

/-- A line of a location placed where the location says, a frame's old contents logged (R439). -/
def State.placeAt (s : State) (p : Nat) (l : Loc) (x : Line) (doomed : BitVec 64) : Except XErr State :=
  match l with
  | .host a => .ok (s.setRaw (lineOf a) (lineToBytes x.data))
  | .frame pa _ => .ok ((s.undoLog p pa).placeLine p pa x 15)
  | .cistern _ _ _ => s.placeCistern p l x 15 doomed

/-- One line of a page is charged at die d, or given up there (R304). (Log 68: DEDUCED) -/
def Die.charge (d : Die) (p page : Nat) (add : Bool) : Die :=
  match d.reserved.find? fun r => r.part == p && r.page == page with
  | none => if add then { d with reserved := d.reserved ++ [{ part := p, page := page, lines := 1 }] } else d
  | some r =>
    let other := d.reserved.filter fun y => !(y.part == p && y.page == page)
    let n := if add then r.lines + 1 else r.lines - 1
    { d with reserved := if n = 0 then other else other ++ [{ r with lines := n }] }

/-- The capacity of one moved line: charged at the new home, released at the old one (R304). (Log 68: DEDUCED) -/
def State.moveCharge (s : State) (p page : Nat) (old new : Loc) : State :=
  let s1 := match old with
    | .cistern _ h _ => s.setDie h ((s.die h).charge p page false)
    | _ => s
  match new with
  | .cistern _ h _ => s1.setDie h ((s1.die h).charge p page true)
  | _ => s1

/-- A migration faults (R376): STATE 3 with its fault. (Log 69: DEDUCED) -/
def State.migrationFault (s : State) (p rec code : Nat) : State :=
  let a := s.recordAddr p rec + 0x10
  let s1 := s.putWord a (putBits (putBits (s.word64 a) 1 0 3) 15 8 code)
  { s1 with moving := s1.moving.filter (· != (p, rec)) }

/-- Why a line cannot move (R376): 1 a source that the partition may not read, 2 a destination whose stack has
failed; 0 otherwise. (Log 69: DEDUCED) -/
def State.moveFault (s : State) (p : Nat) (old new : Loc) : Nat :=
  let src : Bool := match old with | .host _ => s.field (partReg p 0x48) 20 20 = 0 | _ => false
  if src then 1 else if s.stackFailedAt new then 2 else 0

/-- A line of a migrating page that is present at neither place of a home move: it is marked moved without being written
(R377). -/
def State.absentLine (s : State) (old new : Loc) : Bool :=
  match old, new with
  | .cistern a h b, .cistern _ _ _ =>
    ((s.die h).find (lineOf a)).isNone && (s.backingOf h a b).isNone
  | _, _ => false

/-- The home die of a cistern location knows of its page's backing (R378). (Log 120: DEDUCED) -/
def State.learnFrame (s : State) (p va : Nat) (l : Loc) : State :=
  match l with
  | .cistern _ h b => s.setDie h ((s.die h).learn p (va / Config.pageSize) (b.getD 0 / Config.pageSize * Config.pageSize))
  | _ => s

/-- Line l of a migrating page is marked moved, and its capacity with it (R304, R376). -/
def State.markMoved (s : State) (p rec page l : Nat) (old new : Loc) : State :=
  let a := s.recordAddr p rec + 0x80 + 8 * (l / 64)
  (s.putWord a (s.word64 a ||| BitVec.ofNat 64 (2 ^ (l % 64)))).moveCharge p page old new

/-- A line leaves its old place (R377), poison that it carries reported (R431). (Log 103: DEDUCED) -/
def State.leavePlace (s : State) (p va : Nat) (old : Loc) (x : Line) : State :=
  let s1 := match old with
    | .cistern a h _ => s.dropLine h (lineOf a)
    | _ => s
  let u := s.poisonUnit old
  if x.poison then s1.logError 6 1 false u.1 u.2 (2 ^ p) va 4 else s1

/-- The line of a location as a move of partition p reads it: what comes from host memory, which holds no tags, is then under
the partition's tag (R66, R376). (Log 69: DEDUCED) -/
def State.movedLine (s : State) (p : Nat) (old : Loc) : Line :=
  match old with
  | .host _ => { s.line old with tag := s.curTag p }
  | _ => s.line old

/-- The partitions whose step removes the line of a location, where a lost tag entry has left one (R436). -/
def State.doomOf (s : State) (l : Loc) : BitVec 64 :=
  match (s.die l.home).find (lineOf l.addr) with
  | some c => c.doomed
  | none => 0

/-- The line of a migrating page moves: it is read at the old place, written at the new one, and its bit is
set (R376). A move that cannot be made faults the migration. -/
def State.moveLine (s : State) (p rec page l : Nat) : Except XErr State :=
  let r := s.recordAddr p rec
  let old := entryLoc s p page (64 * l) (s.word64 r)
  let new := entryLoc s p page (64 * l) (s.word64 (r + 8))
  let x := s.movedLine p old
  if !s.locReady old || !s.locReady new then .error .wait
  else if s.moveFault p old new ≠ 0 then .ok (s.migrationFault p rec (s.moveFault p old new))
  else if s.absentLine old new then .ok (s.markMoved p rec page l old new)
  else
    match ((s.learnFrame p (page * Config.pageSize) new).leavePlace p (page * Config.pageSize + 64 * l) old x).placeAt p new x (s.doomOf old) with
    | .ok s1 => .ok (s1.markMoved p rec page l old new)
    | .error e => .error e

/-- Through a migrating entry (R376): the access waits while the record is idle; else the line moves first if
it has not, and the access is performed at the new place. Where the line cannot move, the access waits for the pump to
fault the migration. (Log 69: DEDUCED) -/
def State.throughMigration (s : State) (p va level slot : Nat) (e : Word) : Except XErr (State × Loc) :=
  let ri := bits e 27 16
  let r := s.recordAddr p ri
  let page := va / Config.pageSize
  let off := va % Config.pageSize
  let st := bits (s.word64 (r + 0x10)) 1 0
  if r + 256 > Config.physLimit then .error (.missing r)
  else if !s.stackReady r || st = 0 then .error .wait
  else
    let new := entryLoc s p page off (s.word64 (r + 8))
    if st = 2 || s.lineMoved p ri (off / 64) then .ok (s, new)
    else if st = 3 then .error (.fault 1 level false slot)
    else
      match s.moveLine p ri page (off / 64) with
      | .ok s1 => if s1.lineMoved p ri (off / 64) then .ok (s1, new) else .error .wait
      | .error x => .error x

/-- Which entry types an access may use (R368): `special` is WATOM, WATOMR and PCOPYR, `atomg` is ATOMG,
`graph` is a graph record. -/
inductive Use where
  | plain | fetch | special | atomg | graph
  deriving DecidableEq, Repr

def typeAllowed (u : Use) (e : Word) : Bool :=
  let ty := bits e 9 7
  match u with
  | .plain => true
  | .fetch => ty = 0 || ty = 5
  | .special => !(ty = 2 || (ty = 1 && entryAddr e = 0))
  | .atomg => ty != 2
  | .graph => ty = 0 || ty = 4 || ty = 5

/-- The checks of a leaf for an access, in order (R218, R273, R368). -/
def State.leafCheck (s : State) (p va : Nat) (acc : Access) (u : Use) (w : Stopped) : Except XErr Unit :=
  let ty := bits w.entry 9 7
  let wr := acc == .write || acc == .atomic
  if !s.entryValid p w.level w.entry then .error (.fault 1 w.level (bits w.entry 0 0 = 0 && bits w.entry 5 5 = 1) w.slot)
  else if ty = 3 then .error (.fault 4 w.level false w.slot)
  else if (wr && bits w.entry 1 1 = 0) || (acc == .exec && bits w.entry 2 2 = 0) then .error (.fault 2 w.level false w.slot)
  else if !typeAllowed u w.entry then .error (.fault 6 w.level false w.slot)
  else if ty = 1 && !s.isReserved p va (bits w.entry 12 10) then .error (.fault 5 w.level false w.slot)
  else .ok ()

/-- The place of an access through a leaf that has passed its checks: it waits for a stack that is not READY (R428);
a wellhead update finds no frame behind a cistern line that has none (R368), and waits for the die to learn of a late
one (R378). -/
def State.enterLeaf (s : State) (ag : Agent) (va : Nat) (u : Use) (w : Stopped) : Except XErr (State × Loc) := do
  let (s1, l) ← if bits w.entry 9 7 = 4 then s.throughMigration ag.part va w.level w.slot w.entry
    else match leafLoc s ag.part va w with
      | some l => Except.ok (s, l)
      | none => .error (.fault 1 w.level false w.slot)
  let s2 := s1.learnFrame ag.part va l
  if !s2.locReady l then .error .wait
  else
    match l with
    | .cistern a h b =>
      if u == .special && b.isNone then .error (.fault 6 w.level false w.slot)
      else if u == .special && ((s2.die h).frameOf a).isNone then .error .wait
      else .ok (s2, l)
    | _ => .ok (s2, l)

/-- The translation of va for an access (R218 checks 2 to 4, R273, R367 to R370): the location, and the
state with A and D set, the TLB filled and a migrating line moved. A cached entry decides as it was cached; only an
update of it that finds the entry changed walks again and decides from the new value. -/
def State.translate (s : State) (ag : Agent) (va : Nat) (acc : Access) (u : Use) : Except XErr (State × Loc) :=
  if va ≥ Config.vaLimit then .error (.fault 3 0 false 0)
  else do
    let hit := s.tlbFind ag va
    let wr := acc == .write || acc == .atomic
    let w0 ← match hit with
      | some w => Except.ok w
      | none => s.walk ag.part va
    s.leafCheck ag.part va acc u w0
    let update := bits w0.entry 4 4 = 0 || (wr && bits w0.entry 3 3 = 0)
    let w ← if update && hit.isSome && s.entryAt w0.slot != w0.entry then s.walk ag.part va else Except.ok w0
    s.leafCheck ag.part va acc u w
    let (s1, e) := s.markEntry ag.part va w wr
    let (s2, l) ← (s1.tlbPut ag va { w with entry := e }).enterLeaf ag va u { w with entry := e }
    .ok (s2.accessed ag va acc l, l)

end Sys2Proof.Machine
end

