-- ==== Sys2Proof/Machine/Mem.lean ====
section
/-! DEFINITION. The accesses of tasks and engines to global memory through translation, and the write-back and recall of
stash copies (R288 to R290, R308 to R311). -/

namespace Sys2Proof.Machine

/-- The copy of a line of host memory that its home die's cache holds, after a write under a tag (R66). -/
def State.renewHost (s : State) (p : Nat) (tag : Tag) (key : Nat) : State :=
  match (s.die 0).find key with
  | some _ => s.copyHost 0 p tag key
  | none => s

/-- A write of bytes within one line at a location (R311, R380, R435): dropped and counted if Land fails;
dropped and reported if it covers only part of a poisoned line, or lies on a failed stack (R428); else the undo log takes the old line, the
line is stamped and placed, monitors fire and waits on its words read again.
(Log 11: DESIGN CHOICE; 103: DEDUCED; 137: DEDUCED) -/
def State.writePart (s : State) (p : Nat) (tag : Tag) (l : Loc) (va : Nat) (bs : List Byte) : Except XErr State :=
  if !s.lands tag then .ok (s.countDrop tag)
  else
    let x := s.heldLine l
    let off := l.addr % 64
    let u := s.poisonUnit l
    let dirty := if x.tag = tag then sectorMask off bs.length else 15
    if s.stackFailedAt l || (x.poison && bs.length < 64) then .ok (s.logError 6 1 false u.1 u.2 (2 ^ p) (lineOf va) 1)
    else
      match l with
      | .host a => .ok (((s.setRaw a bs).renewHost p tag (lineOf a)).written l)
      | .frame pa _ =>
        .ok (((s.undoLog p pa).placeLine p pa (x.merge tag off bs) dirty).written l)
      | .cistern _ _ _ =>
        match s.placeCistern p l (x.merge tag off bs) dirty 0 with
        | .ok s1 => .ok (s1.written l)
        | .error e => .error e

/-- The entry of the quad's cores that covers an offset of core n's store: its core, number and contents. -/
def State.stashAt (s : State) (n off : Nat) : Option (Nat × Nat × Stash) :=
  let a := memberOf n * 2 ^ 20 + off
  (List.range 4).findSome? fun m =>
    let c := quadOf n * 4 + m
    ((s.coreAt c).stash.find? fun (_, e) => e.active && e.base ≤ a && a < e.base + e.size).map fun (e, x) => (c, e, x)

/-- The agent of a core's stash entry. -/
def stashAgent (n : Nat) (e : Stash) : Agent := { part := tagPart e.tag, tag := e.tag, core := some n }

/-- A sector of a stash entry. -/
def State.sector (s : State) (n e i : Nat) : Sector := SMap.get Sector.none ((s.coreAt n).stashEntry e).sectors i

def State.setSector (s : State) (n e i : Nat) (c : Sector) : State :=
  let k := s.coreAt n
  let x := k.stashEntry e
  s.setCoreAt n (k.setStash e { x with sectors := SMap.set Sector.none x.sectors i c })

/-- A fault that a write-back meets is recorded on its entry (R290). -/
def State.recordStashFault (s : State) (n e : Nat) (info va : Nat) : State :=
  let k := s.coreAt n
  s.setCoreAt n (k.setStash e { k.stashEntry e with fault := some (info, BitVec.ofNat 64 va) })

/-- A dirty sector written at a location, under the local line's tag, is clean (R290). -/
def State.writeSector (s : State) (n e i : Nat) (l : Loc) (va : Nat) : Except XErr State :=
  let a := s.sectorAddr n e i
  let tag := SMap.get nullTag s.tags (a / 64)
  match s.writePart (tagPart tag) tag l va (s.rawBytes a 16) with
  | .error e => .error e
  | .ok s1 => .ok (s1.setSector n e i { s1.sector n e i with dirty := false })

/-- A dirty sector is written back through the translation current now (R290): a fault leaves it dirty and is recorded
on the entry, and where the write must wait nothing has happened. A write that cannot land is dropped (R311). -/
def State.writebackSector (s : State) (n e i : Nat) : Except XErr State :=
  let x := (s.coreAt n).stashEntry e
  if !(s.sector n e i).dirty then .ok s
  else
    let va := x.glob + 16 * i
    let tag := SMap.get nullTag s.tags (s.sectorAddr n e i / 64)
    if !s.lands tag then .ok ((s.countDrop tag).setSector n e i { s.sector n e i with dirty := false })
    else
      match s.translate (stashAgent n x) va .write .plain with
      | .error (.fault code level _ _) => .ok (s.recordStashFault n e (xlateInfo .write code level true) va)
      | .error err => .error err
      | .ok (s1, l) => s1.writeSector n e i l va

/-- A sector is unfilled; one whose write-back has faulted keeps its data for its own core, and stands for its line no
longer (R290). (Log 66: DEDUCED; 117: DEDUCED) -/
def State.unfill (s : State) (n e i : Nat) : State :=
  let now := s.sector n e i
  s.setSector n e i (if now.dirty then { now with at_ := none } else Sector.none)

/-- A sector is written back if it is dirty, and then unfilled (R289). (Log 117: DEDUCED) -/
def State.giveUpSector (s : State) (n e i : Nat) : Except XErr State := do
  let s1 ← s.writebackSector n e i
  return s1.unfill n e i

/-- The stash copies of a line are given up, but for those of a keeper (R289): each dirty sector is written back, and
every sector of the line is then unfilled. (Log 117: DEDUCED) -/
def State.giveUpCopies (s : State) (line : Nat) (keep : Nat → Nat → Nat → Bool) : Except XErr State :=
  ((s.copiesOf line).filter fun (n, e, i) => !keep n e i).foldlM (fun (s : State) (n, e, i) => s.giveUpSector n e i) s

/-- Every copy of a line outside its home die's cache is given up before an agent writes it (R289, R306).
(Log 117: DEDUCED) -/
def State.recall (s : State) (line : Nat) : Except XErr State := (s.dropParts line).giveUpCopies line fun _ _ _ => false

/-- Lines that a die cache has replaced are recalled from the stash (R289); one that must wait stays to be recalled.
(Log 117: DEDUCED) -/
def State.settleEvicted (s : State) : State :=
  s.evicted.foldl (fun s line =>
    match ({ s with evicted := s.evicted.filter (· != line) } : State).recall line with
    | .ok t => t
    | .error _ => s) s

/-- A read of the line that holds va by an agent, of n bytes of it: the state after it, the line and its location. -/
def State.readAt (s : State) (ag : Agent) (va n : Nat) (acc : Access) (u : Use) : Except XErr (State × Line × Loc) :=
  match s.translate ag va acc u with
  | .error e => .error e
  | .ok (s1, l) =>
    let (s2, x) := s1.fetchLine ag.core ag.part ag.tag l (l.addr % 64) n
    .ok ((s2.holdPart ag.core ag.tag l x).settleEvicted, x, l)

/-- Bytes of a line as an agent sees them. -/
def State.seenBytes (s : State) (tag : Tag) (l : Loc) (x : Line) (off n : Nat) : List Byte :=
  ((lineToBytes (s.visible tag l x)).drop off).take n

/-- A coherent write of bytes within one line at a location: a write that lands first recalls every copy (R289). -/
def State.putPart (s : State) (ag : Agent) (l : Loc) (va : Nat) (bs : List Byte) : Except XErr State :=
  match if s.lands ag.tag then s.recall (lineOf l.addr) else .ok s with
  | .error e => .error e
  | .ok s1 =>
    match s1.writePart ag.part ag.tag l va bs with
    | .error e => .error e
    | .ok s2 => .ok (if s.lands ag.tag then s2.holdPart ag.core ag.tag l (s2.heldLine l) else s2).settleEvicted

/-- A write of bytes within one line at va by an agent. -/
def State.writeAt (s : State) (ag : Agent) (va : Nat) (bs : List Byte) : Except XErr State :=
  match s.translate ag va .write .plain with
  | .error e => .error e
  | .ok (s1, l) => s1.putPart ag l va bs

/-- A read of n bytes from va, line by line in ascending order (R309): the bytes, and the first poisoned
line. -/
def State.readSpan (s : State) (ag : Agent) (va n : Nat) (u : Use) : Nat → Except XErr (State × List Byte × Option Nat)
  | 0 => .ok (s, [], none)
  | fuel + 1 =>
    if n = 0 then .ok (s, [], none)
    else
      let m := min n (64 - va % 64)
      match s.readAt ag va m .read u with
      | .error e => .error e
      | .ok (s1, x, l) =>
        let bs := s1.seenBytes ag.tag l x (va % 64) m
        match s1.readSpan ag (va + m) (n - m) u fuel with
        | .error e => .error e
        | .ok (s2, rest, pz) => .ok (s2, bs ++ rest, if x.poison then some (lineOf va) else pz)

/-- A write of bytes from va, line by line in ascending order (R309). -/
def State.writeSpan (s : State) (ag : Agent) (va : Nat) (bs : List Byte) : Nat → Except XErr State
  | 0 => .ok s
  | fuel + 1 =>
    if bs.isEmpty then .ok s
    else
      let m := min bs.length (64 - va % 64)
      match s.writeAt ag va (bs.take m) with
      | .error e => .error e
      | .ok s1 => s1.writeSpan ag (va + m) (bs.drop m) fuel

/-- A translation error after which the access only waits (R303, R376, R428). -/
def XErr.waits : XErr → Bool
  | .wait => true
  | .spill _ _ => true
  | _ => false

/-- An access that stalls on die d's full spill buffer for partition p: the die reports it when the stall begins (R303,
class 7). (Log 48: DEDUCED) -/
def State.spillFull (s : State) (p d page : Nat) : State :=
  let die := s.die d
  if die.spillStall then s
  else (s.setDie d { die with spillStall := true }).logError 7 0 false 2 d (2 ^ p) page d

/-- An access of partition p that waits, a full spill buffer reported (R303). -/
def State.noteWait (s : State) (p : Nat) (e : XErr) : State :=
  match e with
  | .spill d page => s.spillFull p d page
  | _ => s

/-- How a device's own read or write of a partition's memory comes out: done, to be made again, or impossible. -/
inductive Tried (α : Type) where
  | done (s : State) (v : α)
  | wait (s : State)
  | fails
  deriving DecidableEq, Repr

/-- The bytes of n from va with no poison, or nothing where a line is poisoned or cannot be read. -/
def State.tryRead (s : State) (ag : Agent) (va n : Nat) : Tried (List Byte) :=
  match s.readSpan ag va n .plain (n / 64 + 2) with
  | .ok (s1, bs, none) => .done s1 bs
  | .ok _ => .fails
  | .error e => if e.waits then .wait (s.noteWait ag.part e) else .fails

def State.tryWrite (s : State) (ag : Agent) (va : Nat) (bs : List Byte) : Tried Unit :=
  match s.writeSpan ag va bs (bs.length / 64 + 2) with
  | .ok s1 => .done s1 ()
  | .error e => if e.waits then .wait (s.noteWait ag.part e) else .fails

/-- An agent's partial store would be dropped: it would meet a poisoned line (R435), or a stack that has failed (R428). -/
def State.poisonedAt (s : State) (ag : Agent) (va : Nat) : Bool :=
  match s.translate ag va .write .plain with
  | .ok (s1, l) => (s1.line l).poison || s1.stackFailedAt l
  | .error _ => false

end Sys2Proof.Machine
end

