-- ==== Sys2Proof/Machine/Tensor.lean ====
section
/-! DEFINITION. Tensors (R292 to R295): handles, descriptors, the addresses of elements, the elements of a
tile. -/

namespace Sys2Proof.Machine

/-- Why a fill or drain stops (R248): the code, and the address and TRAP.INFO of a fault; or what it waits for. -/
inductive TileErr where
  | code (c : Nat) (addr info : Word)
  | wait (e : XErr)
  deriving DecidableEq, Repr

/-- The fields of a descriptor (R293). -/
structure Tensor where
  base : Nat
  fmt : Fmt
  layout : Nat
  ndim : Nat
  pad : Nat
  dims : List Nat
  strides : List Int
  deriving DecidableEq, Repr

/-- Half-bytes of an element. -/
def Tensor.z2 (x : Tensor) : Nat := fmtWidth x.fmt / 4

/-- Elements of a tile row (R294). -/
def Tensor.rowLen (x : Tensor) : Nat := 1024 / fmtWidth x.fmt

def intDiv (a : Int) (b : Nat) : Bool := a % (b : Int) == 0

/-- The constraints of a layout (R294). -/
def Tensor.layoutOk (x : Tensor) : Bool :=
  let s0 := x.strides.getD 0 0
  let s1 := x.strides.getD 1 0
  let z := x.z2 / 2
  match x.layout with
  | 0 => s0 == (if x.fmt == .e2m1 then 0 else (z : Int)) && (x.fmt == .e2m1 || x.base % z = 0)
  | 1 => 2 ≤ x.ndim && intDiv s0 128 && s1 == 128 && x.base % 128 = 0
  | 2 => 2 ≤ x.ndim && intDiv s0 (64 * 64 * x.z2 / 2) && intDiv s1 (64 * 64 * x.z2 / 2) && x.base % 64 = 0
  | _ => false

/-- A descriptor read from its 128 bytes; none where R11, R293 or R294 refuses it. -/
def readTensor (bs : List Byte) : Option Tensor :=
  let at_ := fun (off len : Nat) => ofBytes ((bs.drop off).take len)
  let fl := at_ 8 2
  let f := Fmt.dec (BitVec.ofNat 4 fl)
  let nd := fl / 2 ^ 6 % 8
  let dims := (List.range 6).map fun d => at_ (0x10 + 4 * d) 4
  let strides := (List.range 6).map fun d => intVal 64 (at_ (0x28 + 8 * d) 8)
  let x : Tensor := { base := at_ 0 8, fmt := f, layout := fl / 2 ^ 4 % 4, ndim := nd, pad := at_ 0x0C 4, dims := dims,
                      strides := strides }
  let extents := (List.range 6).all fun d =>
    if d < nd then 1 ≤ dims.getD d 0 && dims.getD d 0 < 2 ^ 31 else dims.getD d 0 = 0 && strides.getD d 0 == 0
  let padOk := x.pad < 2 ^ fmtWidth f
  if Fmt.codeOk (BitVec.ofNat 4 fl) && fl / 2 ^ 9 = 0 && 1 ≤ nd && nd ≤ 6 && at_ 0x0A 2 = 0 && at_ 0x58 40 = 0 &&
      padOk && extents && x.layoutOk then some x
  else none

/-- The address of a descriptor from its handle (R292). -/
def State.handleAddr (s : State) (launch : Option Nat) (p : Nat) (h : BitVec 32) : Option Nat :=
  let i := h.toNat % 2 ^ 31
  if h.toNat < 2 ^ 31 then
    match launch with
    | some l =>
      match s.launch l with
      | some x => if i < x.tensCnt then some ((x.base + x.tensOff).toNat + 128 * i) else none
      | none => none
    | none => none
  else if i < s.field (partReg p 0x20) 30 0 then some (s.field (partReg p 0x18) 63 0 + 128 * i)
  else none

/-- The agent of an entry's fills and drains: its tag, through no core's TLB. -/
def tileAgent (t : Tile) : Agent := { part := tagPart t.tag, tag := t.tag, core := none }

/-- A read for a tile: its faults have codes 4 and 5 (R248). -/
def State.tileRead (s : State) (t : Tile) (va n : Nat) : Except TileErr (State × List Byte) :=
  match s.readSpan (tileAgent t) va n .plain (n / 64 + 2) with
  | .ok (s1, bs, none) => .ok (s1, bs)
  | .ok (_, _, some line) => .error (.code 5 (BitVec.ofNat 64 line) 0)
  | .error (.fault code level _ _) =>
    .error (.code 4 (BitVec.ofNat 64 va) (BitVec.ofNat 64 (xlateInfo .read code level false)))
  | .error e => .error (.wait e)

/-- The tensor of an entry, read through the partition's translation (R292, R248). -/
def State.tensorOf (s : State) (t : Tile) : Except TileErr (State × Tensor) :=
  match s.handleAddr t.launch (tagPart t.tag) t.handle with
  | none => .error (.code 1 0 0)
  | some va =>
    match s.tileRead t va 128 with
    | .error e => .error e
    | .ok (s1, bs) =>
      match readTensor bs with
      | none => .error (.code 2 0 0)
      | some x => if t.coords.length > x.ndim then .error (.code 3 0 0) else .ok (s1, x)

/-- The coordinates of element j of row r of a tile; those not given are 0 (R295). -/
def Tile.coord (t : Tile) (r j : Nat) : List Int :=
  (List.range 6).map fun d =>
    (t.coords.getD d 0).toInt + (if d = 0 then (j : Int) else if d = 1 then (r : Int) else 0)

/-- The element lies inside the tensor (R295); a dimension that the tensor does not have has extent 1. -/
def Tensor.inside (x : Tensor) (c : List Int) : Bool :=
  (List.range 6).all fun d =>
    let v := c.getD d 0
    let n : Int := if d < x.ndim then (x.dims.getD d 0 : Int) else 1
    0 ≤ v && v < n

/-- The address of an element in half-bytes (R294). -/
def Tensor.addr (x : Tensor) (c : List Int) : Nat :=
  let c0 := c.getD 0 0
  let c1 := c.getD 1 0
  let st := fun (d : Nat) => 2 * x.strides.getD d 0
  let rest := fun (from_ : Nat) => (List.range 6).foldl (fun acc d => if from_ ≤ d then acc + c.getD d 0 * st d else acc) (0 : Int)
  let z : Int := x.z2
  let e : Int := x.rowLen
  let rel : Int := match x.layout with
    | 0 => c0 * z + rest 1
    | 1 => c0 / e * st 0 + c1 * 256 + c0 % e * z + rest 2
    | _ => c0 / 64 * st 0 + c1 / 64 * st 1 + (c1 % 64 * 64 + c0 % 64) * z + rest 2
  ((2 * (x.base : Int) + rel) % (2 ^ 65 : Int)).toNat

/-- The elements of a tile that lie inside the tensor, as (row, place in the row, address in half-bytes). -/
def Tensor.elems (x : Tensor) (t : Tile) : List (Nat × Nat × Nat) :=
  (List.range t.rows).flatMap fun r => (List.range x.rowLen).filterMap fun j =>
    let c := t.coord r j
    if x.inside c then some (r, j, x.addr c) else none

/-- The bounding range in bytes of a tile's elements in its tensor: first address and limit (R235). -/
def Tensor.span (x : Tensor) (t : Tile) : Option (Int × Int) :=
  (x.elems t).foldl (fun acc (_, _, a) =>
    let lo : Int := (a / 2 : Nat)
    let hi : Int := ((a + x.z2 + 1) / 2 : Nat)
    match acc with
    | some (l, h) => some (min l lo, max h hi)
    | none => some (lo, hi)) none

end Sys2Proof.Machine
end

