-- ==== Sys2Proof/Machine/Local.lean ====
section
/-! DEFINITION. The footprints of engine jobs, which accesses wait for (R235, R313), and accesses to the local
store with its stash ranges (R217, R222, R288 to R290). -/

namespace Sys2Proof.Machine

/-- A copy control block (R237). -/
structure Ccb where
  src : Nat
  dst : Nat
  ctl : Nat
  len0 : Nat
  cnt : List Nat
  sst : List Int
  dstr : List Int
  deriving DecidableEq, Repr

/-- The signed value of a 24-bit stride field. -/
def signed24 (v : Nat) : Int := intVal 24 (v % 2 ^ 24)

/-- The fields of a control block, dimensions 1 to 5 in order. -/
def readCcb (w : LineBits) : Ccb :=
  let at_ := fun (off len : Nat) => w.toNat / 2 ^ (8 * off) % 2 ^ (8 * len)
  let dims := List.range 5
  { src := at_ 0 8, dst := at_ 8 8, ctl := at_ 0x10 4, len0 := at_ 0x14 4,
    cnt := dims.map fun d => at_ (0x18 + 8 * d) 2,
    sst := dims.map fun d => signed24 (at_ (0x1A + 8 * d) 3),
    dstr := dims.map fun d => signed24 (at_ (0x1D + 8 * d) 3) }

def Ccb.ss (c : Ccb) : Bool := c.ctl.testBit 0
def Ccb.ds (c : Ccb) : Bool := c.ctl.testBit 1
def Ccb.unit (c : Ccb) : Int := if c.ctl.testBit 2 then 64 else 1
def Ccb.ndim (c : Ccb) : Nat := c.ctl / 8 % 8
def Ccb.esz (c : Ccb) : Nat := 2 ^ (c.ctl / 64 % 4)
def Ccb.rop (c : Ccb) : Nat := c.ctl / 256 % 16

/-- The least and greatest offset that dimensions add, with C(d) = 1 for d at or above NDIM. -/
def spread (u : Int) (ndim : Nat) (cnt : List Nat) (st : List Int) : Int × Int :=
  ((List.range 5).zip (cnt.zip st)).foldl (fun (lo, hi) (d, n, x) =>
    if d + 1 < ndim && 0 < n then
      let e := u * x * ((n : Int) - 1)
      if 0 ≤ e then (lo, hi + e) else (lo + e, hi)
    else (lo, hi)) (0, 0)

/-- The bounding range of the source nest: first address and limit (R235). -/
def Ccb.srcRange (c : Ccb) : Int × Int :=
  let (lo, hi) := spread c.unit c.ndim c.cnt c.sst
  ((c.src : Int) + lo, (c.src : Int) + hi + c.len0)

/-- The bounding range of the destination nest (R235, R240, R241). -/
def Ccb.dstRange (c : Ccb) (k : PumpKind) : Int × Int :=
  match k with
  | .transpose =>
    let z : Int := c.esz
    let xs : Int := (c.len0 : Int) / z - 1
    let ex := c.unit * (c.dstr.headD 0) * xs
    let run := z * ((c.cnt.headD 1 : Int) - 1)
    let (lo, hi) := spread c.unit c.ndim (1 :: c.cnt.drop 1) c.dstr
    ((c.dst : Int) + lo + min ex 0, (c.dst : Int) + hi + max ex 0 + run + z)
  | .copy =>
    let (lo, hi) := spread c.unit c.ndim c.cnt c.dstr
    ((c.dst : Int) + lo, (c.dst : Int) + hi + c.len0)
  | .reduce =>
    let (lo, hi) := spread c.unit c.ndim c.cnt c.dstr
    ((c.dst : Int) + lo, (c.dst : Int) + hi + (if c.rop = 1 then 2 * c.len0 else c.len0))

/-- A footprint region: local or global, first address, limit. -/
structure Region where
  glob : Bool
  lo : Int
  hi : Int
  deriving DecidableEq, Repr

def Region.meets (a b : Region) : Bool := a.glob == b.glob && a.lo < b.hi && b.lo < a.hi

/-- The local range of an offset of a core, in the numbering of local addresses of its quad (R7). -/
def localRegion (n off len : Nat) : Region :=
  { glob := false, lo := (n % 4) * 2 ^ 20 + off, hi := (n % 4) * 2 ^ 20 + off + len }

/-- The read and write regions of a job of a core (R235). -/
def PumpJob.regions (j : PumpJob) : Region × Region :=
  let c := readCcb j.ccb
  let (sl, sh) := c.srcRange
  let (dl, dh) := c.dstRange j.kind
  ({ glob := !c.ss, lo := sl, hi := sh }, { glob := !c.ds, lo := dl, hi := dh })

/-- The bounding range in its tensor of what a tile entry fills or drains (R235). (Log 40: DEDUCED) -/
def State.tileRegion (s : State) (t : Tile) : List Region :=
  match s.tensorOf t with
  | .ok (_, x) =>
    match x.span t with
    | .some (lo, hi) => [{ glob := true, lo := lo, hi := hi }]
    | .none => []
  | .error _ => []

/-- A job that is not complete: its place among its core's jobs and its read and write regions (R235). -/
structure Footprint where
  order : Nat
  reads : List Region
  writes : List Region

/-- The index of a sender in its receivers' VLATCH: its place among the eight quads of its mask (R249, R250). -/
def Send.index (v : Send) : Nat := v.coreId.toNat % 32

/-- The bytes that a posted latch takes: those of the volley that it matches, once one has been offered.
(Log 72: DEDUCED) -/
def State.latchBytes (s : State) (l : Latch) : Option Nat :=
  s.cores.findSome? fun (_, k) => (k.sends.find? fun v =>
    l.sender.toNat == v.index && l.num == v.num && l.launch == v.launch && l.tag == v.tag).map fun v => 64 * v.len

/-- The longest volley (R249). -/
def maxVolley : Nat := 255 * 64

/-- The latch range of a plain latch (R315): while no volley has been offered it may reach as far as the longest one.
(Log 72: DEDUCED) -/
def State.latchRegion (s : State) (l : Latch) (a : Nat) : Region :=
  { glob := false, lo := a, hi := (a : Int) + ((s.latchBytes l).getD maxVolley : Nat) }

/-- The bytes of a query's vector: its dimensions in the graph's format, at most 8 KiB before the descriptor is read.
(Log 70: DEDUCED) -/
def Query.vectorBytes (q : Query) : Nat := if q.dim = 0 then 8192 else q.dim * fmtWidth q.fmt / 8

/-- The regions of a query that runs (R235): its vector, its results and its completion word. (Log 70: DEDUCED) -/
def Query.footprint (q : Query) : Footprint :=
  let at_ := fun (o n : Nat) => ofBytes ((q.packet.drop o).take n)
  let glob := fun (lo len : Nat) => ({ glob := true, lo := lo, hi := (lo : Int) + len } : Region)
  { order := q.order, reads := [glob (at_ 0x10 8) q.vectorBytes],
    writes := [glob (at_ 0x18 8) (8 * at_ 0x0A 2), glob (at_ 0x20 8) 8] }

/-- The regions of an entry's fill or drain that runs, and of a fill that waits for it (R235, R246). -/
def State.tileFootprints (s : State) (n : Nat) (t : Tile) : List Footprint :=
  let mine := localRegion n t.base (t.rows * 128)
  let now : List Footprint :=
    match t.st with
    | .filling => [{ order := t.order, reads := if t.volley then [] else s.tileRegion t, writes := [mine] }]
    | .draining => [{ order := t.order, reads := [mine], writes := s.tileRegion t }]
    | _ => []
  now ++ match t.queued with
    | some (o, coords) => [{ order := o, reads := s.tileRegion { t with coords := coords }, writes := [mine] }]
    | none => []

/-- An L-slot access of the same bundle that waits for a wake precedes a job in program order (R308, R313), unless the
wake itself waits for the job. (Log 113: DEDUCED) -/
def State.accessDue (s : State) (n x order : Nat) : Bool :=
  match SMap.get none s.later (16 * n + x) with
  | some f =>
    (f.ops ++ f.later).any (fun o => o.1 == 6) && f.core.issuedJobs ≤ order &&
      !(match (s.taskAt n x).st with
        | .parked (.pump ch id) =>
          ((SMap.get Pump.init (s.coreAt n).pumps ch).jobs.any fun j => j.order == order && j.id.toNat ≤ id.toNat)
        | _ => false)
  | none => false

/-- The incomplete jobs that context x of core n has issued, but for its queries (R235). -/
def State.taskJobs (s : State) (n x : Nat) : List Footprint :=
  let k := s.coreAt n
  let pumps := (k.pumps.flatMap fun (_, p) => p.jobs).filter fun j => j.ctx == x
  let tiles := (k.tiles.map (·.2)).filter fun t => t.ctx == x
  let latches := k.latches.filterMap fun l =>
    match l.dest with
    | .range a => if l.ctx = x then some ({ order := l.order, reads := [], writes := [s.latchRegion l a] } : Footprint) else none
    | .tile _ => none
  let jobs := (k.jobs.filter fun j => j.ctx == x).map fun j =>
    let reads : List Region := match j.what with
      | .writeback e _ => let y := SMap.get Stash.none k.stash e; [{ glob := false, lo := y.base, hi := y.base + y.size }]
      | _ => []
    ({ order := j.order, reads := reads, writes := [{ glob := j.glob, lo := j.lo, hi := j.hi }] } : Footprint)
  (pumps.map fun j => { order := j.order, reads := [j.regions.1], writes := [j.regions.2] }) ++
  tiles.flatMap (s.tileFootprints n) ++ jobs ++ latches ++
  (k.sends.filter fun v => v.ctx == x).map fun v =>
    { order := v.order, reads := [localRegion n v.off (64 * v.len)], writes := [] }

/-- The queries of context x of core n that run. -/
def State.taskQueries (s : State) (n x : Nat) : List Footprint :=
  s.gse.flatMap fun (_, g) => g.slots.filterMap fun (_, q) =>
    match q with
    | some q => if q.running && q.core == n && q.ctx == x then some q.footprint else none
    | none => none

/-- The global range that a stash entry maps a local range onto (R308). -/
def Stash.image (e : Stash) (r : Region) : Option Region :=
  let lo := max r.lo e.base
  let hi := min r.hi (e.base + e.size)
  if lo < hi then some { glob := true, lo := e.glob + (lo - e.base), hi := e.glob + (hi - e.base) } else Option.none

/-- The locations of a region of partition p on core n's quad: a stash-mapped local address counts as the global address
that it maps (R308). -/
def State.images (s : State) (n p : Nat) (r : Region) : List Region :=
  if r.glob then [r]
  else r :: (List.range 4).flatMap fun m =>
    (s.coreAt (quadOf n * 4 + m)).stash.filterMap fun (_, e) =>
      if e.active && tagPart e.tag = p then e.image r else none

/-- The partition of context x of core n. -/
def State.partOf (s : State) (n x : Nat) : Nat := tagPart (s.taskAt n x).tag

/-- A footprint by the locations that its regions name. -/
def State.located (s : State) (n x : Nat) (f : Footprint) : Footprint :=
  let go := fun (rs : List Region) => rs.flatMap (s.images n (s.partOf n x))
  { f with reads := go f.reads, writes := go f.writes }

/-- Read and write regions of every incomplete job of a task, its queries apart. -/
def State.footprints (s : State) (n x : Nat) : List Region × List Region :=
  let fs := (s.taskJobs n x).map (s.located n x)
  (fs.flatMap (·.reads), fs.flatMap (·.writes))

/-- A remote access of context x of core n, other than a posted store, has no answer yet (R316). -/
def State.remoteOpen (s : State) (n x : Nat) : Bool :=
  s.remotes.any fun (_, r) => match r with
    | some r => r.core == n && r.ctx == x && match r.what with
      | .load _ _ => true
      | .store => true
      | .atomic _ _ => true
      | _ => false
    | none => false

/-- A later job, with its regions, does not begin before an earlier one of its task that they meet is complete
(R313), nor while an access of its task that precedes it is to be performed (R235). (Log 119: DEDUCED) -/
def State.jobBlocked (s : State) (n x order : Nat) (reads writes : List Region) : Bool :=
  let mine := s.located n x { order := order, reads := reads, writes := writes }
  s.remoteOpen n x || s.accessDue n x order || ((s.taskJobs n x ++ s.taskQueries n x).map (s.located n x)).any fun f =>
    f.order < order &&
      (f.writes.any (fun r => mine.reads.any r.meets || mine.writes.any r.meets) || f.reads.any fun r => mine.writes.any r.meets)

/-- A later access of the task waits for its own jobs (R313): a read that meets a write region, a write that
meets any region. -/
def State.mustWaitJobs (s : State) (r : Region) (write : Bool) : Bool :=
  let (rs, ws) := s.footprints s.c s.x
  (s.images s.c s.part r).any fun r => ws.any r.meets || (write && rs.any r.meets)

/-- A read waits for the results of the task's queries (R313), but not where it is that of a completion word, which tells
when a query is over (R347). (Log 70: DEDUCED) -/
def State.mustWaitResults (s : State) (r : Region) : Bool :=
  (s.taskQueries s.c s.x).any fun f => f.writes.any r.meets && !(f.writes.drop 1).any r.meets

/-- A later access of the task waits for its own jobs and queries (R235, R313). -/
def State.mustWait (s : State) (r : Region) (write : Bool) : Bool :=
  s.mustWaitJobs r write ||
    (s.taskQueries s.c s.x).any fun f => (s.images s.c s.part r).any fun r =>
      f.writes.any r.meets || (write && f.reads.any r.meets)

/-- The next place among core n's jobs is taken. -/
def Core.nextJob (k : Core) : Core := { k with issuedJobs := k.issuedJobs + 1 }

/-- The scratchpad of core n covers the range (R285). -/
def State.inScratch (s : State) (n off size : Nat) : Bool := off + size ≤ (s.coreAt n).scr * 0x1_0000

/-- The checks of R217 on a local address, in order; the core and offset that it names. -/
def State.localCheck (s : State) (a : Word) (size align : Nat) : Act (Nat × Nat) :=
  let v := a.toNat
  let n := quadOf s.c * 4 + v / 2 ^ 20 % 4
  if v % align ≠ 0 then trapNow .align a a
  else if v ≥ 2 ^ 22 then trapNow .lsrange a a
  else if n ≠ s.c && (s.coreAt n).splitBusy then stall
  else if !s.inScratch n (v % 2 ^ 20) size then trapNow .lsrange a a
  else .ok (n, v % 2 ^ 20)

/-- A local line as the executing task sees it (R222). -/
def State.localSeen (s : State) (tag : Tag) (a : Nat) : Bool := s.readable tag (SMap.get nullTag s.tags (a / 64))

/-- A filled sector is a copy of host memory that the tag rule denies an agent: a miss (R66). -/
def State.deniedCopy (s : State) (tag : Tag) (n e i : Nat) : Bool :=
  (s.sector n e i).at_.any isHost && !s.localSeen tag (s.sectorAddr n e i)

/-- The four sectors of a local line that a stash entry covers are given up (R288), sector i among them. -/
def State.giveUpSectors (s : State) (n e i : Nat) : Except XErr State :=
  (List.range 4).foldlM (fun (s : State) j => s.giveUpSector n e (i / 4 * 4 + j)) s

/-- One unfilled sector of a stash range is filled (R288), a poisoned line's as zeros (R220), whose address comes back;
a copy of host memory that the tag rule denies gives way, with the rest of its line, to a fresh one under the tag of the
agent that brings it in (R66). -/
def State.fillSector (s : State) (n e i : Nat) (tag : Tag) : Except XErr (State × Option Word) := do
  let denied := s.deniedCopy tag n e i
  if (s.sector n e i).filled && !denied then return (s, none)
  let s0 ← if denied then s.giveUpSectors n e i else .ok s
  let x := (s0.coreAt n).stashEntry e
  let va := x.glob + 16 * i
  let (s1, ln, l) ← s0.readAt (stashAgent n x) va 16 .read .plain
  let a := s1.sectorAddr n e i
  let stamp := if isHost l.addr then tag else x.tag
  let fresh := SMap.get nullTag s1.tags (a / 64) ≠ stamp
  let s2 := if fresh then s1.setRaw (lineOf a) (List.replicate 64 0) else s1
  let s3 := { (s2.setRaw a (s1.seenBytes x.tag l ln (va % 64) 16)) with tags := SMap.set nullTag s2.tags (a / 64) stamp }
  return (s3.setSector n e i { filled := true, dirty := false, at_ := some l.addr },
    if ln.poison then some (BitVec.ofNat 64 (lineOf va)) else none)

/-- The 16-byte sectors of core n's store that a range touches and a stash entry covers: the entry's core, its
number and the sector's number in it (R288). -/
def State.stashSectors (s : State) (n off size : Nat) : List (Nat × Nat × Nat) :=
  (List.range ((off + size + 15) / 16 - off / 16)).filterMap fun j =>
    let o := (off / 16 + j) * 16
    (s.stashAt n o).map fun (c, e, x) => (c, e, (memberOf n * 2 ^ 20 + o - x.base) / 16)

/-- Every sector that a local access at address a touches is filled, a fault of a fill trapping with that address (R217,
R288); for an L-slot access a recorded fault of an entry traps (R290). The first poisoned line that was read. -/
def State.fillRange (s : State) (tag : Tag) (n off size : Nat) (acc : Access) (a : Word) (lslot : Bool) :
    Act (State × Option Word) :=
  (s.stashSectors n off size).foldlM (fun (t : State × Option Word) (c, e, i) =>
    match if lslot then ((t.1.coreAt c).stashEntry e).fault else none with
    | some (info, va) => trapNow .xlate va (BitVec.ofNat 64 info)
    | none =>
      match t.1.fillSector c e i tag with
      | .error er => .error (er.stop acc a true)
      | .ok (s1, pz) => .ok (s1, t.2.orElse fun _ => pz)) (s, none)

/-- Bytes of a local store under the tag rule, line by line. -/
def State.localBytes (s : State) (tag : Tag) (n off len : Nat) : List Byte :=
  (List.range len).map fun i =>
    let a := localAddr n (off + i)
    if s.localSeen tag a then s.rawByte a else 0

/-- Bytes stored within one line of a local store: the line takes the tag, and what another tag held of it is
zero (R222); Land decides (R14). -/
def State.localPut (s : State) (tag : Tag) (n off : Nat) (bs : List Byte) : State :=
  let a := localAddr n off
  if !s.lands tag then s.countDrop tag
  else
    let s1 := if SMap.get nullTag s.tags (a / 64) = tag then s else s.setRaw (lineOf a) (List.replicate 64 0)
    let s2 := { (s1.setRaw a bs) with tags := SMap.set nullTag s1.tags (a / 64) tag }
    s2.setCoreAt n ((s2.coreAt n).heal 5 (off / 64))

/-- Bytes stored from an offset, line by line in ascending order. -/
def State.localPutSpan (s : State) (tag : Tag) (n off : Nat) (bs : List Byte) : Nat → State
  | 0 => s
  | fuel + 1 =>
    if bs.isEmpty then s
    else
      let m := min bs.length (64 - off % 64)
      (s.localPut tag n off (bs.take m)).localPutSpan tag n (off + m) (bs.drop m) fuel

/-- Sectors of a stash range that a store touches become dirty (R288), which is a write of the lines that they stand for
(R308). -/
def State.dirtyRange (s : State) (n off size : Nat) : State :=
  (s.stashSectors n off size).foldl (fun s (c, e, i) =>
    let sec := s.sector c e i
    let s1 := s.setSector c e i { sec with filled := true, dirty := true }
    match sec.at_ with
    | some a => (s1.fireMonitors (lineOf a)).rereadLine (lineOf a)
    | none => s1) s

/-- The lines that a range of core n's store stands for are gained exclusively: every copy of them but the stored local line's
own is given up (R289). -/
def State.gainExclusive (s : State) (n off size : Nat) : Except XErr State :=
  (s.stashSectors n off size).foldlM (fun s (c, e, i) =>
    match (s.sector c e i).at_ with
    | some a => (s.dropParts (lineOf a)).giveUpCopies (lineOf a) fun m f j => m == c && f == e && j / 4 == i / 4
    | none => .ok s) s

/-- Bytes stored to a local range by any agent: fills, exclusive lines, the store, dirty sectors (R222, R288, R289).
The first poisoned line that a fill read. -/
def State.localStore (s : State) (tag : Tag) (n off : Nat) (bs : List Byte) (a : Word) (lslot : Bool) :
    Act (State × Option Word) := do
  let (s1, pz) ← s.fillRange tag n off bs.length .write a lslot
  match s1.gainExclusive n off bs.length with
  | .error e => .error (e.stop .write a true)
  | .ok s2 => .ok ((s2.localPutSpan tag n off bs (bs.length / 64 + 2)).dirtyRange n off bs.length, pz)

/-- Bytes read from a local range by any agent: fills, then the bytes under the tag rule. -/
def State.localLoad (s : State) (tag : Tag) (n off len : Nat) (a : Word) (lslot : Bool) :
    Act (State × List Byte × Option Word) := do
  let (s1, pz) ← s.fillRange tag n off len .read a lslot
  .ok (s1, s1.localBytes tag n off len, pz)

/-- The POISON trap of a load that met a poisoned line (R220). (Log 30: DEDUCED) -/
def poisonTrap (line : Word) : Trap := { cause := .poison, addr := line, info := 1, at_ := .firstUnissued }

/-- Poison that an access of the executing task has met traps later (R220). -/
def State.notePoison (s : State) (pz : Option Word) : State :=
  match pz with
  | some line => s.modTask fun t => { t with deferred := t.deferred ++ [(0, poisonTrap line)] }
  | none => s

/-- The banks of a local store that a range lies in: one a line (R285). -/
def bankMask (off size : Nat) : BitVec 32 :=
  (List.range ((off + size + 63) / 64 - off / 64)).foldl (fun m i => m ||| BitVec.ofNat 32 (2 ^ ((off / 64 + i) % 32))) 0

/-- How many accesses that issued in this cycle need a bank that an access of this cycle needs (R285). (Log 116: DEDUCED) -/
def State.bankDelay (s : State) (n off size : Nat) : Nat :=
  ((s.coreAt n).banks.filter fun b => b.1 == s.now && b.2 &&& bankMask off size != 0).length

/-- An access of cycle t takes banks of core n's store (R285). (Log 116: DEDUCED) -/
def State.takeBanks (s : State) (n t : Nat) (mask : BitVec 32) : State :=
  let k := s.coreAt n
  s.setCoreAt n { k with banks := k.banks.filter (fun b => k.clock ≤ b.1) ++ [(t, mask)] }

/-- An access of this cycle to the banks of core n's store (R285). (Log 116: DEDUCED) -/
def State.useBanks (s : State) (n off size : Nat) : State := s.takeBanks n s.now (bankMask off size)

/-- A move of an engine uses the banks of core n's store in the cycle in which that core stands (R285).
(Log 116: DEDUCED) -/
def State.engineBanks (s : State) (n off size : Nat) : State := s.takeBanks n (s.coreAt n).clock (bankMask off size)

/-- A read or write of a local range by an engine, with its banks. -/
def State.engineLoad (s : State) (tag : Tag) (n off len : Nat) (a : Word) : Act (State × List Byte × Option Word) := do
  let (s1, bs, pz) ← s.localLoad tag n off len a false
  .ok (s1.engineBanks n off len, bs, pz)

def State.engineStore (s : State) (tag : Tag) (n off : Nat) (bs : List Byte) (a : Word) : Act (State × Option Word) := do
  let (s1, pz) ← s.localStore tag n off bs a false
  .ok (s1.engineBanks n off bs.length, pz)

/-- The memory requests that a core has outstanding in a cycle (R221): loads whose data has not come back, and other
accesses that have not completed. (Log 6: DESIGN CHOICE) -/
def Core.requests (k : Core) (now : Nat) : Nat :=
  k.loads.foldl (fun n l => n + match l.dest with
    | .scalar _ => 1
    | .vector _ len => (len + 63) / 64
    | .latch _ => 2) 0 + ((k.inFlight.filter fun x => now < x.till).map (·.requests)).sum

/-- An access of n requests would exceed the 4,096 that a core keeps outstanding (R221). -/
def State.requestsFull (s : State) (n : Nat) : Bool := s.core.requests s.now + n > 4096

/-- An access of the executing core has left (R221, R287). -/
def State.fly (s : State) (x : InFlight) : State :=
  s.modCore fun k => { k with inFlight := k.inFlight.filter (fun y => s.now < y.till) ++ [x] }

/-- The cycles that an access to core n's store takes (R221), a neighbour's 14. -/
def State.localLatency (s : State) (n : Nat) : Nat := if n = s.c then 6 else 14

/-- One access to a range of core n's store has been made: its banks are taken (R285), and it is in flight with its
requests for some cycles (R221, R287). -/
def State.touch (s : State) (n off size requests latency : Nat) : State :=
  (s.useBanks n off size).fly { till := s.now + latency, requests := requests, range := some (n, off, size) }

/-- The lines that a range touches. -/
def touchedLines (off size : Nat) : Nat := (off + size + 63) / 64 - off / 64

/-- Results of the executing bundle are delivered some cycles late (R285). (Log 116: DEDUCED) -/
def State.lateBy (s : State) (keys : List RegKey) (c : Nat) : State :=
  if c = 0 then s
  else s.modCore fun k => { k with issue := { k.issue with
    board := keys.foldl (fun b key => let e := boardOf b s.x key; putBoard b { e with deliver := e.deliver + c }) k.issue.board } }

/-- A local read of the executing task, after the checks: fills, then the bytes. -/
def State.localRead (s : State) (n off len : Nat) (a : Word) (lslot : Bool) : Act (State × List Byte) := do
  if s.mustWait (localRegion n off len) false then stall
  let (s1, bs, pz) ← s.localLoad s.task.tag n off len a lslot
  .ok (s1.notePoison pz, bs)

/-- A local write of the executing task, after the checks. -/
def State.localWrite (s : State) (n off : Nat) (bs : List Byte) (a : Word) : Act State := do
  if s.mustWait (localRegion n off bs.length) true then stall
  let (s1, pz) ← s.localStore s.task.tag n off bs a true
  .ok (s1.notePoison pz)

/-- The agent of the executing task. -/
def State.agent (s : State) : Agent := { part := s.part, tag := s.task.tag, core := some s.c }

end Sys2Proof.Machine
end

