-- ==== Sys2Proof/Machine/Fetcher.lean ====
section
/-! DEFINITION. The operand fetcher: tile-table entries, the names of paired entries, and the fills that a
binding, a level's push and a loop-back raise (R245, R246). -/

namespace Sys2Proof.Machine

def Core.tile (k : Core) (e : Nat) : Tile := SMap.get Tile.none k.tiles e

/-- Tile entry e written (R274). -/
def Core.setTile (k : Core) (e : Nat) (t : Tile) : Core := { k.heal 7 e with tiles := SMap.set Tile.none k.tiles e t }

/-- The level at a stack position, if it is active (R246): level 0 is the outermost. -/
def Task.level (t : Task) (l : Nat) : Option Level :=
  if l < t.loops.length then t.loops[t.loops.length - 1 - l]? else none

/-- The entry that a name stands for (R246): while its level is active, a paired entry's name alternates with
the index. -/
def Core.tileName (k : Core) (e : Nat) : Nat :=
  let t := k.tile e
  if t.pair then
    match (k.task t.ctx).level t.lvl.toNat with
    | some l => let b := e / 2 * 2; b + (e % 2 + l.index.toNat) % 2
    | none => e
  else e

/-- A fill raised on an entry: one that is draining or filling takes it when that is done (R246). (Log 28: DEDUCED) -/
def Core.raiseFill (k : Core) (e : Nat) (coords : List (BitVec 32)) : Core :=
  let t := k.tile e
  let o := k.issuedJobs
  match t.st with
  | .empty => k.nextJob.setTile e { t with st := .filling, coords := coords, code := 0, order := o }
  | .ready => k.nextJob.setTile e { t with st := .filling, coords := coords, code := 0, order := o }
  | .filling => k.nextJob.setTile e { t with queued := some (o, coords) }
  | .draining => k.nextJob.setTile e { t with queued := some (o, coords) }

/-- An entry's coordinates from its task's address registers, with the deltas of level l added if asked
(R245, R246). -/
def Tile.at (t : Tile) (k : Task) (delta : Option Nat) : List (BitVec 32) :=
  (List.range t.n.toNat).map fun d =>
    let r := t.ac.toNat + d
    let a := (SMap.get 0 k.a r).setWidth 32
    match delta with
    | .some l => a + SMap.get (0 : BitVec 32) k.delta (32 * l + r)
    | .none => a

/-- The fills of entry e at its binding, or when its level has just been pushed (R246). -/
def Core.firstFills (k : Core) (t : Task) (e : Nat) (l : Level) : Core :=
  let x := k.tile e
  let k1 := k.raiseFill e (x.at t none)
  if x.pair && l.index.toNat + 1 < l.total then k1.raiseFill (e + 1) (x.at t (some x.lvl.toNat)) else k1

/-- The entries that context x of a core has bound to a level under its tag; of a pair, the even one. -/
def Core.boundTo (k : Core) (x lvl : Nat) (tag : Tag) : List Nat :=
  (k.tiles.filter fun (e, t) =>
    t.bound && t.ctx == x && t.lvl.toNat == lvl && t.tag == tag && (!t.pair || e % 2 == 0)).map (·.1)

/-- The fills that a level's push raises, with the registers of `t` (R246). -/
def Core.pushFills (k : Core) (x : Nat) (t : Task) (lvl : Nat) (l : Level) : Core :=
  (k.boundTo x lvl t.tag).foldl (fun k e => k.firstFills t e l) k

/-- The fills that a loop-back to index i raises, after its deltas (R246). -/
def Core.loopFills (k : Core) (x : Nat) (t : Task) (lvl : Nat) (l : Level) : Core :=
  let j := l.index.toNat - 1
  (k.boundTo x lvl t.tag).foldl (fun k e =>
    let y := k.tile e
    if y.pair then
      if j + 2 < l.total then k.raiseFill (e + j % 2) (y.at t (some lvl)) else k
    else k.raiseFill e (y.at t none)) k

/-- The task after a loop-back rule has run, with the fills that it raises (R141, R246). -/
def State.stepLoops (s : State) (t : Task) : State :=
  let old := s.task
  let s1 := s.setTask t
  match t.loops with
  | [] => s1
  | l :: rest =>
    match old.level rest.length with
    | some o => if l.index == o.index + 1 then s1.setCore (s1.core.loopFills s1.x t rest.length l) else s1
    | none => s1

end Sys2Proof.Machine
end

