-- ==== Sys2Proof/Machine/Tenancy.lean ====
section
/-! DEFINITION. The end of a tenancy (R382 to R390): the generation step or its deferral, the agents that it
stops, the counts of old-tag operations, and the start of a sweeper pass (R392). -/

namespace Sys2Proof.Machine

/-- The generation after one, skipping 0 (R382, R384). (Log 108: DEDUCED) -/
def nextGen (g : BitVec 10) : BitVec 10 := if g = 1023 then 1 else g + 1

/-- dist(a, b) (R382). (Log 108: DEDUCED) -/
def genDist (a b : BitVec 10) : Nat := (b.toNat + 1023 - a.toNat) % 1023

/-- A task of partition p that an old tag or a closed partition ends (R386, R390). -/
def State.endsWith (s : State) (p : Nat) (t : Tag) : Bool := tagPart t == p && !s.lands t

/-- A pump channel emptied, its halt cleared, done-below at its next identifier (R243, R386). -/
def Pump.clear (c : Pump) : Pump :=
  { Pump.init with next := c.next, below := c.next }

/-- The engines of a core after partition p's tenancy has ended (R386): old-tag pump channels empty, tile
entries empty and unbound under (p, 0), stash entries, volleys, latches and range jobs gone. -/
def Core.stopEngines (k : Core) (p : Nat) (old : Tag → Bool) : Core :=
  { k with
    pumps := SMap.mapAll Pump.init (fun _ c => if c.jobs.any fun j => old j.tag then c.clear else c) k.pumps,
    tiles := SMap.mapAll Tile.none (fun _ t => if old t.tag then { Tile.none with tag := mkTag p 0 } else t) k.tiles,
    stash := SMap.mapAll Stash.none (fun _ e => if old e.tag then Stash.none else e) k.stash,
    sends := k.sends.filter fun v => !old v.tag, latches := k.latches.filter fun l => !old l.tag,
    jobs := k.jobs.filter fun j => !old j.tag, tlb := k.tlb.filter fun t => t.part != p }

/-- The old-tag tasks of core n end as by TEXIT; what their snapshot holds lands or is dropped (R386). -/
def State.stopTasks (s : State) (n : Nat) (old : Tag → Bool) : State :=
  let k := s.coreAt n
  let dead := (k.tasks.filter fun (_, t) => t.st != .free && old t.tag).map (·.1)
  let holds := k.snapshot.any fun e => old e.tag
  let s1 := if holds then s.releaseSnapshot n else s
  let k1 := s1.coreAt n
  ({ s1 with later := dead.foldl (fun m x => SMap.set none m (16 * n + x) none) s1.later } : State).setCoreAt n { k1 with
    tasks := dead.foldl (fun m x => SMap.set Task.free m x Task.free) k1.tasks,
    loads := k1.loads.filter fun l => !(dead.contains l.ctx && match l.dest with | .scalar _ => true | _ => false),
    replay := k1.replay && !holds,
    issuing := match k1.issuing with | some x => if dead.contains x then none else some x | none => none }

/-- A packet that has begun as a launch or a copy; both are abandoned with their tenancy (R386). (Log 19: DEDUCED) -/
def Packet.isWork (k : Packet) : Bool := k.launch.isSome || k.copy.isSome

/-- The query that a forwarded request belongs to. -/
def State.requester (s : State) (r : GReq) : Option Query := SMap.get none (SMap.get Gse.reset s.gse r.home).slots r.slot

/-- Forwarded requests of queries that have stopped go (R350). -/
def State.purgeRequests (s : State) : State :=
  let live := fun (r : GReq) => match s.requester r with | some q => q.running && q.round.isSome | none => false
  { s with gse := SMap.mapAll Gse.reset (fun _ g => { g with requests := g.requests.filter live }) s.gse }

/-- Everything of partition p that R386 and R387 stop, once its old tag no longer lands; nothing of it is saved any more
(R398). (Log 19: DEDUCED) -/
def State.stopAgents (s : State) (p : Nat) : State :=
  let old := fun (t : Tag) => s.endsWith p t
  let s1 := s.cores.foldl (fun s (n, _) =>
    let s2 := s.stopTasks n old
    s2.setCoreAt n ((s2.coreAt n).stopEngines p old)) s
  let s2 := s1.dies.foldl (fun s (d, x) =>
    s.setDie d { x with reserved := x.reserved.filter (fun r => r.part != p),
                        lines := x.lines.filter (fun c => !(c.reserved && c.owner == p) && !c.doomed.getLsbD p),
                        spill := x.spill.filter (fun c => c.owner != p && !c.doomed.getLsbD p), spillStall := false,
                        backed := x.backed.filter (fun b => b.part != p), unposted := x.unposted.filter (fun u => u.1 != p) }) s1
  let tgt := (List.range 256).foldl (fun s i =>
    let r := fabricReg (0x3_0000 + 8 * i)
    if s.field r 22 22 = 1 && s.field r 21 16 = p then s.setField r 22 22 0 else s) s2
  let cx := partReg p 0xD8
  let s3 := (if tgt.field cx 1 0 = 0 then tgt
    else ((tgt.setField cx 1 0 0).setField cx 3 3 1).setField cx 11 4 8).setField cx 14 14 0
  let s4 : State := { s3 with
    packets := s3.packets.filter fun k => !(k.part == p && (!k.begun || k.isWork)),
    launches := SMap.mapAll none (fun _ l => match l with | some x => if old x.tag then none else some x | none => none) s3.launches,
    rally := SMap.set Rally.none s3.rally p Rally.none,
    gse := SMap.mapAll Gse.reset (fun _ g => { g with
      slots := SMap.mapAll none (fun _ q => match q with | some x => if old x.tag then none else some x | none => none) g.slots }) s3.gse,
    saved := s3.saved.filter fun (k, _) => k / 64 != p && k / 64 != 64 + p,
    heldQuads := SMap.set 0 s3.heldQuads p 0,
    slices := SMap.mapAll none (fun _ x => match x with
      | some y => some (if y.part = p then { y with quiesce := none } else y)
      | none => none) s3.slices }
  s4.purgeRequests

/-- The tagged elements that a pass of the sweeper visits (R391): those that are listed. -/
def State.sweepElems (s : State) : List SweepElem :=
  (s.cores.flatMap fun (n, k) =>
    (k.tasks.flatMap fun (x, t) => SweepElem.ctx n x :: (List.range t.results.length).map (SweepElem.result n x)) ++
    k.v.map (fun e => .vreg n e.1) ++ k.acc.map (fun e => .accRow n e.1) ++ k.x.map (fun e => .scale n e.1) ++
    k.planes.map (fun e => .plane n e.1) ++ k.latch.map (fun e => .latch n e.1) ++ k.cachePart.map (fun e => .partLine n e.1) ++
    k.tiles.map (fun e => .tile n e.1) ++ k.stash.map (fun e => .stash n e.1)) ++
  (s.queues.flatMap fun (i, q) =>
    SweepElem.queue (i / 16) (i % 16) :: q.entries.map fun e => .queueEntry (i / 16) (i % 16) e.1) ++
  s.quadBars.map (fun e => .quadBarrier (e.1 / 16) (e.1 % 16)) ++
  s.dieBars.map (fun e => .dieBarrier (e.1 / 16) (e.1 % 16)) ++
  (s.dies.flatMap fun (d, x) =>
    x.lines.map (fun c => .cacheLine d c.key) ++ x.spill.map (fun c => .spillEntry d c.key)) ++
  s.tags.filterMap fun (l, _) =>
    if isLocal (64 * l) then some (.localLine ((64 * l - 2 ^ 112) / 2 ^ 20) (l % 2 ^ 14))
    else if isDevice (64 * l) then some (.hbmLine l) else none

/-- A pass of the sweeper begins (R392). -/
def State.startPass (s : State) : State :=
  { s with sweeper := { s.sweeper with
      running := true, owed := false, todo := s.sweepElems,
      startGens := (List.range 64).foldl (fun m p => SMap.set 0 m p (s.ten p).gen) [] } }

/-- GENERATION_STEP (R384): GEN[p] takes the next generation, and p opens if it was closed. (Log 19: DEDUCED) -/
def State.stepNow (s : State) (p : Nat) : State :=
  let t := s.ten p
  let s1 := s.setTen p { t with gen := nextGen t.gen, closed := false }
  ({ s1 with sweeper := { s1.sweeper with owed := true } } : State).stopAgents p

/-- STEP_DEFERRAL (R390): p closes with its step pending, which is reported, and a pass begins if none runs. -/
def State.deferStep (s : State) (p : Nat) : State :=
  let t := s.ten p
  let s1 := (s.setTen p { t with closed := true }).stopAgents p
  let s2 := s1.logError 8 0 false 5 0 (2 ^ p) 0 (mkTag p (nextGen t.gen).toNat).toNat
  if s2.sweeper.running then s2 else s2.startPass

/-- A step of GEN[p] is requested (R384, R389, R390); a closed partition does not step again. -/
def State.endTenancyOf (s : State) (p : Nat) : State :=
  let t := s.ten p
  if t.closed then s
  else if genDist t.base (nextGen t.gen) ≥ 512 then s.deferStep p
  else s.stepNow p

/-- Operations of partition p under a tag other than its current one that are outstanding (R388). (Log 47: DEDUCED) -/
def State.oldOps (s : State) (p : Nat) : Nat :=
  let old := fun (t : Tag) => tagPart t == p && t != s.curTag p
  let perCore := s.cores.map fun (_, k) =>
    (k.pend.filter fun e => old e.tag).length + (k.snapshot.filter fun e => old e.tag).length +
      (k.loads.filter fun l => old l.tag).length
  let perQueue := s.queues.map fun (_, q) => (q.landing.filter fun e => old e.tag).length
  let remotes := (s.remotes.filter fun (_, r) => match r with | some r => old r.tag | none => false).length
  (perCore ++ perQueue).foldl (· + ·) remotes

end Sys2Proof.Machine
end

