-- ==== Sys2Proof/Machine/Ops.lean ====
section
/-! DEFINITION. What operations share: how a slot's result becomes a step, taking a trap (R275, R276) and
returning from one (R277, R279), ending a task (R151), parking, and the error records of launches and queues
(R361, R362). -/

namespace Sys2Proof.Machine

/-- An event of a queue: sent if enabled and its PASID still stands, else counted as dropped (R362). -/
def State.queueEvent (s : State) (q e : Nat) : State :=
  if s.field (queueReg q 0x28) (32 + e) (32 + e) = 0 then s
  else if s.field (queueReg q 0x28) 11 11 = 1 && s.field (queueReg q 8) 32 32 = 1 &&
      s.field (queueReg q 0x28) 31 12 = s.field (queueReg q 8) 31 12 then
    s.interrupt (s.field (queueReg q 0x28) 10 0)
  else s.count (queueReg q 0x30) 31 0 1

/-- Bit b of AQ.ERR becomes set; the first bit since all were zero records the index; event 1 (R352, R356,
R362). -/
def State.queueError (s : State) (q b idx : Nat) : State :=
  let r := queueReg q 0x20
  let s1 := if s.field r 3 0 = 0 then s.setField r 63 32 idx else s
  if s.field r b b = 1 then s1 else (s1.setField r b b 1).queueEvent q 1

/-- The 64 bytes of a first error (R361). -/
def LaunchError.bytes (e : LaunchError) : List Byte :=
  toBytes 4 1 ++ toBytes 1 e.kind ++ toBytes 1 e.cause ++ toBytes 2 (e.coreId % 256 + 256 * (e.ctx % 16)) ++
    toBytes 8 e.pc.toNat ++ toBytes 8 e.addr.toNat ++ toBytes 8 e.info.toNat ++ toBytes 1 e.slots ++
    List.replicate 31 0

/-- The error record at an address under partition p (R361): written whole at the launch's first error, and by a later one
that finds COUNT zero; else its COUNT grows, which a poisoned line prevents (R435). -/
def State.writeRecord (s : State) (p : Nat) (at_ : Word) (e : LaunchError) (first : Bool) : Tried Unit :=
  let ag := s.partAgent p
  match s.readSpan ag at_.toNat 4 .plain 2 with
  | .error er => if er.waits then .wait (s.noteWait p er) else .fails
  | .ok (s1, bs, poisoned) =>
    let n := ofBytes bs
    if n = 0 && (first || poisoned.isNone) then s1.tryWrite ag at_.toNat e.bytes
    else if poisoned.isSome then .fails
    else s1.tryWrite ag at_.toNat (toBytes 4 (min (n + 1) (2 ^ 32 - 1)))

/-- The record of launch l takes the errors that it is still to take, until a write waits; one that cannot be made sets
AQ.ERR.BADREC of the launch's queue, and nothing for a rally entry (R361). -/
def State.writeErrors (s : State) (l : Nat) : Nat → State
  | 0 => s
  | n + 1 =>
    match s.launch l with
    | none => s
    | some x =>
      match x.unwritten with
      | [] => s
      | e :: rest =>
        let next := fun (t : State) => (t.setLaunch l (some { x with unwritten := rest })).writeErrors l n
        match s.writeRecord x.part x.err e (x.errors = x.unwritten.length) with
        | .done s1 _ => next s1
        | .wait s1 => s1
        | .fails => next (if x.rally then s else s.queueError x.q 3 x.idx)

/-- An error of launch l (R361): counted, and recorded if the launch names a record. -/
def State.launchError (s : State) (l : Nat) (e : LaunchError) : State :=
  match s.launch l with
  | none => s
  | some x =>
    let owed := if x.err = 0 then [] else x.unwritten ++ [e]
    (s.setLaunch l (some { x with errors := x.errors + 1, unwritten := owed })).writeErrors l (owed.length)

/-- The scoreboard keys that a load in flight holds: its destination and its residency predicate (R219, R221). -/
def Load.keys (l : Load) : List RegKey :=
  (match l.dest with
    | .scalar r => scalarKey r
    | .vector v _ => [.v v]
    | .latch r => [.row r]) ++ if l.pr = 0 then [] else [.p l.pr.toNat]

/-- The destination of a load takes its data under its tag (R67, R196, R220). -/
def Core.receive (k : Core) (l : Load) : Core :=
  match l.dest with
  | .scalar r => k.setTask l.ctx ((k.task l.ctx).setScalar r (l.data.setWidth 64))
  | .vector n len =>
    let old := SMap.get VReg.zero k.v n
    let base := if old.tag = l.tag then old.data else 0
    let new : VReg := { data := withLowBytes base (toBytes len l.data.toNat), tag := l.tag }
    { k.heal 2 n with v := SMap.set VReg.zero k.v n new }
  | .latch row =>
    { k with latch := SMap.set LatchRow.zero k.latch row { data := l.data.setWidth 1024, tag := l.tag } }

/-- The lanes of pR that came from absent pages are cleared (R219). -/
def Task.clearAbsent (t : Task) (pr : BitVec 4) (keep : Lanes) : Task :=
  if pr = 0 then t else t.setPred pr (t.pred pr &&& keep)

/-- The data of a load arrives (R220, R308), with the bytes of a poisoned line zero and a POISON trap to come. Data
under a tag that no longer lands is discarded, and the response of a read is not counted (R388). -/
def State.deliverLoad (s : State) (n : Nat) (l : Load) : State :=
  let k := s.coreAt n
  let s1 := s.setCoreAt n { k with loads := k.loads.erase l }
  if !s1.lands l.tag then s1
  else
    let k1 := (s1.coreAt n).receive l
    let board := l.keys.foldl (fun b key =>
      let e := boardOf b l.ctx key
      putBoard b { e with deliver := max e.deliver l.due }) k1.issue.board
    let t := (k1.task l.ctx).clearAbsent l.pr l.keep
    let t1 := match l.poison with
      | some line => { t with deferred := t.deferred ++ [(0, poisonTrap line)] }
      | none => t
    let alive := (k1.task l.ctx).st != .free && (k1.task l.ctx).tag == l.tag
    let k2 := if alive then k1.setTask l.ctx t1 else k1
    s1.setCoreAt n { k2 with issue := { k2.issue with board := board } }

/-- The slots of context x of core n that wait for a wake are gone, or are these (R312, R314). -/
def State.setLater (s : State) (n x : Nat) (f : Option Frame) : State :=
  { s with later := SMap.set none s.later (16 * n + x) f }

/-- A task's context becomes FREE (R27, R151): its snapshot is released (R280), its results, jobs and posted
stores go on, and loads for its own scalar registers have nowhere to go. -/
def State.endTask (s : State) (n x : Nat) : State :=
  let k := s.coreAt n
  let s1 := if (s.taskAt n x).handling || (k.replay && k.issuing = some x) then s.releaseSnapshot n else s
  let k := s1.coreAt n
  let loads := k.loads.filter fun l => !(l.ctx == x && match l.dest with | .scalar _ => true | _ => false)
  (s1.setLater n x none).setCoreAt n { k.setTask x Task.free with
    loads := loads, bad := k.bad.filter fun b => !(b.1 == 8 && b.2 / 16 == x),
    issuing := if k.issuing = some x then none else k.issuing,
    replay := k.replay && k.issuing != some x, leaving := k.leaving && k.issuing != some x }

/-- The address that TRAP.PC takes (R272). -/
def TrapAt.pc (t : Task) : TrapAt → Word
  | .bundle => t.pc
  | .link => t.link
  | .firstUnissued => t.pc
  | .address a => a

/-- The trap record of a trap (R272). -/
def Trap.record (t : Trap) (k : Task) (slots : BitVec 8) : TrapRec :=
  { cause := causeCode t.cause, pc := t.at_.pc k, slots := slots, addr := t.addr, info := t.info }

/-- An uncorrectable error in an element of the core's state is reported with its trap (R274, R431 class 1). -/
def State.reportElement (s : State) (t : Trap) : State :=
  if t.cause = .stateue then s.logError 1 1 false 1 s.c (2 ^ tagPart s.task.tag) 0 t.info.toNat else s

/-- A double or unhandled trap (R276): the task ends, its snapshot lands and its launch records the error. -/
def State.unhandled (s : State) (r : TrapRec) : State :=
  let t := s.task
  let s1 := s.endTask s.c s.x
  match t.launch with
  | none => s1
  | some l =>
    s1.launchError l { kind := 1, cause := r.cause.toNat, coreId := t.coreId.toNat, ctx := s.x, pc := r.pc,
                       addr := r.addr, info := r.info, slots := r.slots.toNat }

/-- TAKING A TRAP at cycle T (R275): results due by then have landed; the record is written, the task's other
pending results move into the snapshot with their offsets from T, H is set and the pc takes TRAP.VEC, whose
first bundle issues 6 cycles later. A trap in a handler or without a vector ends the task (R276). -/
def State.takeTrap (s : State) (T : Nat) (slots : BitVec 8) (t : Trap) : State :=
  let s1 := (s.landDue s.c T fun p => p.ctx == s.x).reportElement t
  let r := t.record s1.task slots
  if s1.task.handling || s1.task.vec == 0 then s1.unhandled r
  else
    let k := s1.core
    let mine := k.pend.filter fun p => p.ctx == s1.x
    let held := mine.map fun p => { p with due := p.due - T }
    let task := { s1.task with trap := r, handling := true, pc := s1.task.vec, stall := 0, stallOn := none }
    s1.setCore { k.setTask s1.x task with
      pend := k.pend.filter fun p => p.ctx != s1.x, replay := false,
      snapshot := (if k.replay then k.snapshot else []) ++ held,
      issue := { k.issue with dispatch := max k.issue.dispatch (T + 6), owed := false } }

/-- RETURN FROM A TRAP at cycle T (R277): H is cleared and the pc takes TRAP.PC; its first bundle issues at
least 6 cycles later, and the snapshot then replays. (Log 27: DEDUCED) -/
def State.returnFromTrap (s : State) (T : Nat) : State :=
  let k := s.core
  let task := { s.task with handling := false, pc := s.task.trap.pc }
  s.setCore { k.setTask s.x task with
    replay := !k.snapshot.isEmpty, issue := { k.issue with dispatch := max k.issue.dispatch (T + 6) } }

/-- The replay of the snapshot (R279): with the first slot at TRAP.PC issuing at cycle T', each entry is due
its offset later, before results of the same cycle that the handler issued. (Log 27: DEDUCED) -/
def State.replaySnapshot (s : State) (T' : Nat) : State :=
  let k := s.core
  if k.replay then
    s.setCore { k with replay := false, snapshot := [],
                       pend := (k.snapshot.map fun p => { p with due := T' + p.due }) ++ k.pend }
  else s

/-- The wake event of a page wait has come before its task has left the pipeline (R28, R281): the monitor has fired. -/
def State.firedAlready (s : State) (c : ParkCause) : Bool :=
  match c with
  | .page line => !(s.die (dieOfCore s.c)).monitors.contains line
  | _ => false

/-- The task parks by its own action (R28): a handler's snapshot is released (R280), a wake that has already come is not
lost, and a later consumer of its pending results waits for them (R33). -/
def State.parkNow (s : State) (c : ParkCause) : State :=
  let s1 := if s.task.handling || s.core.replay then s.releaseSnapshot s.c else s
  let k := s1.core
  let task := { s1.task with
    st := .parked c, stall := 0, stallOn := none, eff := s1.task.prio,
    wakeAt := if s1.firedAlready c then some k.clock else s1.task.wakeAt }
  s1.setCore { k.setTask s1.x task with
    pend := k.pend.map fun p => if p.ctx = s1.x then { p with parked := true } else p,
    issue := { k.issue with owed := false },
    issuing := if k.issuing = some s1.x then none else k.issuing, replay := false, leaving := false }

/-- A bundle that does not issue in this cycle (R28, R29): a queue or tile stall is counted, and parks the task
by STALL_PARK; every other stall holds the pipeline. -/
def State.holdBack (s : State) (hs : List Hold) : State :=
  let park := hs.findSome? fun h => match h with | .parkable c => some c | _ => none
  let s := hs.foldl (fun s h => match h with | .spill d page => s.spillFull s.part d page | _ => s) s
  match park with
  | some c => s.modTask fun t => { t with stall := t.stall + 1, stallOn := some c }
  | none => s.modTask fun t => { t with stall := 0, stallOn := none }

/-- The trap of a slot: noted in the bundle in progress, or taken now outside one. -/
def State.raise (s : State) (t : Trap) : State :=
  match s.frame with
  | some f => { s with frame := some { f with traps := f.traps ++ [(s.slot, t)] } }
  | none => s.takeTrap s.now (BitVec.ofNat 8 (2 ^ s.slot)) t

/-- The hold of a slot: noted in the bundle in progress, or taken now outside one. -/
def State.noteHold (s : State) (h : Hold) : State :=
  match s.frame with
  | some f => { s with frame := some { f with holds := f.holds ++ [h] } }
  | none => s.holdBack [h]

/-- How an operation's result ends the step of its slot. -/
def State.settle (s : State) (r : Act State) : Host.Outcome State Fault Refusal :=
  match r with
  | .ok t => .next t
  | .error (.trap t) => .next (s.raise t)
  | .error (.hold h) => .next (s.noteHold h)
  | .error (.fault f) => .fault f

/-- An operation under its guard (R49): no effect at all where it is false. -/
def State.guarded (s : State) (g : Guard) (f : State → Act State) : Host.Outcome State Fault Refusal :=
  if s.guard g then s.settle (f s) else .next s

/-- A level of the loop stack popped or stepped (R141): the innermost level that ends at this bundle goes
back to its body with its deltas and, for LOOP.P, its rotation, or pops, and then the level outside it is
looked at. (Log 25: DEDUCED) -/
def Task.loopBack (t : Task) (next : Word) : Nat → Task
  | 0 => { t with pc := next }
  | fuel + 1 =>
    match t.loops with
    | [] => { t with pc := next }
    | l :: rest =>
      let i := l.index + 1
      if i.toNat < l.total then
        let d := rest.length
        let a := (List.range 32).foldl (fun m r =>
          SMap.set 0 m r (SMap.get 0 m r + (SMap.get (0 : BitVec 32) t.delta (32 * d + r)).signExtend 64)) t.a
        let p :=
          match l.stages with
          | none => t.p
          | some _ =>
            let moved := (List.range 7).foldl (fun m j => SMap.set 0 m (15 - j) (SMap.get 0 t.p (14 - j))) t.p
            SMap.set 0 moved 8 (allLanes (i.toNat < l.count.toNat))
        { t with loops := { l with index := i } :: rest, a := a, p := p, pc := l.body }
      else
        match rest with
        | o :: _ => if o.endAddr = l.endAddr then { t with loops := rest }.loopBack next fuel
                    else { t with loops := rest, pc := next }
        | [] => { t with loops := rest, pc := next }

/-- The level that a loop-back goes around, if it passes none to the code behind it (R141). -/
def Task.around (t : Task) : Nat → Option Level
  | 0 => none
  | fuel + 1 =>
    match t.loops with
    | [] => none
    | l :: rest =>
      if (l.index + 1).toNat < l.total then some l
      else
        match rest with
        | o :: _ => if o.endAddr = l.endAddr then ({ t with loops := rest } : Task).around fuel else none
        | [] => none

/-- The innermost level ends at the bundle at an address. -/
def Task.endsAt (t : Task) (pc : Word) : Bool :=
  match t.loops with
  | l :: _ => l.endAddr == pc
  | [] => false

/-- The address a bundle goes on to without a branch (R137, R141): the loop-back of the level that ends here,
or the next bundle. (Log 24: DEDUCED) -/
def Task.advance (t : Task) : Task := if t.endsAt t.pc then t.loopBack t.link 7 else { t with pc := t.link }

/-- The READY tasks of a core that may be chosen. -/
def Core.candidates (k : Core) : List Nat :=
  (k.tasks.filter fun (_, t) => t.st == .ready && t.stopped.isNone).map (·.1)

/-- A task that has become READY, or has been promoted, stops dispatch of an ISSUING task of lower effective priority
(R31, point 2). -/
def State.challenge (s : State) (n x : Nat) : State :=
  let k := s.coreAt n
  match k.issuing with
  | some y => if k.candidates.contains x && (k.task y).eff < (k.task x).eff then s.setCoreAt n { k with leaving := true } else s
  | none => s

/-- The task stops at a safe point and leaves the pipeline; it is saved when its results have landed (R147,
R284). -/
def State.stopNow (s : State) (live : Nat) : State :=
  let k := s.core
  let task := { s.task with st := .ready, stopped := some live, stall := 0, stallOn := none, eff := s.task.prio }
  s.setCore { k.setTask s.x task with
    issue := { k.issue with owed := false },
    issuing := if k.issuing = some s.x then none else k.issuing, leaving := false }

/-- A trap that the task takes at its first bundle that has not issued (R220, R250). (Log 30: DEDUCED) -/
def State.defer (s : State) (slots : BitVec 8) (t : Trap) : State :=
  s.modTask fun k => { k with deferred := k.deferred ++ [(slots, t)] }

/-- The last cycle in which a slot of any queue has issued. -/
def Issue.lastSlot (i : Issue) : Nat := max (max i.lastC i.lastV) (max i.lastM i.lastL)

/-- The first cycle in which no slot that has been dispatched issues any more: the cycle of a trap that is deferred or
arises after its instruction has issued (R275), and of a task that leaves the pipeline (R270). -/
def Core.afterSlots (k : Core) : Nat := max k.clock (k.issue.lastSlot + 1)

/-- The loads in flight whose registers a loop-back writes have arrived before it (R141): the loop-back is placed
behind them, and its successors wait for them. -/
def State.awaitLoop (s : State) : State :=
  (s.core.loads.filter fun l => l.ctx == s.x && l.keys.any fun key => match key with
    | .a _ => true
    | .p n => 8 ≤ n
    | _ => false).foldl (fun s l => s.deliverLoad s.c l) s

/-- The scoreboard entries of context x's stage predicates move with their values (R141, R263): who reads p9 then waits
for the writer of what was p8. (Log 24: DEDUCED) -/
def Issue.rotate (i : Issue) (x : Nat) : Issue :=
  { i with board := i.board.filterMap fun e => match e.key with
      | .p n => if e.ctx = x && 8 ≤ n then (if n < 15 then some { e with key := .p (n + 1) } else none) else some e
      | _ => some e }

/-- The level that ends here is about to loop back: loads to what it writes have arrived, and where it rotates the stage
predicates their scoreboard entries do too (R141, R263). -/
def State.readyLoop (s : State) : State :=
  let s1 := s.awaitLoop
  if (s1.task.around 7).any fun l => l.stages.isSome then s1.modCore fun k => { k with issue := k.issue.rotate s1.x } else s1

/-- The task goes on from its bundle without a branch or a jump (R137, R141). (Log 24: DEDUCED) -/
def State.goOn (s : State) : State :=
  let s1 := if s.task.endsAt s.task.pc then s.readyLoop else s
  s1.stepLoops s1.task.advance

/-- The level that ends here loops back, and passes to `after` when it is over (R141, R144). -/
def State.loopTo (s : State) (after : Word) : State :=
  let s1 := s.readyLoop
  s1.stepLoops (s1.task.loopBack after 7)

/-- The C slot's effect on control flow (R137), applied once every other slot has committed, at the cycle T
in which the C slot issued. A bundle that parks, traps or returns from a trap has committed, so its loop-back has taken
place: none of these is a branch or a jump (R138, R141). (Log 24: DEDUCED; 25: DEDUCED) -/
def State.applyCtl (s : State) (T : Nat) (c : Ctl) : State :=
  let t := s.task
  match c with
  | .go pc => s.setTask { t with pc := pc }
  | .pass after => if t.endsAt t.pc then s.loopTo after else s.setTask { t with pc := after }
  | .loopBack after => s.loopTo after
  | .exit => s.endTask s.c s.x
  | .park cause => s.goOn.parkNow cause
  | .trapAfter tr => s.goOn.takeTrap s.core.afterSlots 1 tr
  | .eret => s.goOn.returnFromTrap T
  | .sequel => s.goOn
  | .endTenancy => s.endTenancyOf s.part
  | .stop live => s.goOn.stopNow live

/-- A control effect of the C slot: noted in the bundle in progress, or applied now outside one. -/
def State.control (s : State) (c : Ctl) : State :=
  match s.frame with
  | some f => { s with frame := some { f with ctl := some c } }
  | none => s.applyCtl s.now c

/-- An L slot's instruction parks the task once its bundle has committed (R28). (Log 44: DEDUCED) -/
def State.parkLater (s : State) (c : ParkCause) : State :=
  match s.frame with
  | some f => { s with frame := some { f with park := some c } }
  | none => s.applyCtl s.now (.park c)

/-- The park that an L slot asked for, after the C slot's effect (R28): a task that has parked already waits for
both. (Log 44: DEDUCED) -/
def State.parkAfter (s : State) (c : ParkCause) : State :=
  match s.task.st with
  | .issuing => s.parkNow c
  | .parked _ => s.modTask fun t => { t with andThen := some c }
  | _ => s

end Sys2Proof.Machine
end

