-- ==== Sys2Proof/Machine/Bundle.lean ====
section
/-! DEFINITION. Bundles: the walk of a code line with repeats and deltas (R109 to R114), legality (R130 to
R132), the fetch of the bundle at a program counter and the address of the one after it (R111, R112, R137). -/

namespace Sys2Proof.Machine

/-- The word sizes of the slots in bytes (R108). -/
def slotSize (n : Nat) : Nat := if n < 2 then 6 else if n = 2 then 4 else 8

/-- The delta field of a slot, as high and low bit: for P only where the reference word is an XLD (R108). -/
def deltaField (n ref : Nat) : Option (Nat × Nat) :=
  match n with
  | 1 => some (47, 33)
  | 2 => if ref / 2 ^ 5 % 2 ^ 7 = 0x10 then some (31, 21) else none
  | 5 => some (34, 23)
  | 6 => some (47, 28)
  | 7 => some (43, 28)
  | _ => none

/-- A reference word with a signed delta byte added to a field, without a carry out of it (R114). -/
def addDelta (ref h l d : Nat) : Nat :=
  let w := h + 1 - l
  let old := ref / 2 ^ l % 2 ^ w
  let new := intCode w ((old : Int) + intVal 8 d)
  ref - old * 2 ^ l + new * 2 ^ l

/-- A bundle of a line: its offset and length, the effective word of each slot that has one, the reason codes
it meets (bit c - 1 for code c) and the slots they mark. -/
structure Bundle where
  off : Nat
  len : Nat
  words : List (Nat × Nat)
  reasons : BitVec 9
  marks : BitVec 8
  deriving DecidableEq, Repr

/-- Reason c with the slots it marks joins what a bundle meets. -/
def Bundle.mark (b : Bundle) (c : Nat) (slots : List Nat) : Bundle :=
  { b with reasons := b.reasons ||| BitVec.ofNat 9 (2 ^ (c - 1)),
           marks := slots.foldl (fun m n => m ||| BitVec.ofNat 8 (2 ^ n)) b.marks }

/-- Slot n of a bundle taken from the bytes of its line: a full word, a repeat or a delta, or empty (R109,
R110, R113, R114). A word whose bytes run past the line has no value and is not looked at further; a slot of the bundle before
whose own repeat or delta was illegal left no word to refer to. (Log 144: DESIGN CHOICE) -/
def Bundle.takeSlot (line : List Byte) (prev : List (Nat × Nat)) (p d : Nat) (b : Bundle) (n : Nat) : Bundle :=
  let start := b.off + b.len
  let ref := (prev.find? fun x => x.1 == n).map (·.2)
  match p.testBit n, d.testBit n with
  | false, false => b
  | true, false =>
    let k := slotSize n
    let b1 := { b with len := b.len + k }
    if start + k > 64 then b1.mark 8 [n]
    else { b1 with words := b1.words ++ [(n, ofBytes (takeBytes k (line.drop start)))] }
  | false, true =>
    match ref with
    | some w => { b with words := b.words ++ [(n, w)] }
    | none => b.mark 4 [n]
  | true, true =>
    let past := start + 1 > 64
    let b1 := { b with len := b.len + 1 }
    let b1 := if past then b1.mark 8 [n] else b1
    match ref with
    | none => b1.mark 4 [n]
    | some w =>
      match deltaField n w with
      | none => b1.mark 5 [n]
      | some (h, l) =>
        if past then b1
        else { b1 with words := b1.words ++ [(n, addDelta w h l (ofBytes (takeBytes 1 (line.drop start))))] }

/-- The slot operations of a bundle, in slot order. -/
def Bundle.ops (b : Bundle) : List SlotOp :=
  b.words.filterMap fun (n, w) => (SlotWord.ofNum n w).decode.instr.map fun i => (n, i)

/-- Reasons 1 to 3 of each word (R130). -/
def Bundle.wordReasons (b : Bundle) : Bundle :=
  b.words.foldl (fun b (n, w) =>
    let r := (SlotWord.ofNum n w).decode.reasons
    [1, 2, 3].foldl (fun b c => if r.getLsbD (c - 1) then b.mark c [n] else b) b) b

/-- Reason 6: two slots that write one register (R131). (Log 15: DEDUCED) -/
def Bundle.writeReasons (b : Bundle) : Bundle :=
  let ops := b.ops
  ops.foldl (fun acc (n, i) =>
    if (writes i).any fun k => ops.any fun (m, j) => m != n && (writes j).contains k then acc.mark 6 [n] else acc) b

/-- A key of the vector file (R132). -/
def isVKey : RegKey → Bool
  | .v _ => true
  | _ => false

/-- Reason 7: the ports of the vector file (R132). -/
def Bundle.portReasons (b : Bundle) : Bundle :=
  let ops := b.ops
  let rd := ops.map fun (n, i) => (n, ((reads i).filter isVKey).length)
  let wr := ops.map fun (n, i) => (n, ((writes i).filter isVKey).length)
  let total : List (Nat × Nat) → Nat := fun xs => (xs.map (·.2)).foldl (· + ·) 0
  let users := fun (xs : List (Nat × Nat)) => (xs.filter fun x => 0 < x.2).map (·.1)
  let b1 := if total rd > 6 then b.mark 7 (users rd) else b
  if total wr > 3 then b1.mark 7 (users wr) else b1

/-- Reason 3 of a LOOP whose end lies within its own bundle (R140). -/
def Bundle.loopReasons (b : Bundle) : Bundle :=
  b.ops.foldl (fun b (n, i) =>
    let short := fun (imm : BitVec 22) => if imm.toInt < (b.len : Int) then b.mark 3 [n] else b
    match i with
    | .loop _ _ imm => short imm
    | .loopi _ _ imm => short imm
    | .loopP _ _ _ imm => short imm
    | _ => b) b

/-- The bundle at an offset of a line, with the effective words of the one before it (R109 to R114), and what
makes it illegal (R130). -/
def bundleAt (line : List Byte) (prev : List (Nat × Nat)) (off : Nat) : Bundle :=
  let p := ofBytes (takeBytes 1 (line.drop off))
  let d := ofBytes (takeBytes 1 (line.drop (off + 1)))
  let raw := (List.range 8).foldl (Bundle.takeSlot line prev p d)
    { off := off, len := 2, words := [], reasons := 0, marks := 0 }
  raw.wordReasons.writeReasons.portReasons.loopReasons

/-- The bundles of a line from an offset: up to the line-end marker, or where fewer than two bytes remain, or
past a bundle that runs over the end (R111). -/
def walkLine (line : List Byte) (prev : List (Nat × Nat)) (off : Nat) : Nat → List Bundle
  | 0 => []
  | fuel + 1 =>
    if off + 2 > 64 then []
    else if ofBytes (takeBytes 2 (line.drop off)) = 0 then []
    else
      let b := bundleAt line prev off
      b :: walkLine line b.words (off + b.len) fuel

/-- The bundles of a line (R111). -/
def bundles (line : List Byte) : List Bundle := walkLine line [] 0 32

/-- A line of code read for fetch: the state after the read, its bytes and whether it is poisoned (R218,
R220). The walk of its translation is an execute access. -/
def State.codeLine (s : State) (va : Nat) : Except XErr (State × List Byte × Bool) :=
  match s.readAt s.agent (lineOf va) 64 .exec .fetch with
  | .error e => .error e
  | .ok (s1, x, l) => .ok (s1, lineToBytes (s1.visible s.task.tag l x), x.poison)

/-- The first bundle start that sequential fetch reaches from the start of a line, passing through empty
lines (R111); a line that cannot be read is where fetch will trap. -/
def State.nextStart (s : State) (line : Nat) : Nat → Nat
  | 0 => line
  | fuel + 1 =>
    if line ≥ Config.vaLimit then line
    else
      match s.codeLine line with
      | .ok (_, bs, false) => if (bundles bs).isEmpty then s.nextStart (line + 64) fuel else line
      | _ => line

/-- How many lines the address space holds, the most that sequential fetch can pass through. -/
def lineCount : Nat := 2 ^ 49

/-- The address of the bundle after one of a line's bundles (R137). -/
def State.nextBundle (s : State) (line : Nat) (bs : List Bundle) (b : Bundle) : Word :=
  let off := b.off + b.len
  if bs.any fun x => x.off == off then BitVec.ofNat 64 (line + off)
  else BitVec.ofNat 64 (s.nextStart (line + 64) lineCount)

/-- A trap that fetch raises at an address (R134, R138, R220). -/
def fetchTrap {α : Type} (c : Cause) (pc addr info : Word) : Act α :=
  .error (.trap { cause := c, addr := addr, info := info, at_ := .address pc })

/-- The transfer of control to a byte that is no bundle start (R112). -/
def notBundleStart {α : Type} (pc : Word) : Act α := fetchTrap .illbundle pc pc 0x100

/-- Fetch of the bundle at pc: the state after the read of its line, the bundle and the address of the next
one. -/
def State.fetch (s : State) (pc : Word) : Act (State × Bundle × Word) :=
  match s.codeLine pc.toNat with
  | .error (.fault code level _ _) =>
    fetchTrap .xlate pc pc (BitVec.ofNat 64 (xlateInfo .exec code level false))
  | .error e => .error (e.stop .exec pc false)
  | .ok (s1, bs, poisoned) =>
    if poisoned then fetchTrap .poison pc (BitVec.ofNat 64 (lineOf pc.toNat)) 0
    else
      let line := bundles bs
      match line.find? fun b => b.off == pc.toNat % 64 with
      | none => notBundleStart pc
      | some b => .ok (s1, b, s1.nextBundle (lineOf pc.toNat) line b)

/-- The address of the bundle after the end bundle of a level (R140, R144). -/
def State.afterEnd (s : State) (end_ : Word) : Act Word :=
  match s.fetch end_ with
  | .ok (_, _, next) => .ok next
  | .error e => .error e

end Sys2Proof.Machine
end

