-- ==== Sys2Proof/Machine/Issue.lean ====
section
/-! DEFINITION. When the slots of a bundle issue (R259 to R266): issue queues, the dispatch window, trap
points, the scoreboard and holds, in cycles of the arithmetic clock. -/

namespace Sys2Proof.Machine

def Issue.last (i : Issue) (q : Nat) : Nat :=
  match q with
  | 0 => i.lastC | 1 => i.lastV | 2 => i.lastM | _ => i.lastL

def Issue.setLast (i : Issue) (q t : Nat) : Issue :=
  match q with
  | 0 => { i with lastC := t } | 1 => { i with lastV := t } | 2 => { i with lastM := t } | _ => { i with lastL := t }

def Issue.hold (i : Issue) (q : Nat) : Nat :=
  match q with
  | 0 => i.holdC | 1 => i.holdV | 2 => i.holdM | _ => i.holdL

def Issue.setHold (i : Issue) (q t : Nat) : Issue :=
  match q with
  | 0 => { i with holdC := t } | 1 => { i with holdV := t } | 2 => { i with holdM := t } | _ => { i with holdL := t }

/-- The scale registers whose pending XLD an operation waits for: its destination (R191). -/
def scaleWaits : Instr → List Nat
  | .xset _ xd _ => [xd.toNat]
  | .xmov _ xd _ => [xd.toNat]
  | _ => []

/-- The coordinate registers of the entries that context x has bound to the level that a LOOP of it pushes
(R245, R246). -/
def Core.boundCoords (k : Core) (x : Nat) : List RegKey :=
  let lvl := (k.task x).loops.length
  (k.tiles.filter fun (_, t) => t.bound && t.ctx == x && t.lvl.toNat == lvl).flatMap fun (_, t) => coordKeys t.ac t.n

/-- The registers that an operation of context x reads, with those that its entry, its row operand or the fills that it
raises imply (R199, R209, R246, R247, R263). -/
def Core.readsOf (k : Core) (x : Nat) (i : Instr) : List RegKey :=
  reads i ++ match i with
    | .tfill _ e => let t := k.tile (k.tileName e.toNat); coordKeys t.ac t.n
    | .loop _ _ _ => k.boundCoords x
    | .loopi _ _ _ => k.boundCoords x
    | .loopP _ _ _ _ => k.boundCoords x
    | .mshiftl _ _ _ row _ _ _ => match row with
      | .imm n => [.row n.toNat]
      | .i0 => [.row ((k.task x).index 0).toNat]
    | _ => []

/-- What an operation reads of the array, which a task that has parked since reads completed (R33): rows, planes. -/
def readsRow : Instr → Bool
  | .mdrain _ _ _ _ _ _ _ => true
  | .mdrainz _ _ _ _ _ _ _ => true
  | _ => false

def readsPlane : Instr → Bool
  | .mshift _ _ _ _ _ _ _ _ => true
  | .mshiftl _ _ _ _ _ _ _ => true
  | .mshiftt _ _ _ _ _ _ _ _ => true
  | _ => false

/-- An operation waits for a pending result: for an XLD to its own destination (R191), and for what its task issued
before it parked (R33). -/
def Pend.awaited (p : Pend) (x : Nat) (i : Instr) : Bool :=
  let own := p.parked && p.ctx == x
  match p.what with
  | .scale n _ => (scaleWaits i).contains n || (own && (reads i).contains (.x n))
  | .acc _ _ _ _ => own && readsRow i
  | .push _ _ => own && readsPlane i

/-- The first cycle in which the registers of an operation are free (R263) and its own hold has ended
(R262). -/
def Core.ready (k : Core) (x : Nat) (i : Instr) : Nat :=
  let r := (k.readsOf x i).foldl (fun t key => max t (boardOf k.issue.board x key).deliver) 0
  let w := (writes i).foldl (fun t key =>
    let e := boardOf k.issue.board x key
    max t (max e.deliver e.lastRead)) r
  k.pend.foldl (fun t p => if p.awaited x i then max t p.due else t) w

/-- The bundles in the window keep the next one from being dispatched before this cycle (R260). -/
def Issue.windowOpens (i : Issue) : Nat := if i.window.length < 16 then 0 else i.window.getLast?.getD 0

/-- The results that a task has pending are to be waited for by its later operations (R33). -/
def Core.exposed (k : Core) (x : Nat) : Core :=
  { k with pend := k.pend.map fun p => if p.ctx = x then { p with parked := true } else p }

/-- The cycle in which a bundle is dispatched, and the cycle in which each of its queues issues. -/
structure Timing where
  dispatch : Nat
  at_ : List (Nat × Nat)
  trapAt : Nat
  deriving DecidableEq, Repr

/-- Dispatch and issue of a bundle of context x (R259 to R262): its trap points issue together, with the rest
of their queues' slots; each other queue's slots together, no earlier. (Log 109: DESIGN CHOICE) -/
def Core.timing (k : Core) (x : Nat) (ops : List SlotOp) : Timing :=
  let i := k.issue
  let d := max i.dispatch i.windowOpens
  let queues := (List.range 4).filter fun q => ops.any fun o => queueOf o.1 == q
  let traps := queues.filter fun q => ops.any fun o => queueOf o.1 == q && trapPoint o.1 o.2
  let own := fun (q : Nat) =>
    ops.foldl (fun t o => if queueOf o.1 == q then max t (k.ready x o.2) else t)
      (max (max d (i.last q + 1)) (max i.trapAt (i.hold q)))
  let tp := traps.foldl (fun t q => max t (own q)) i.trapAt
  { dispatch := d, trapAt := tp,
    at_ := queues.map fun q => (q, if traps.contains q then tp else max tp (own q)) }

/-- The cycle in which a slot issues. -/
def Timing.slot (t : Timing) (n : Nat) : Nat :=
  match t.at_.find? fun x => x.1 == queueOf n with
  | some x => x.2
  | none => t.dispatch

/-- The last cycle in which a slot of the bundle issues. -/
def Timing.done (t : Timing) : Nat := t.at_.foldl (fun m x => max m x.2) t.dispatch

/-- The cycle in which a trap of the bundle is taken: its trap points are ready and every earlier slot has
issued (R275). -/
def Timing.trap (t : Timing) (i : Issue) : Nat :=
  max (max t.trapAt t.dispatch) i.lastSlot

/-- What the issue of a bundle leaves behind: last issues, the window, the scoreboard. `late` gives the latency of a
slot's operation (R265), `uses` what it reads. -/
def Issue.issued (i : Issue) (x : Nat) (t : Timing) (ops : List SlotOp) (late : Instr → Nat)
    (uses : Instr → List RegKey) : Issue :=
  let i1 := t.at_.foldl (fun (i : Issue) (q : Nat × Nat) => i.setLast q.1 q.2) i
  let board := ops.foldl (fun b (n, op) =>
    let c := t.slot n
    let b1 := (uses op).foldl (fun b key =>
      let e := boardOf b x key
      putBoard b { e with lastRead := max e.lastRead c }) b
    (delivers n op).foldl (fun b key =>
      let e := boardOf b x key
      putBoard b { e with deliver := max e.deliver (c + late op), wrote := max e.wrote c }) b1) i.board
  { i1 with dispatch := t.dispatch + 1, trapAt := t.trapAt, nulls := 0, owed := false,
            window := (t.done :: i.window).take 16,
            board := board.filter fun e => t.dispatch < e.deliver || t.dispatch < e.lastRead }

/-- A guard is known at fetch: no write of its predicate is pending at dispatch (R266, R268). (Log 12: DEDUCED) -/
def Core.guardKnown (k : Core) (x : Nat) (d : Nat) (g : Guard) : Bool :=
  g.pred == 0 || ((boardOf k.issue.board x (.p g.pred.toNat)).deliver ≤ d &&
    !(k.loads.any fun l => l.ctx == x && l.pr == g.pred))

/-- A scalar count is known at fetch (R266). (Log 12: DEDUCED) -/
def Core.scalarKnown (k : Core) (x : Nat) (d : Nat) (r : SReg) : Bool :=
  (scalarKey r).all fun key => (boardOf k.issue.board x key).deliver ≤ d

/-- The cycle in which the bundle after a bundle is dispatched (R266), from the core as it stood before:
`moved` says that control moved, and `predicted` that a RET was predicted. -/
def Core.nextDispatch (k : Core) (x : Nat) (t : Timing) (c : Option Instr) (moved predicted : Bool) : Nat :=
  let d := t.dispatch
  let ti := t.slot 0
  let known := fun (g : Guard) => k.guardKnown x d g
  let wait := ti + 1 + (if moved then 3 else 1)
  match c with
  | none => d + 1
  | some i =>
    match i with
    | .br g _ => if known g then (if moved then d + 2 else d + 1) else wait
    | .brl g _ => if known g then (if moved then d + 2 else d + 1) else wait
    | .jmp _ _ _ => wait
    | .jmpl _ _ _ => wait
    | .lbrk _ => wait
    | .lcont _ => wait
    | .ret g => if known g && !moved then d + 1 else if known g && predicted then d + 2 else wait
    | .loop g sa _ => if known g && k.scalarKnown x d sa then d + 1 else ti + 2
    | .loopi g _ _ => if known g then d + 1 else ti + 2
    | .loopP g sa _ _ => if known g && k.scalarKnown x d sa then d + 1 else ti + 2
    | _ => d + 1

/-- A SYNC of context x that has issued (R146): later slots of the masked queues wait until each has issued
through this bundle and, with LAND, until the results of those queues have landed. -/
def Core.syncHold (k : Core) (x : Nat) (mask : BitVec 4) (land : Bool) : Issue :=
  let qs := (List.range 4).filter fun q => mask.getLsbD q
  let through := qs.foldl (fun m q => max m (k.issue.last q)) 0
  let landed := if land then
    k.pend.foldl (fun m p =>
      if p.ctx == x && qs.contains (if p.isScale then 0 else 2) then max m p.due else m) through
    else through
  qs.foldl (fun (i : Issue) q => i.setHold q (max (i.hold q) landed)) k.issue

end Sys2Proof.Machine
end

