-- ==== Sys2Proof/Machine/Commit.lean ====
section
/-! DEFINITION. The end of a bundle: what holds, what traps, what commits (R133, R137, R262, R272), and the
passing of cycles on a core. -/

namespace Sys2Proof.Machine

/-- The clock of core n moves to cycle t: READY tasks are passed over while another task holds the pipeline
or a switch is in progress (R30). -/
def State.tick (s : State) (n t : Nat) : State :=
  let k := s.coreAt n
  let d := t - k.clock
  let busy := k.issuing.isSome || k.switch.isSome
  let tasks := k.tasks.map fun (x, u) =>
    (x, if busy && u.st == .ready then { u with passed := u.passed + d } else u)
  s.setCoreAt n { k with clock := max k.clock t, tasks := if d = 0 then k.tasks else tasks }

/-- A core on which no task is ISSUING stands at the cycle that every core has reached. -/
def State.catchUp (s : State) (n : Nat) : State :=
  let k := s.coreAt n
  if k.issuing.isNone && k.switch.isNone && k.clock < s.front then s.tick n s.front else s

/-- One cycle passes in which the task's next bundle cannot be fetched. -/
def State.waitCycle (s : State) : State :=
  let t := s.core.clock + 1
  let s1 := s.tick s.c t
  s1.setCore { s1.core with issue := { s1.core.issue with dispatch := max s1.core.issue.dispatch t } }

/-- A bundle that has been dispatched holds in this cycle (R262): its trap points and every later slot wait for the
next. A hold that ends before its trap points are to issue costs nothing. -/
def State.waitIssue (s : State) : State :=
  let t := s.core.clock + 1
  let s1 := s.tick s.c t
  s1.setCore { s1.core with issue := { s1.core.issue with trapAt := max s1.core.issue.trapAt t, owed := true } }

/-- The trap that a bundle records where its slots raise several (R272). -/
def chooseTrap (traps : List (Nat × Trap)) : Option (Nat × Trap) :=
  match traps.find? fun x => x.2.cause == .priv with
  | some x => some x
  | none => traps.foldl (fun best x =>
      match best with
      | none => some x
      | some b => if x.1 < b.1 then some x else some b) none

/-- The end address of the innermost of these levels where it lies between two addresses (R142). (Log 26: DEDUCED) -/
def endWithin (lo hi : Nat) (loops : List Level) : Option Word :=
  match loops with
  | l :: _ => if lo < l.endAddr.toNat && l.endAddr.toNat < hi then some l.endAddr else none
  | [] => none

/-- A control effect after which fetch goes on in sequence. -/
def Ctl.inSequence : Ctl → Bool
  | .park _ => true
  | .trapAfter _ => true
  | .stop _ => true
  | .sequel => true
  | _ => false

/-- The trap of a level that ends at no bundle start (R142). -/
def endTrap (e : Word) : Trap := { cause := .illbundle, addr := e, info := 0x100, at_ := .address e }

/-- Fetch leaves a bundle of `len` bytes with a level that ends at no bundle start (R142): one that was innermost before
its slots (`pre`) or is now, and ends within it; or, where fetch goes on in sequence, one that is innermost then and ends
before the next bundle. (Log 26: DEDUCED) -/
def State.passedEnd (s : State) (len : Nat) (pre : List Level) (inSequence : Bool) : Option Word :=
  let pc := s.task.pc.toNat
  let on := s.goOn.task
  let past := if inSequence && on.pc == s.task.link then endWithin pc s.task.link.toNat on.loops else none
  ((endWithin pc (pc + len) pre).or (endWithin pc (pc + len) s.task.loops)).or past

/-- Control after every slot of the bundle of `len` bytes has committed (R137): the C slot's effect at cycle T, or the
loop-back, or the next bundle; and the trap of a level that ends within it (R142), which a task that parks or stops
takes when it goes on. `pre` are the levels before the bundle. (Log 24: DEDUCED; 26: DEDUCED) -/
def State.leaveBundle (s : State) (T len : Nat) (pre : List Level) (c : Option Ctl) : State :=
  let s1 := match c with
    | none => s.goOn
    | some c => s.applyCtl T c
  match s.passedEnd len pre (match c with | none => true | some c => c.inSequence) with
  | none => s1
  | some e =>
    match c with
    | some .exit => s1
    | some .endTenancy => s1
    | some (.park _) => s1.defer 0 (endTrap e)
    | some (.stop _) => s1.defer 0 (endTrap e)
    | some (.trapAfter _) => let s2 := s.goOn; s2.takeTrap s2.core.afterSlots 0 (endTrap e)
    | _ => s1.takeTrap s1.core.afterSlots 0 (endTrap e)

/-- A control effect that comes behind every slot of the bundle, and so behind those that wait (R137). -/
def Ctl.ends : Ctl → Bool
  | .exit => true
  | .endTenancy => true
  | .stop _ => true
  | .trapAfter _ => true
  | .sequel => true
  | _ => false

/-- A control effect that comes behind the remote access on which the bundle's L slot parks: a stop and a trap (R28, R38). -/
def Ctl.outlasts : Ctl → Bool
  | .stop _ => true
  | .trapAfter _ => true
  | .sequel => true
  | _ => false

/-- The control effect that is left when the bundle's slots have executed: that which comes behind the slots that wait,
or behind the park of the L slot; and where the bundle parks and a level ends at it, the loop-back, whose fills come
behind its accesses (R141, R313). (Log 44: DEDUCED; 113: DEDUCED; 121: DEDUCED) -/
def Frame.after (f : Frame) : Option Ctl :=
  let ends := f.task.endsAt f.task.pc
  match f.ctl with
  | some (.park _) => if ends then some .sequel else none
  | some c => if (c.ends && !f.later.isEmpty) || (c.outlasts && f.park.isSome) then some c else none
  | none => if ends && !f.resumed && (f.park.isSome || !f.later.isEmpty) then some .sequel else none

/-- What a bundle leaves to be done once its own park is over (R312, R314), or its accesses performed (R331): its slots
that wait, one after the other, and then what is left of its control. (Log 113: DEDUCED) -/
def Frame.waiting (f : Frame) : Option Frame :=
  let g := { f with ops := [], traps := [], holds := [], ctl := f.after, park := none, resumed := true }
  match f.later with
  | o :: rest => some { g with ops := [o], later := rest }
  | [] => if f.after.isSome then some g else none

/-- The bundle, or its slot that had to wait, has committed: what is due of its control takes effect at cycle T, and then
the park of its L slot. -/
def State.finish (s : State) (T : Nat) (f : Frame) : State :=
  let s1 := match f.after with
    | some _ =>
      match f.ctl with
      | some (.park c) => s.parkNow c
      | _ => s
    | none => if f.resumed && f.ctl.isNone then s else s.leaveBundle T f.len f.task.loops f.ctl
  match f.park with
  | some c => s1.parkAfter c
  | none => s1

/-- The task leaves the pipeline with its bundle, or traps behind it. -/
def Frame.leaves (f : Frame) : Bool :=
  f.park.isSome || (f.after.isNone || f.ctl.any fun c => match c with | .park _ => true | _ => false) &&
    match f.ctl with
    | some .exit => true
    | some .endTenancy => true
    | some c => c.inSequence
    | none => false

/-- The end of a bundle with timing `tm`: `before` is the state in which it was fetched, `after` the one its
slots have left. A hold keeps it from issuing, and counts as a stall from the cycle in which it would have issued; a trap
leaves no slot of it issued; else it commits. The clock goes on to the dispatch of the next bundle (R260, R266). -/
def State.closeBundle (before after : State) (tm : Timing) (c : Option Instr) : State :=
  match after.frame with
  | none => after
  | some f =>
    if !f.holds.isEmpty then
      let s := before.waitIssue
      if before.core.clock < tm.trapAt then s else s.holdBack f.holds
    else
      let before := if f.resumed then before.setLater before.c before.x none else before
      match chooseTrap f.traps with
      | some (n, t) =>
        let T := tm.trap before.core.issue
        (before.tick before.c T).takeTrap T (BitVec.ofNat 8 (2 ^ n)) t
      | none =>
        let s0 := ({ after with frame := none } : State).modTask fun t => { t with stall := 0, stallOn := none }
        let s0 := if f.resumed then s0.modCore fun k => k.exposed s0.x else s0
        let s0 := s0.setLater s0.c s0.x f.waiting
        let s1 := if f.leaves then s0.tick s0.c s0.core.afterSlots else s0
        let s2 := s1.finish (tm.slot 0) f
        let moved := match f.ctl with | some (.go _) => true | some (.loopBack _) => true | _ => false
        let predicted := before.task.returns.head? == some (s2.taskAt s1.c s1.x).pc
        let d := before.core.nextDispatch before.x tm c moved predicted
        let k := s2.coreAt s1.c
        let d := max (max k.issue.dispatch d) k.issue.windowOpens
        (s2.setCoreAt s1.c { k with issue := { k.issue with dispatch := d } }).tick s1.c d

/-- The nullifier removes a bundle when every guard is known at fetch and false (R268); the guard of a NOP
counts as false. -/
def State.nullified (s : State) (ops : List SlotOp) : Bool :=
  ops.all fun (n, i) => isNop i ||
    (s.core.guardKnown s.x s.core.issue.dispatch (guardOf i) &&
      (if n = 3 || n = 4 then s.guardLanes (guardOf i) == 0 else !s.guard (guardOf i)))

/-- A removed bundle has no effect but its loop-back (R269); two are removed in a cycle beside the bundle that
is dispatched in it (R268). (Log 31: DEDUCED) -/
def State.removeBundle (s : State) (len : Nat) : State :=
  let i := s.core.issue
  let i1 := { i with nulls := i.nulls + 1, dispatch := if i.nulls % 2 = 0 && 0 < i.nulls then i.dispatch + 1 else i.dispatch }
  (s.setCore { s.core with issue := i1 }).leaveBundle i1.dispatch len s.task.loops none

end Sys2Proof.Machine
end

