-- ==== Sys2Proof/Machine/Operands.lean ====
section
/-! DEFINITION. Operands: elements of vectors (R47, R48), vector sources and destinations with the quad
queues (R44 to R60), and the addresses that L and E slots form (R216). -/

namespace Sys2Proof.Machine

/-- Element e of a vector in a format (R47). -/
def elem (f : Fmt) (v : VBits) (e : Nat) : Nat := (v.extractLsb' (fmtWidth f * e) (fmtWidth f)).toNat

/-- A number made of n fields of w bits, the first lowest. -/
def packNat (w n : Nat) (g : Nat → Nat) : Nat := (List.range n).foldr (fun e acc => acc * 2 ^ w + g e % 2 ^ w) 0

/-- The vector of a format's elements (R47). -/
def mkVec (f : Fmt) (g : Nat → Nat) : VBits := BitVec.ofNat 8192 (packNat (fmtWidth f) (fmtCount f) g)

/-- The lane that governs element e of a format (R48). -/
def laneOf (f : Fmt) (e : Nat) : Nat := if f == .i64 then 2 * e else e * fmtWidth f / 32

/-- A lane mask as it enables elements: for I64 the even lane of each pair stands for both (R48). -/
def laneMask (f : Fmt) (m : Lanes) : Lanes :=
  if f == .i64 then BitVec.ofNat 256 (packNat 1 256 fun i => if m.getLsbD (i / 2 * 2) then 1 else 0) else m

/-- Each lane of a mask spread over its four bytes (R48). -/
def spreadLanes (m : Lanes) : VBits :=
  if m = BitVec.allOnes 256 then BitVec.allOnes 8192
  else BitVec.ofNat 8192 (packNat 32 256 fun i => if m.getLsbD i then 2 ^ 32 - 1 else 0)

/-- Lanes of `new` where the mask holds, of `old` elsewhere (R50). -/
def mergeLanes (m : Lanes) (new old : VBits) : VBits := (new &&& spreadLanes m) ||| (old &&& ~~~ spreadLanes m)

/-- Whether a selection predicate takes element e (R172). -/
def selects (f : Fmt) (p : Lanes) (e : Nat) : Bool := p.getLsbD (laneOf f e)

/-- An element of the core with an uncorrectable error traps STATE-UE when it is read (R274); a result-queue entry goes by
16 times its context plus its place. -/
def State.sound (s : State) (kind index : Nat) : Act Unit :=
  if s.core.bad.contains (kind, index) then
    trapNow .stateue 0 (BitVec.ofNat 64 (kind + index % (if kind = 8 then 16 else 4096) * 2 ^ 16))
  else .ok ()

/-- Queue k as the executing core's quad holds it. -/
def State.myQueue (s : State) (k : Nat) : Queue := s.queue (quadOf s.c) k

def State.setMyQueue (s : State) (k : Nat) (q : Queue) : State := s.setQueue (quadOf s.c) k q

/-- A queue whose last QCFG tag has the null generation is unconfigured (R381). -/
def Queue.configured (q : Queue) : Bool := tagGen q.tag ≠ 0

/-- The executing core is queue k's consumer, or QUEUE traps (R59). -/
def State.mustConsume (s : State) (k : Nat) : Act Unit :=
  let q := s.myQueue k
  if q.configured && q.cons.toNat = memberOf s.c then .ok () else queueTrap k 1

/-- The executing core is queue k's producer, or QUEUE traps (R59). -/
def State.mustProduce (s : State) (k : Nat) : Act Unit :=
  let q := s.myQueue k
  if q.configured && q.prod.toNat = memberOf s.c then .ok () else queueTrap k 2

/-- An entry as it is delivered: converted from FS to FK element by element, zero where FS has no such
element (R60). -/
def Queue.deliver (q : Queue) (v : VBits) : VBits :=
  if q.fs == q.fk then v
  else mkVec q.fk fun e => if e < fmtCount q.fs then convert q.fs q.fk q.rm q.sat (elem q.fs v e) else 0

/-- The delivered entry j places from the read pointer (R56, R67). -/
def State.readQueue (s : State) (k j : Nat) : Act VBits := do
  s.mustConsume k
  let q := s.myQueue k
  if q.fill < j + 1 then parkStall (.queueFill k (j + 1))
  else
    let pos := (q.rd.toNat + j) % 8
    s.sound 6 (8 * k + pos)
    let e := SMap.get VReg.zero q.entries pos
    .ok (q.deliver (if s.seen e.tag then e.data else 0))

/-- The queue advanced by n entries (R55). -/
def Queue.advance (q : Queue) (n : Nat) : Queue :=
  { q with rd := BitVec.ofNat 3 (q.rd.toNat + n), fill := q.fill - n }

/-- An entry placed behind the last one (R55). -/
def Queue.place (q : Queue) (e : VReg) : Queue :=
  { q with entries := SMap.set VReg.zero q.entries ((q.rd.toNat + q.fill) % 8) e, fill := q.fill + 1 }

/-- A vector source (R44, R51, R56). -/
def State.readV (s : State) : VSrc → Act VBits
  | .v n => do s.sound 2 n.toNat; .ok (s.vreg n.toNat)
  | .t n => do s.sound 8 (16 * s.x + n.toNat); .ok (s.result n.toNat)
  | .k n j _ => s.readQueue n.toNat j.toNat

/-- The queues that a slot's sources advance, each once (R56). -/
def advances (srcs : List VSrc) : List Nat :=
  ((List.range 16).filter fun k => srcs.any fun v => match v with | .k n _ adv => adv && n.toNat == k | _ => false)

/-- The advances of a slot, after it has read (R56). -/
def State.advanceAll (s : State) (srcs : List VSrc) : State :=
  (advances srcs).foldl (fun s k => s.setMyQueue k ((s.myQueue k).advance 1)) s

/-- The vector sources of a slot, with the queues advanced. -/
def State.readVs (s : State) (srcs : List VSrc) : Act (State × List VBits) := do
  let vs ← srcs.mapM s.readV
  .ok (s.advanceAll srcs, vs)

/-- A producer write leaves for queue k: it waits while the queue's entries, with the writes still on their way to it, make 8
(R58), and lands in the order of issue (R253). (Log 153: DESIGN CHOICE) -/
def State.produce (s : State) (k : Nat) (v : VBits) (latency : Nat) : Act State := do
  s.mustProduce k
  let q := s.myQueue k
  if q.fill + q.landing.length ≥ 8 then parkStall (.queueSpace k)
  else .ok (s.setMyQueue k { q with landing := q.landing ++ [{ data := v, tag := s.task.tag, due := s.now + latency }] })

/-- The result of a V-slot operation under its guard (R50): the enabled lanes go to the destination and the
pushed entry; the disabled lanes keep what vN held, or are zero. -/
def State.putResult (s : State) (f : Fmt) (g : Lanes) (vd : VDst) (v : VBits) (latency : Nat) : Act State :=
  let m := laneMask f g
  match vd with
  | .v n =>
    let w := mergeLanes m v (s.vregNow n.toNat)
    .ok ((s.putV n.toNat w).pushResult w)
  | .none => .ok (s.pushResult (mergeLanes m v 0))
  | .k k => do
    let w := mergeLanes m v 0
    let s1 ← s.produce k.toNat w latency
    .ok (s1.pushResult w)

/-- A V-slot operation: no effect where its guard is false in every lane (R50); else its sources are read, the
queues advance, and the result goes out. (Log 22: DEDUCED) -/
def State.vectorOp (s : State) (g : Guard) (f : Fmt) (vd : VDst) (srcs : List VSrc) (latency : Nat)
    (op : List VBits → VBits) : Host.Outcome State Fault Refusal :=
  let lanes := s.guardLanes g
  if lanes = 0 then .next s
  else s.settle do
    let (s1, vs) ← s.readVs srcs
    s1.putResult f lanes vd (op vs) latency

/-- The first, second and third source. -/
def src1 (vs : List VBits) : VBits := vs.headD 0
def src2 (vs : List VBits) : VBits := vs.tail.headD 0
def src3 (vs : List VBits) : VBits := vs.tail.tail.headD 0

/-- One-, two- and three-source lane operations (R169, R179). -/
def lanes1 (f : Fmt) (h : Nat → Nat) (vs : List VBits) : VBits := mkVec f fun e => h (elem f (src1 vs) e)

def lanes2 (f : Fmt) (h : Nat → Nat → Nat) (vs : List VBits) : VBits :=
  mkVec f fun e => h (elem f (src1 vs) e) (elem f (src2 vs) e)

def lanes3 (f : Fmt) (h : Nat → Nat → Nat → Nat) (vs : List VBits) : VBits :=
  mkVec f fun e => h (elem f (src1 vs) e) (elem f (src2 vs) e) (elem f (src3 vs) e)

/-- The effective address a[AB] + OFF + s[SA] (R216); s0 gives none. -/
def State.address (s : State) (ab : BitVec 5) (off : BitVec 20) (sa : SReg) : Word :=
  s.areg ab + off.signExtend 64 + s.scalar sa

/-- The address a[AB] + OFF. -/
def State.baseAddress (s : State) (ab : BitVec 5) (off : BitVec 20) : Word := s.areg ab + off.signExtend 64

end Sys2Proof.Machine
end

