-- ==== Sys2Proof/Machine/Flags.lean ====
section
/-! DEFINITION. Conditions. The GN-96 has no flags register: a comparison writes a predicate (R162, R171).
Here are the conditions on elements and the writing of the predicates they give. -/

namespace Sys2Proof.Machine

/-- a = b as floats: false with a NaN, and +0 = -0 (R176). -/
def floatEq (f : Fmt) (a b : Nat) : Bool :=
  !isNaN (floatVal f a) && !isNaN (floatVal f b) && xcmp (floatVal f a) (floatVal f b) == .eq

/-- a < b as floats: false with a NaN (R176). -/
def floatLt (f : Fmt) (a b : Nat) : Bool :=
  !isNaN (floatVal f a) && !isNaN (floatVal f b) && xcmp (floatVal f a) (floatVal f b) == .lt

/-- a = b and a < b as signed integers of the format (R176). -/
def intEq (f : Fmt) (a b : Nat) : Bool := intVal (fmtWidth f) a == intVal (fmtWidth f) b
def intLt (f : Fmt) (a b : Nat) : Bool := intVal (fmtWidth f) a < intVal (fmtWidth f) b

/-- The predicate lanes of a condition on elements: a lane is true when the condition holds for every element
it governs, and for I64 both lanes of a pair take the element's (R171). -/
def condLanes (f : Fmt) (cond : Nat → Bool) : Lanes :=
  let per := 32 / fmtWidth f
  BitVec.ofNat 256 (packNat 1 256 fun n =>
    if f == .i64 then (if cond (n / 2) then 1 else 0)
    else if (List.range per).all fun j => cond (per * n + j) then 1 else 0)

/-- The pushed entry of a compare: all ones in each element whose condition holds (R171). -/
def condEntry (f : Fmt) (cond : Nat → Bool) : VBits := mkVec f fun e => if cond e then 2 ^ fmtWidth f - 1 else 0

/-- A compare form (R171): the enabled lanes of pD take the condition, the others keep their values, and one
entry is pushed. -/
def State.compareOp (s : State) (g : Guard) (f : Fmt) (pd : BitVec 4) (srcs : List VSrc)
    (cond : List VBits → Nat → Bool) : Host.Outcome State Fault Refusal :=
  let lanes := s.guardLanes g
  if lanes = 0 then .next s
  else s.settle do
    let (s1, vs) ← s.readVs srcs
    let hold := condLanes f (cond vs)
    let s2 := s1.putPred pd ((hold &&& lanes) ||| (s1.pred pd &&& ~~~ lanes))
    .ok (s2.pushResult (mergeLanes (laneMask f lanes) (condEntry f (cond vs)) 0))

/-- A scalar compare: every lane of pD takes the condition (R162). -/
def State.scalarCompare (s : State) (g : Guard) (pd : BitVec 4) (cond : Bool) : Host.Outcome State Fault Refusal :=
  s.guarded g fun s => .ok (s.putPred pd (allLanes cond))

end Sys2Proof.Machine
end

