-- ==== Sys2Proof/Machine/Predicate.lean ====
section
/-! DEFINITION. P slot: predicate logic, scale registers and queue formats (R189 to R193). -/

namespace Sys2Proof.Machine

/-- A P-slot operation with a predicate destination under its guard (R189). -/
def State.predOp (s : State) (g : Guard) (pd : BitVec 4) (v : Lanes) : Host.Outcome State Fault Refusal :=
  s.guarded g fun s => .ok (s.putPred pd v)

/-- A predicate by lanes. -/
def byLane (f : Nat → Bool) : Lanes := BitVec.ofNat 256 (packNat 1 256 fun i => if f i then 1 else 0)

/-- P NOP. -/
def execPNop (_ : Guard) (s : State) : Host.Outcome State Fault Refusal := .next s

/-- PAND (R189). -/
def execPand (g : Guard) (pd pa pb : BitVec 4) (s : State) : Host.Outcome State Fault Refusal := s.predOp g pd (s.pred pa &&& s.pred pb)

/-- POR (R189). -/
def execPor (g : Guard) (pd pa pb : BitVec 4) (s : State) : Host.Outcome State Fault Refusal := s.predOp g pd (s.pred pa ||| s.pred pb)

/-- PXOR (R189). -/
def execPxor (g : Guard) (pd pa pb : BitVec 4) (s : State) : Host.Outcome State Fault Refusal := s.predOp g pd (s.pred pa ^^^ s.pred pb)

/-- PANDN (R189). -/
def execPandn (g : Guard) (pd pa pb : BitVec 4) (s : State) : Host.Outcome State Fault Refusal := s.predOp g pd (s.pred pa &&& ~~~ (s.pred pb))

/-- PNOT (R189). -/
def execPnot (g : Guard) (pd pa : BitVec 4) (s : State) : Host.Outcome State Fault Refusal := s.predOp g pd (~~~ (s.pred pa))

/-- PSETI (R189): lane l takes bit l mod 8 of n. -/
def execPseti (g : Guard) (pd : BitVec 4) (n : BitVec 8) (s : State) : Host.Outcome State Fault Refusal :=
  s.predOp g pd (byLane fun l => n.getLsbD (l % 8))

/-- PLANES (R189): the lanes of pA below n. -/
def execPlanes (g : Guard) (pd pa : BitVec 4) (n : BitVec 9) (s : State) : Host.Outcome State Fault Refusal :=
  s.predOp g pd (s.pred pa &&& BitVec.ofNat 256 (2 ^ n.toNat - 1))

/-- PBCST (R189): lane n of pA everywhere. -/
def execPbcst (g : Guard) (pd pa : BitVec 4) (n : BitVec 8) (s : State) : Host.Outcome State Fault Refusal :=
  s.predOp g pd (allLanes ((s.pred pa).getLsbD n.toNat))

/-- PANY (R189). -/
def execPany (g : Guard) (pd pa : BitVec 4) (s : State) : Host.Outcome State Fault Refusal := s.predOp g pd (allLanes (s.pred pa != 0))

/-- PALL (R189). -/
def execPall (g : Guard) (pd pa : BitVec 4) (s : State) : Host.Outcome State Fault Refusal :=
  s.predOp g pd (allLanes (s.pred pa == BitVec.allOnes 256))

/-- PROT (R189): lane l takes lane l - n. -/
def execProt (g : Guard) (pd pa : BitVec 4) (n : BitVec 8) (s : State) : Host.Outcome State Fault Refusal :=
  s.predOp g pd ((s.pred pa).rotateLeft n.toNat)

/-- The checks of XLD on its address, in order (R190). -/
def State.xldCheck (s : State) (a : Word) : Act Nat :=
  let v := a.toNat
  if v % 64 ≠ 0 then trapNow .align a a
  else if v ≥ 2 ^ 22 || v / 2 ^ 20 ≠ memberOf s.c then trapNow .lsrange a a
  else if !s.inScratch s.c (v % 2 ^ 20) 512 then trapNow .lsrange a a
  else .ok (v % 2 ^ 20)

/-- A range of local lines of a core holds no uncorrectable error that a read would meet (R274). -/
def State.soundLines (s : State) (n off len : Nat) : Act Unit :=
  match (List.range ((off + len - 1) / 64 + 1 - off / 64)).find? fun i =>
      (s.coreAt n).bad.contains (5, off / 64 + i) with
  | some i => trapNow .stateue 0 (BitVec.ofNat 64 (5 + (off / 64 + i) % 4096 * 2 ^ 16))
  | none => .ok ()

/-- XLD (R190, R191): the 512 bytes are read at issue and land 12 cycles later. -/
def execXld (g : Guard) (xd : BitVec 4) (ab : BitVec 5) (off : BitVec 11) (s : State) : Host.Outcome State Fault Refusal :=
  s.guarded g fun s => do
    let a := s.areg ab + (off.signExtend 64 <<< 6)
    let o ← s.xldCheck a
    s.soundLines s.c o 512
    let (s1, bs) ← s.localRead s.c o 512 a false
    let p : Pend := { due := s1.now + Config.xldLatency + s.bankDelay s.c o 512, ctx := s1.x, tag := s1.task.tag,
                      what := .scale xd.toNat (BitVec.ofNat 4096 (ofBytes bs)) }
    .ok ((s1.touch s1.c o 512 8 6).modCore fun k => { k with pend := k.pend ++ [p] })

/-- XSET or XMOV: the XLDs that have landed by now are in place before it writes (R191). -/
def State.writeScale (s : State) (xd : BitVec 4) (v : XBits) : State :=
  (s.landDue s.c s.now Pend.isScale).putX xd.toNat v

/-- XSET (R192): every byte of xD. -/
def execXset (g : Guard) (xd : BitVec 4) (n : BitVec 8) (s : State) : Host.Outcome State Fault Refusal :=
  s.guarded g fun s => .ok (s.writeScale xd (BitVec.ofNat 4096 (packNat 8 512 fun _ => n.toNat)))

/-- XMOV (R192); a source whose XLD has not landed gives its old contents (R191). -/
def execXmov (g : Guard) (xd xa : BitVec 4) (s : State) : Host.Outcome State Fault Refusal :=
  s.guarded g fun s => do
    s.sound 4 xa.toNat
    .ok (s.writeScale xd (s.scaleAt xa.toNat s.now))

/-- QFMT (R193): queue N's formats, unless its last QCFG was another tenancy's. -/
def execQfmt (g : Guard) (k : BitVec 4) (fs fk : Fmt) (rm : RM) (sat : Bool) (s : State) : Host.Outcome State Fault Refusal :=
  s.guarded g fun s =>
    let q := s.myQueue k.toNat
    if q.tag != s.task.tag then queueTrap k.toNat 3
    else .ok (s.setMyQueue k.toNat { q with fs := fs, fk := fk, rm := rm, sat := sat })

end Sys2Proof.Machine
end

