-- ==== Sys2Proof/Machine/Matrix.lean ====
section
/-! DEFINITION. M slot: planes, operand latch, beats, drains (R194 to R213) and their arithmetic (R82 to
R85). -/

namespace Sys2Proof.Machine

/-- An M-slot operation under its guard: first every contribution and push due by its issue lands (R201).
(Log 21: DEDUCED) -/
def State.matrixOp (s : State) (g : Guard) (f : State → Act State) : Host.Outcome State Fault Refusal :=
  if s.guard g then s.settle (f (s.landDue s.c s.now fun p => !p.isScale)) else .next s

/-- The row operand: ROW, or i0 below the limit (R199). -/
def State.rowOperand (s : State) (r : MRow) (limit : Nat) : Act Nat :=
  match r with
  | .imm n => .ok n.toNat
  | .i0 =>
    let i := s.scalar (.i 0)
    if i.toNat < limit then .ok i.toNat else outOfRange i

/-- The effective accumulator row (R53). -/
def State.accRowOf (s : State) (a : AccRef) : Act Nat :=
  match a.ax with
  | none => .ok a.row.toNat
  | some n =>
    let r := (a.row.toNat + (s.areg n).toNat % 4096) % 4096
    if r ≥ 3072 then outOfRange (BitVec.ofNat 64 r) else .ok r

/-- A TILEBIND trap on entry e with the row operand and an error code (R207, R248). -/
def tileTrap {α : Type} (e state row code : Nat) : Act α :=
  trapNow .tilebind 0 (BitVec.ofNat 64 (e % 64 + state * 2 ^ 6 + row % 256 * 2 ^ 8 + code * 2 ^ 16))

def TileState.code : TileState → Nat
  | .empty => 0 | .filling => 1 | .ready => 2 | .draining => 3

/-- An entry as the task's tile instructions see it: an entry of the null generation is empty and unbound
(R381). -/
def Core.seenTile (k : Core) (e : Nat) : Tile := if tagGen (k.tile e).tag = 0 then Tile.none else k.tile e

/-- An entry that an instruction reads is ready, under the task's tag and long enough (R207, R248). -/
def State.tileReady (s : State) (name row need : Nat) : Act Tile :=
  let e := s.core.tileName name
  let t := s.core.seenTile e
  if t.tag != s.task.tag && t != Tile.none then tileTrap e t.st.code row 0
  else if t.code = 4 then trapNow .xlate t.faultAddr t.faultInfo
  else if t.code = 5 then trapNow .poison t.faultAddr 0
  else if t.code ≠ 0 then tileTrap e t.st.code row t.code.toNat
  else
    match t.st with
    | .filling => parkStall (.tile e)
    | .empty => tileTrap e 0 row 0
    | .draining => tileTrap e 3 row 0
    | .ready =>
      if t.rows * 128 < need then tileTrap e 2 row 0
      else do
        s.sound 7 e
        .ok t

/-- Bytes of a ready tile of the executing core from an offset, under the tag rule (R222); a stash-mapped range is filled
(R288), a line with an uncorrectable error traps (R274), and the read uses its banks (R285). -/
def State.tileBytes (s : State) (t : Tile) (off len : Nat) : Act (State × List Byte) := do
  s.soundLines s.c (t.base + off) len
  let (s1, bs, pz) ← s.localLoad s.task.tag s.c (t.base + off) len (BitVec.ofNat 64 (memberOf s.c * 2 ^ 20 + t.base + off)) false
  .ok ((s1.notePoison pz).useBanks s1.c (t.base + off) len, bs)

/-- M NOP. -/
def execMNop (_ : Guard) (s : State) : Host.Outcome State Fault Refusal := .next s

/-- The formats of the A and B sides of a paired format; VQ2 reads B as E4M3 (R119, R209). -/
def sideA : MFmt → Fmt
  | .bf16 => .bf16 | .f16 => .f16 | .e4m3 => .e4m3 | .e5m2 => .e5m2 | .e4m3e5m2 => .e4m3 | .e2m1 => .e2m1
  | .vq2 => .e4m3 | .i8 => .i8

def sideB : MFmt → Fmt
  | .bf16 => .bf16 | .f16 => .f16 | .e4m3 => .e4m3 | .e5m2 => .e5m2 | .e4m3e5m2 => .e5m2 | .e2m1 => .e2m1
  | .vq2 => .e4m3 | .i8 => .i8

/-- The group that 128 VQ2 indices decode to (R206): index j gives eight rows of column j mod 64. -/
def vq2Group (q : Nat → Nat) : VBits :=
  BitVec.ofNat 8192 (packNat 8 1024 fun b =>
    let k := b / 64
    round .e4m3 .rne false (vq2Val (q (64 * (k / 8) + b % 64)) (k % 8)))

/-- What a push of group g places, from the source's bytes (R206): for VQ2 the 256 bytes that hold its
indices. -/
def pushGroup (f : MFmt) (src : Nat) : VBits :=
  match f with
  | .vq2 => vq2Group fun j => src / 2 ^ (16 * j) % 2 ^ 16
  | _ => BitVec.ofNat 8192 src

/-- A push leaves for the plane that is in the background now, 16 cycles on (R201, R202), and `late` cycles for the banks
of its source (R285). -/
def State.startPush (s : State) (g : Nat) (data : VBits) (late : Nat) : State :=
  let k := s.core
  let bg := if k.fore then 0 else 1
  s.setCore { k with pend := k.pend ++ [{ due := s.now + Config.pushLatency + late, ctx := s.x, tag := s.task.tag,
                                          what := .push (8 * bg + g) data }] }

/-- MPUSH (R206). -/
def execMpush (g : Guard) (f : MFmt) (vs : VSrc) (row : MRow) (s : State) : Host.Outcome State Fault Refusal :=
  s.matrixOp g fun s => do
    let r ← s.rowOperand row 8
    let v ← s.readV vs
    let src := if f == .vq2 then v.toNat / 2 ^ (2048 * (r % 4)) % 2 ^ 2048 else v.toNat
    .ok ((s.advanceAll [vs]).startPush r (pushGroup f src) 0)

/-- MPUSHT (R206, R207). -/
def execMpusht (g : Guard) (f : MFmt) (e : BitVec 6) (row : MRow) (s : State) : Host.Outcome State Fault Refusal :=
  s.matrixOp g fun s => do
    let r ← s.rowOperand row 8
    let size := if f == .vq2 then 256 else 1024
    let t ← s.tileReady e.toNat r (size * (r + 1))
    let (s1, bs) ← s.tileBytes t (size * r) size
    .ok (s1.startPush r (pushGroup f (ofBytes bs)) (s.bankDelay s.c (t.base + size * r) size))

/-- MFLIP (R208): the planes exchange roles. -/
def execMflip (g : Guard) (s : State) : Host.Outcome State Fault Refusal :=
  s.matrixOp g fun s => .ok (s.modCore fun k => { k with fore := !k.fore })

/-- Group g of the foreground plane as a beat of the task reads it (R195). -/
def State.foreGroup (s : State) (g : Nat) : VBits :=
  let r := SMap.get VReg.zero s.core.planes (8 * (if s.core.fore then 1 else 0) + g)
  if s.seen r.tag then r.data else 0

/-- One column of a floating-point beat before its rounding: blocks of 32 exact products, scaled (R83). -/
def columnSum (n : Nat) (scaled : Bool) (a : Nat → XVal) (b : Nat → XVal) (sa sb : Nat → Nat) : XVal :=
  xsum .rne ((List.range (n / 32)).map fun j =>
    let blk := xsum .rne ((List.range 32).map fun k => xmul (a (32 * j + k)) (b (32 * j + k)))
    if scaled then
      match scaleExp (sa j), scaleExp (sb j) with
      | some ea, some eb => xscale (ea + eb) blk
      | _, _ => .nan
    else blk)

/-- The 64 results of a beat (R83, R84): `a` holds 128 bytes of A, `plane` the eight groups of the foreground
plane, xa and xb the scales, n the row. -/
def beat (f : MFmt) (a : Nat) (plane : Nat → VBits) (xa xb : XBits) (row : Nat) : RowBits :=
  let fa := sideA f
  let fb := sideB f
  let wa := fmtWidth fa
  let n := 1024 / wa
  let per := fmtCount fb
  let av := fun (k : Nat) => a / 2 ^ (wa * k) % 2 ^ wa
  let bv := fun (k c : Nat) => let i := 64 * k + c; elem fb (plane (i / per)) (i % per)
  mkRow fun c =>
    if f == .i8 then
      intCode 32 (((List.range n).map fun k => intVal 8 (av k) * intVal 8 (bv k c)).foldl (· + ·) 0)
    else
      round .f32 .rne false (columnSum n (mfmtScaled f) (fun k => floatVal fa (av k)) (fun k => floatVal fb (bv k c))
        (fun b => xa.toNat / 2 ^ (8 * (8 * (row % 64) + b)) % 256)
        (fun b => xb.toNat / 2 ^ (8 * (64 * b + c)) % 256))

/-- A contribution leaves for a row, 72 cycles on (R201), and `late` cycles for the banks of its source (R285). -/
def State.contribute (s : State) (row : Nat) (int ovr : Bool) (data : RowBits) (late : Nat) : State :=
  s.modCore fun k => { k with pend := k.pend ++ [{ due := s.now + Config.beatLatency + late, ctx := s.x,
                                                   tag := s.task.tag, what := .acc row int ovr data }] }

/-- A beat of 128 bytes of A (R209, R210). -/
def State.runBeat (s : State) (f : MFmt) (row : Nat) (a : Nat) (xa xb : BitVec 4) (ovr : Bool) (late : Nat) : Act State := do
  if mfmtScaled f then
    s.sound 4 xa.toNat
    s.sound 4 xb.toNat
  .ok (s.contribute row (f == .i8) ovr
    (beat f a s.foreGroup (s.scaleAt xa.toNat s.now) (s.scaleAt xb.toNat s.now) row) late)

/-- MSHIFT (R209). -/
def execMshift (g : Guard) (f : MFmt) (acc : AccRef) (vs : VSrc) (row : MRow) (xa xb : BitVec 4) (ovr : Bool)
    (s : State) : Host.Outcome State Fault Refusal :=
  s.matrixOp g fun s => do
    let r ← s.rowOperand row 8
    let n ← s.accRowOf acc
    let v ← s.readV vs
    (s.advanceAll [vs]).runBeat f n (v.toNat / 2 ^ (1024 * r) % 2 ^ 1024) xa xb ovr 0

/-- MSHIFTL (R209): it waits for a GATHR that still fills the latch row. -/
def execMshiftl (g : Guard) (f : MFmt) (acc : AccRef) (row : MRow) (xa xb : BitVec 4) (ovr : Bool) (s : State) :
    Host.Outcome State Fault Refusal :=
  s.matrixOp g fun s => do
    let r ← s.rowOperand row 64
    let n ← s.accRowOf acc
    if s.core.loads.any fun l => l.dest == .latch r then stall
    else
      let x := SMap.get LatchRow.zero s.core.latch r
      s.runBeat f n (if s.seen x.tag then x.data.toNat else 0) xa xb ovr 0

/-- MSHIFTT (R207, R209). -/
def execMshiftt (g : Guard) (f : MFmt) (acc : AccRef) (e : BitVec 6) (row : MRow) (xa xb : BitVec 4) (ovr : Bool)
    (s : State) : Host.Outcome State Fault Refusal :=
  s.matrixOp g fun s => do
    let r ← s.rowOperand row 64
    let n ← s.accRowOf acc
    let t ← s.tileReady e.toNat r (128 * (r + 1))
    let (s1, bs) ← s.tileBytes t (128 * r) 128
    s1.runBeat f n (ofBytes bs) xa xb ovr (s.bankDelay s.c (t.base + 128 * r) 128)

/-- MZERO (R212). -/
def execMzero (g : Guard) (acc : AccRef) (s : State) : Host.Outcome State Fault Refusal :=
  s.matrixOp g fun s => do
    let n ← s.accRowOf acc
    .ok (s.putAcc n 0)

/-- MADDV (R211): quarter q of VS as a contribution. -/
def execMaddv (g : Guard) (f : Fmt) (acc : AccRef) (vs : VSrc) (row : MRow) (ovr : Bool) (s : State) :
    Host.Outcome State Fault Refusal :=
  s.matrixOp g fun s => do
    let q ← s.rowOperand row 4
    let n ← s.accRowOf acc
    let v ← s.readV vs
    .ok ((s.advanceAll [vs]).contribute n (f == .i32) ovr (v.extractLsb' (2048 * q) 2048) 0)

/-- One value of a row as a drain converts it (R213). -/
def drainVal (f : Fmt) (rm : RM) (sat : Bool) (c : Nat) : Nat :=
  match f with
  | .f32 => c
  | .i32 => c
  | .i16 => intCode 16 (if sat then clampInt 16 (intVal 32 c) else intVal 32 c)
  | _ => round f rm sat (floatVal .f32 c)

/-- The drain of a row into unit q of vD (R213). -/
def State.drain (s : State) (f : Fmt) (n q : Nat) (vd : BitVec 11) (rm : RM) (sat : Bool) : State :=
  let r := s.accRow n
  let old := s.vregNow vd.toNat
  s.putV vd.toNat (mkVec f fun e =>
    if 64 * q ≤ e && e < 64 * (q + 1) then drainVal f rm sat (rowVal r (e - 64 * q)) else elem f old e)

/-- MDRAIN (R213). -/
def execMdrain (g : Guard) (f : Fmt) (acc : AccRef) (vd : BitVec 11) (row : MRow) (rm : RM) (sat : Bool)
    (s : State) : Host.Outcome State Fault Refusal :=
  s.matrixOp g fun s => do
    let q ← s.rowOperand row (drainUnits f)
    let n ← s.accRowOf acc
    s.sound 3 n
    .ok (s.drain f n q vd rm sat)

/-- MDRAINZ (R213): the row is zero afterwards. -/
def execMdrainz (g : Guard) (f : Fmt) (acc : AccRef) (vd : BitVec 11) (row : MRow) (rm : RM) (sat : Bool)
    (s : State) : Host.Outcome State Fault Refusal :=
  s.matrixOp g fun s => do
    let q ← s.rowOperand row (drainUnits f)
    let n ← s.accRowOf acc
    s.sound 3 n
    .ok ((s.drain f n q vd rm sat).putAcc n 0)

end Sys2Proof.Machine
end

