-- ==== Sys2Proof/Machine/LocalMem.lean ====
section
/-! DEFINITION. L slot on the local store: scalar, contiguous, strided and indexed accesses (R215 to R217, R222,
R223) and the atomics' arithmetic with ATOML (R225, R227). -/

namespace Sys2Proof.Machine

/-- An L-slot or E-slot operation under its guard: a TLB walk of an earlier one (R218) and the occupancy of a
SPLIT (R257), in which none issues whatever its guard is, hold it. -/
def State.memoryOp (s : State) (g : Guard) (f : State → Act State) : Host.Outcome State Fault Refusal :=
  if s.preCore.walk.isSome || s.preCore.splitBusy then s.settle stall else s.guarded g f

/-- L NOP. -/
def execLNop (_ : Guard) (s : State) : Host.Outcome State Fault Refusal := .next s

/-- A loaded value of `size` bytes, sign-extended or zero-extended (R216). -/
def extend (size : Nat) (sx : Bool) (v : Nat) : Word :=
  if sx then BitVec.ofInt 64 (intVal (8 * size) v) else BitVec.ofNat 64 v

/-- The length of a contiguous vector access (R216). -/
def vectorLen (w : BitVec 3) : Nat := 1024 / 2 ^ w.toNat

/-- The low bytes of a vector. -/
def vecBytes (v : VBits) (len : Nat) : List Byte := toBytes len v.toNat

/-- The bytes of a checked local read (R217, R222, R274), in the L slot or by an operation of the E slot (R290). -/
def State.readLocal (s : State) (a : Word) (size align : Nat) (lslot : Bool) : Act (State × List Byte) := do
  let (n, o) ← s.localCheck a size align
  s.soundLines n o size
  s.localRead n o size a lslot

/-- An L-slot access holds while its requests would be too many (R221). -/
def State.mayRequest (s : State) (n : Nat) : Act Unit := if s.requestsFull n then stall else .ok ()

/-- A checked local access of n bytes at an address has been made (R221, R285, R287): the store that it names. -/
def State.touchAt (s : State) (a : Word) (size : Nat) : State :=
  let n := quadOf s.c * 4 + a.toNat / 2 ^ 20 % 4
  let o := a.toNat % 2 ^ 20
  s.touch n o size (touchedLines o size) (s.localLatency n)

/-- A local load, and what it leaves in flight (R217, R221, R222). -/
def State.loadLocal (s : State) (a : Word) (size align : Nat) (lslot : Bool) : Act (State × List Byte) := do
  let (s1, bs) ← s.readLocal a size align lslot
  if lslot then s.mayRequest (touchedLines (a.toNat % 2 ^ 20) size)
  .ok (s1.touchAt a size, bs)

/-- The cycles by which bank conflicts delay a local load (R285). -/
def State.loadDelay (s : State) (a : Word) (size : Nat) : Nat :=
  s.bankDelay (quadOf s.c * 4 + a.toNat / 2 ^ 20 % 4) (a.toNat % 2 ^ 20) size

/-- The effect of a checked local write on memory (R217, R222). -/
def State.writeLocal (s : State) (a : Word) (bs : List Byte) (align : Nat) : Act State := do
  let (n, o) ← s.localCheck a bs.length align
  s.localWrite n o bs a

/-- A local store, and what it leaves in flight (R217, R221, R222). -/
def State.storeLocal (s : State) (a : Word) (bs : List Byte) (align : Nat) : Act State := do
  let s1 ← s.writeLocal a bs align
  s.mayRequest (touchedLines (a.toNat % 2 ^ 20) bs.length)
  .ok (s1.touchAt a bs.length)

/-- LDS (R222). -/
def execLds (g : Guard) (w : BitVec 2) (sx : Bool) (sd : SReg) (ab : BitVec 5) (sa : SReg) (off : BitVec 20)
    (s : State) : Host.Outcome State Fault Refusal :=
  s.memoryOp g fun s => do
    let size := 2 ^ w.toNat
    let a := s.address ab off sa
    let (s1, bs) ← s.loadLocal a size size true
    .ok ((s1.putScalar sd (extend size sx (ofBytes bs))).lateBy (scalarKey sd) (s.loadDelay a size))

/-- STS (R222). -/
def execSts (g : Guard) (w : BitVec 2) (sv : SReg) (ab : BitVec 5) (sa : SReg) (off : BitVec 20) (s : State) :
    Host.Outcome State Fault Refusal :=
  s.memoryOp g fun s =>
    let size := 2 ^ w.toNat
    s.storeLocal (s.address ab off sa) (toBytes size (s.scalar sv).toNat) size

/-- VLD (R222): the first bytes of vD; the rest stays (R67, R216). -/
def execVld (g : Guard) (len : BitVec 3) (vd : BitVec 11) (ab : BitVec 5) (sa : SReg) (off : BitVec 20) (s : State) :
    Host.Outcome State Fault Refusal :=
  s.memoryOp g fun s => do
    let a := s.address ab off sa
    let (s1, bs) ← s.loadLocal a (vectorLen len) 64 true
    .ok ((s1.putV vd.toNat (withLowBytes (s1.vregNow vd.toNat) bs)).lateBy [.v vd.toNat] (s.loadDelay a (vectorLen len)))

/-- VST (R222). -/
def execVst (g : Guard) (len : BitVec 3) (vd : BitVec 11) (ab : BitVec 5) (sa : SReg) (off : BitVec 20) (s : State) :
    Host.Outcome State Fault Refusal :=
  s.memoryOp g fun s => do
    let v ← s.readV (.v vd)
    s.storeLocal (s.address ab off sa) (vecBytes v (vectorLen len)) 64

/-- The elements of a strided or indexed access are checked, their stash sectors filled, the lowest failing one first,
before any takes effect (R217, R223). -/
def State.checkElements (s : State) (z : Nat) (addrs : List Word) (acc : Access) : Act State :=
  addrs.foldlM (fun s a => do
    let (n, o) ← s.localCheck a z z
    let (s1, pz) ← s.fillRange s.task.tag n o z acc a true
    .ok (s1.notePoison pz)) s

/-- The elements of one strided or indexed access have been made (R221, R285, R287): one access, with a request for each of
its lines, which takes in each store of the quad the banks of the elements that lie there. (Log 116: DEDUCED) -/
def State.touchAll (s : State) (z : Nat) (addrs : List Word) : State :=
  (List.range 4).foldl (fun s m =>
    let mine := (addrs.filter fun a => a.toNat / 2 ^ 20 % 4 == m).map fun a => a.toNat % 2 ^ 20
    if mine.isEmpty then s
    else
      let n := quadOf s.c * 4 + m
      let lo := mine.foldl min (2 ^ 20)
      let hi := mine.foldl max 0 + z
      let lines := ((mine.map (· / 64)).eraseDups).length
      (s.takeBanks n s.now (mine.foldl (fun b o => b ||| bankMask o z) 0)).fly
        { till := s.now + s.localLatency n, requests := lines, range := some (n, lo, hi - lo) }) s

/-- The requests of a strided or indexed access: one a line (R221). -/
def requestsOf (addrs : List Word) : Nat := ((addrs.map fun a => a.toNat / 64).eraseDups).length

/-- The elements of a strided or indexed load, in ascending order, as one vector (R223). -/
def State.loadElements (s : State) (vd z : Nat) (addrs : List Word) : Act State := do
  let s0 ← s.checkElements z addrs .read
  let (s1, bs) ← addrs.foldlM (fun (acc : State × List Byte) a => do
    let (s1, b) ← acc.1.readLocal a z z true
    .ok (s1, acc.2 ++ b)) (s0, [])
  s.mayRequest (requestsOf addrs)
  .ok (((s1.touchAll z addrs).putV vd (BitVec.ofNat 8192 (ofBytes bs))).lateBy [.v vd] ((addrs.map fun a => s.loadDelay a z).foldl max 0))

/-- The elements of a strided or indexed store, in ascending order (R223). -/
def State.storeElements (s : State) (v : VBits) (z : Nat) (addrs : List Word) : Act State := do
  let s0 ← s.checkElements z addrs .write
  let (s1, _) ← addrs.foldlM (fun (acc : State × Nat) a => do
    let s1 ← acc.1.writeLocal a (toBytes z acc.2) z
    .ok (s1, acc.2 / 2 ^ (8 * z))) (s0, v.toNat)
  s.mayRequest (requestsOf addrs)
  .ok (s1.touchAll z addrs)

/-- The addresses of a strided access (R223). -/
def State.strided (s : State) (z : Nat) (ab : BitVec 5) (off : BitVec 20) (sa : SReg) : List Word :=
  (List.range (1024 / z)).map fun e => s.baseAddress ab off + BitVec.ofNat 64 e * s.scalar sa

/-- The addresses of an indexed access (R223). -/
def State.indexed (s : State) (z : Nat) (ab : BitVec 5) (sa : SReg) (x : VBits) : List Word :=
  (List.range (1024 / z)).map fun e => s.areg ab + s.scalar sa + BitVec.ofNat 64 (elem .i32 x e * z)

/-- VLDS (R223). -/
def execVlds (g : Guard) (w : BitVec 2) (vd : BitVec 11) (ab : BitVec 5) (off : BitVec 20) (sa : SReg) (s : State) :
    Host.Outcome State Fault Refusal :=
  s.memoryOp g fun s => s.loadElements vd.toNat (2 ^ w.toNat) (s.strided (2 ^ w.toNat) ab off sa)

/-- VSTS (R223). -/
def execVsts (g : Guard) (w : BitVec 2) (vd : BitVec 11) (ab : BitVec 5) (off : BitVec 20) (sa : SReg) (s : State) :
    Host.Outcome State Fault Refusal :=
  s.memoryOp g fun s => do
    let v ← s.readV (.v vd)
    s.storeElements v (2 ^ w.toNat) (s.strided (2 ^ w.toNat) ab off sa)

/-- VLDX (R223). -/
def execVldx (g : Guard) (w : BitVec 2) (vd : BitVec 11) (ab : BitVec 5) (sa : SReg) (vx : BitVec 11) (s : State) :
    Host.Outcome State Fault Refusal :=
  s.memoryOp g fun s => do
    let x ← s.readV (.v vx)
    s.loadElements vd.toNat (2 ^ w.toNat) (s.indexed (2 ^ w.toNat) ab sa x)

/-- VSTX (R223). -/
def execVstx (g : Guard) (w : BitVec 2) (vd : BitVec 11) (ab : BitVec 5) (sa : SReg) (vx : BitVec 11) (s : State) :
    Host.Outcome State Fault Refusal :=
  s.memoryOp g fun s => do
    let x ← s.readV (.v vx)
    let v ← s.readV (.v vd)
    s.storeElements v (2 ^ w.toNat) (s.indexed (2 ^ w.toNat) ab sa x)

/-- What an atomic leaves in memory (R227): m before, v the operand (for CAS the comparand), n CAS's new
value; all in the element's width. -/
def atomNew (op : AtomOp) (f : Fmt) (m v n : Nat) : Nat :=
  let w := fmtWidth f
  match op with
  | .add => if f == .f32 then addF32 .rne m v else (m + v) % 2 ^ w
  | .min => if intVal w v < intVal w m then v else m
  | .max => if intVal w m < intVal w v then v else m
  | .and => m &&& v
  | .or => m ||| v
  | .xchg => v
  | .cas => if m = v then n else m

/-- What s[VD] receives (R227): m sign-extended from I32, zero-extended from F32, whole from I64. -/
def atomOld (f : Fmt) (m : Nat) : Word := if f == .f32 then BitVec.ofNat 64 m else BitVec.ofInt 64 (intVal (fmtWidth f) m)

/-- The register after a scalar register of s or a (R227). -/
def nextReg : SReg → SReg
  | .s n => .s (n + 1)
  | .a n => .a (n + 1)
  | .i n => .i n

/-- The operand of an atomic in the element's width, and CAS's new value (R227). -/
def State.atomOperands (s : State) (f : Fmt) (sd : SReg) : Nat × Nat :=
  ((s.scalar sd).toNat % 2 ^ fmtWidth f, (s.scalar (nextReg sd)).toNat % 2 ^ fmtWidth f)

/-- ATOML (R225). -/
def execAtoml (g : Guard) (op : AtomOp) (f : Fmt) (sd : SReg) (ab : BitVec 5) (sa : SReg) (off : BitVec 20)
    (s : State) : Host.Outcome State Fault Refusal :=
  s.memoryOp g fun s => do
    let z := fmtWidth f / 8
    let a := s.address ab off sa
    let (v, n) := s.atomOperands f sd
    let (s1, bs) ← s.readLocal a z z true
    let s2 ← s1.writeLocal a (toBytes z (atomNew op f (ofBytes bs) v n)) z
    s.mayRequest 1
    .ok (((s2.touchAt a z).putScalar sd (atomOld f (ofBytes bs))).lateBy (scalarKey sd) (s.loadDelay a z))

end Sys2Proof.Machine
end

