-- ==== Sys2Proof/Machine/GlobalMem.lean ====
section
/-! DEFINITION. L slot on global memory: loads in flight, stores, GATHR, atomics at the die cache and in the
wellhead, page requests, discards and flushes (R218 to R221, R224, R226 to R230, R306, R307). -/

namespace Sys2Proof.Machine

/-- A load leaves with the value it read; its data arrives after a latency that is free, or fixed for the
local store (R221). (Log 6: DESIGN CHOICE; 7: DEDUCED) -/
def State.startLoad (s : State) (dest : LoadTo) (data : VBits) (pr : BitVec 4) (keep : Lanes) (poison : Option Word)
    (latency : Nat) : State :=
  s.modCore fun k => { k with loads := k.loads ++ [{ ctx := s.x, due := s.now + latency, dest := dest, data := data,
                                                     pr := pr, keep := keep, poison := poison, tag := s.task.tag }] }

/-- A free latency is taken. (Log 6: DESIGN CHOICE) -/
def State.takeLatency (s : State) : State × Nat := ({ s with fresh := s.fresh + 1 }, Config.memLatency s.fresh)

/-- A store of n requests has left; it completes after a free latency (R221). (Log 6: DESIGN CHOICE) -/
def State.startStore (s : State) (n : Nat) : State :=
  let (s1, lat) := s.takeLatency
  s1.fly { till := s.now + lat, requests := n, range := none }

/-- A TLB miss of the executing core begins a walk, which holds later L and E operations (R218). (Log 20: DEDUCED) -/
def State.noteWalk (before after : State) (va : Nat) : State :=
  if (before.tlbFind before.agent va).isNone then after.modCore fun k => { k with walk := some va } else after

/-- What a global read gives: the state, the bytes, for each byte whether its page is absent under soft
residency (R219), and the first poisoned line. -/
structure Fetched where
  s : State
  bytes : List Byte
  absent : List Bool
  poison : Option Word

/-- One line's worth of a global read added (R219, R220). -/
def Fetched.line (r : Fetched) (va n : Nat) (soft : Bool) : Act Fetched :=
  match r.s.readAt r.s.agent va n .read .plain with
  | .ok (s1, x, l) =>
    let bs := s1.seenBytes s1.task.tag l x (va % 64) n
    .ok { s := State.noteWalk r.s s1 va, bytes := r.bytes ++ bs, absent := r.absent ++ List.replicate n false,
          poison := match r.poison with
            | some p => some p
            | none => if x.poison then some (BitVec.ofNat 64 (lineOf va)) else none }
  | .error e =>
    match e with
    | .fault 1 _ true _ =>
      if soft then .ok { r with bytes := r.bytes ++ List.replicate n 0, absent := r.absent ++ List.replicate n true }
      else .error (e.stop .read (BitVec.ofNat 64 va) false)
    | _ => .error (e.stop .read (BitVec.ofNat 64 va) false)

/-- The lines of a range, as (address, length), in ascending order (R309). -/
def lineSpans (va n : Nat) : Nat → List (Nat × Nat)
  | 0 => []
  | fuel + 1 =>
    if n = 0 then []
    else
      let m := min n (64 - va % 64)
      (va, m) :: lineSpans (va + m) (n - m) fuel

/-- A global read of the task (R218, R219, R309). -/
def State.loadGlobal (s : State) (a : Word) (size align : Nat) (soft : Bool) : Act Fetched := do
  if a.toNat % align ≠ 0 then trapNow .align a a
  if s.mustWait { glob := true, lo := a.toNat, hi := a.toNat + size } false then stall
  if s.requestsFull ((size + 63) / 64) then stall
  (lineSpans a.toNat size (size / 64 + 2)).foldlM (fun (r : Fetched) (va, n) => r.line va n soft)
    { s := s, bytes := [], absent := [], poison := none }

/-- A global write of the task (R218, R309). -/
def State.storeGlobal (s : State) (a : Word) (bs : List Byte) (align : Nat) : Act State := do
  if a.toNat % align ≠ 0 then trapNow .align a a
  if s.mustWait { glob := true, lo := a.toNat, hi := a.toNat + bs.length } true then stall
  if s.requestsFull ((bs.length + 63) / 64) then stall
  let (s1, _) ← (lineSpans a.toNat bs.length (bs.length / 64 + 2)).foldlM (fun (acc : State × List Byte) (va, n) =>
    match acc.1.writeAt acc.1.agent va (acc.2.take n) with
    | .ok s1 => .ok (State.noteWalk acc.1 s1 va, acc.2.drop n)
    | .error e => .error (e.stop .write (BitVec.ofNat 64 va) false)) (s, bs)
  .ok (s1.startStore ((bs.length + 63) / 64))

/-- The lanes of pR that a load keeps: those none of whose four bytes came from an absent page (R219). -/
def keptLanes (absent : List Bool) : Lanes :=
  BitVec.ofNat 256 (packNat 1 256 fun n => if (absent.drop (4 * n)).take 4 |>.any id then 0 else 1)

/-- LDG (R226). -/
def execLdg (g : Guard) (w : BitVec 2) (sx : Bool) (sd : SReg) (ab : BitVec 5) (sa : SReg) (off : BitVec 20)
    (pr : BitVec 4) (s : State) : Host.Outcome State Fault Refusal :=
  s.memoryOp g fun s => do
    let size := 2 ^ w.toNat
    let r ← s.loadGlobal (s.address ab off sa) size size (pr != 0)
    let (s1, lat) := r.s.takeLatency
    let v := extend size sx (ofBytes r.bytes)
    .ok (s1.startLoad (.scalar sd) (v.setWidth 8192) pr (if r.absent.any id then ~~~ 1 else BitVec.allOnes 256)
      r.poison lat)

/-- STG (R226). -/
def execStg (g : Guard) (w : BitVec 2) (sv : SReg) (ab : BitVec 5) (sa : SReg) (off : BitVec 20) (s : State) :
    Host.Outcome State Fault Refusal :=
  s.memoryOp g fun s =>
    let size := 2 ^ w.toNat
    s.storeGlobal (s.address ab off sa) (toBytes size (s.scalar sv).toNat) size

/-- VLDG (R226). -/
def execVldg (g : Guard) (len : BitVec 3) (vd : BitVec 11) (ab : BitVec 5) (sa : SReg) (off : BitVec 20) (pr : BitVec 4)
    (s : State) : Host.Outcome State Fault Refusal :=
  s.memoryOp g fun s => do
    let r ← s.loadGlobal (s.address ab off sa) (vectorLen len) 64 (pr != 0)
    let (s1, lat) := r.s.takeLatency
    .ok (s1.startLoad (.vector vd.toNat (vectorLen len)) (BitVec.ofNat 8192 (ofBytes r.bytes)) pr
      (keptLanes r.absent) r.poison lat)

/-- VSTG (R226). -/
def execVstg (g : Guard) (len : BitVec 3) (vd : BitVec 11) (ab : BitVec 5) (sa : SReg) (off : BitVec 20) (s : State) :
    Host.Outcome State Fault Refusal :=
  s.memoryOp g fun s => do
    let v ← s.readV (.v vd)
    s.storeGlobal (s.address ab off sa) (vecBytes v (vectorLen len)) 64

/-- One row of GATHR: it leaves for its latch row (R224), a local row some cycles late for a bank that another access
needed (R285). -/
def State.gatherRow (s : State) (glob res : Bool) (row j : Nat) (a : Word) (pr : BitVec 4) (late : Nat) : Act State := do
  if glob then
    let r ← s.loadGlobal a 128 64 res
    let (s1, lat) := r.s.takeLatency
    .ok (s1.startLoad (.latch row) (BitVec.ofNat 8192 (ofBytes r.bytes)) pr
      (if r.absent.any id then ~~~ (BitVec.ofNat 256 (2 ^ j)) else BitVec.allOnes 256) r.poison lat)
  else
    let (n, o) ← s.localCheck a 128 64
    let (s1, bs) ← s.readLocal a 128 64 true
    let lat := s.localLatency n + late
    .ok ((s1.touch n o 128 0 lat).startLoad (.latch row) (BitVec.ofNat 8192 (ofBytes bs)) 0 (BitVec.allOnes 256) none lat)

/-- GATHR (R224): rows named by an index vector into the operand latch. -/
def execGathr (g : Guard) (glob res : Bool) (vx : BitVec 11) (ab : BitVec 5) (sa : SReg) (f : BitVec 6) (cnt : BitVec 7)
    (pr : BitVec 4) (s : State) : Host.Outcome State Fault Refusal :=
  s.memoryOp g fun s => do
    let x ← s.readV (.v vx)
    if s.requestsFull (2 * (cnt.toNat + 1)) then stall
    (List.range (cnt.toNat + 1)).foldlM (fun (t : State) j =>
      let a := s.areg ab + BitVec.ofNat 64 (elem .i32 x j) * s.scalar sa
      t.gatherRow glob (res && pr != 0) ((f.toNat + j) % 64) j a pr (s.loadDelay a 128)) s

/-- A wellhead update's line (R306): every die cache, cache part and stash copy has given it up, and memory holds it at
its frame's address. -/
def State.giveUpLine (s : State) (l : Loc) : Except XErr (State × Nat) :=
  let key := lineOf l.addr
  match s.recall key with
  | .error e => .error e
  | .ok s1 =>
    let x := s1.heldLine l
    let home := s1.die l.home
    match l with
    | .frame _ _ =>
      let s2 := match home.find key with
        | some c => s1.writeBack c
        | none => s1
      .ok (s2.dropLine l.home key, key)
    | .host _ => .ok (s1.dropLine l.home key, key)
    | .cistern _ h b =>
      let pa := ((s1.die h).frameOf key).getD (lineOf (b.getD 0))
      .ok ((s1.dropLine h key).putFrame pa x, pa)

/-- Bytes of a line replaced in the wellhead by partition p under a tag (R306, R307); Land decides. -/
def State.wellheadPut (s : State) (p : Nat) (tag : Tag) (l : Loc) (pa off : Nat) (bs : List Byte) : State :=
  if !s.lands tag then s.countDrop tag
  else if s.stackFailedAt l then s
  else
    let s1 := s.undoLog p pa
    (s1.setRawLine pa ((s1.rawLine pa).merge tag off bs)).written l

/-- A global atomic (R227): at the die cache, or in the wellhead. A poisoned line is left as it is: zero comes
back and the task traps POISON later (R307). -/
def State.atomGlobal (s : State) (op : AtomOp) (f : Fmt) (sd : SReg) (a : Word) (well : Bool) : Act State := do
  let z := fmtWidth f / 8
  let va := a.toNat
  let (v, n) := s.atomOperands f sd
  if va % z ≠ 0 then trapNow .align a a
  if s.mustWait { glob := true, lo := va, hi := va + z } true then stall
  if s.requestsFull 1 then stall
  match s.readAt s.agent va z .atomic (if well then .special else .atomg) with
  | .error e => .error (e.stop .atomic a false)
  | .ok (s0, x, l) =>
    let s1 := State.noteWalk s s0 va
    let (s2, lat) := s1.takeLatency
    let m := ofBytes (s2.seenBytes s2.task.tag l x (va % 64) z)
    let go := fun (s : State) => s.startLoad (.scalar sd) ((atomOld f m).setWidth 8192) 0 (BitVec.allOnes 256)
      (if x.poison then some (BitVec.ofNat 64 (lineOf va)) else none) lat
    if x.poison then
      .ok (go (s2.logError 6 1 false (if well then 3 else 2) (if well then stackOf l.addr else l.home) (2 ^ s2.part)
        (lineOf va) 2))
    else
      let bs := toBytes z (atomNew op f m v n)
      if well then
        match s2.giveUpLine l with
        | .ok (s3, pa) => .ok (go (s3.wellheadPut s3.part s3.task.tag l pa (va % 64) bs))
        | .error e => .error (e.stop .atomic a false)
      else
        match s2.putPart s2.agent l va bs with
        | .ok s3 => .ok (go s3)
        | .error e => .error (e.stop .atomic a false)

/-- ATOMG (R227). -/
def execAtomg (g : Guard) (op : AtomOp) (f : Fmt) (sd : SReg) (ab : BitVec 5) (sa : SReg) (off : BitVec 20)
    (s : State) : Host.Outcome State Fault Refusal :=
  s.memoryOp g fun s => s.atomGlobal op f sd (s.address ab off sa) false

/-- WATOM (R227, R306). -/
def execWatom (g : Guard) (op : AtomOp) (f : Fmt) (sd : SReg) (ab : BitVec 5) (sa : SReg) (off : BitVec 20)
    (s : State) : Host.Outcome State Fault Refusal :=
  s.memoryOp g fun s => s.atomGlobal op f sd (s.address ab off sa) true

/-- The bytes of memory that a WATOMR updates (R228). -/
def watomrSize (f : Fmt) : Nat := if f == .bf16 then 2048 else 1024

/-- WATOMR (R228): the region is translated now, and the updates are an engine job. (Log 55: DESIGN CHOICE) -/
def execWatomr (g : Guard) (op : AtomOp) (f : Fmt) (vd : BitVec 11) (ab : BitVec 5) (sa : SReg) (off : BitVec 20)
    (s : State) : Host.Outcome State Fault Refusal :=
  s.memoryOp g fun s => do
    let a := s.address ab off sa
    let va := a.toNat
    let size := watomrSize f
    let v ← s.readV (.v vd)
    if va % 64 ≠ 0 then trapNow .align a a
    if s.mustWait { glob := true, lo := va, hi := va + size } true then stall
    if s.requestsFull (size / 64) then stall
    let (s1, ls) ← (List.range (size / 64)).foldlM (fun (acc : State × List Loc) i =>
      match acc.1.translate acc.1.agent (va + 64 * i) .atomic .special with
      | .ok (s1, l) => .ok (State.noteWalk acc.1 s1 (va + 64 * i), acc.2 ++ [l])
      | .error e => .error (e.stop .atomic (BitVec.ofNat 64 (va + 64 * i)) false)) (s, [])
    let job : Job := { what := .reduce op f ls v va, ctx := s1.x, tag := s1.task.tag, launch := s1.task.launch,
                       glob := true, lo := va, hi := va + size, order := s1.core.issuedJobs }
    .ok ((s1.startStore (size / 64)).modCore fun k => { k.nextJob with jobs := k.jobs ++ [job] })

/-- The monitor of a page-table entry's line is armed on the walker of the executing core's die; none is free
when 64 watch other lines (R281). -/
def State.armMonitor (s : State) (slot : Nat) : Act State :=
  let d := dieOfCore s.c
  let die := s.die d
  let line := lineOf slot
  if die.monitors.contains line then .ok s
  else if die.monitors.length ≥ 64 then stall
  else .ok (s.setDie d { die with monitors := die.monitors ++ [line] })

/-- The entry at which the walk of a page wait or request stops, none where it is valid (R153, R229). -/
def State.invalidEntry (s : State) (a : Word) : Act (Option Nat) :=
  if a.toNat ≥ Config.vaLimit then trapNow .xlate a (BitVec.ofNat 64 (xlateInfo .read 3 0 false))
  else
    match s.walk s.part a.toNat with
    | .error e => .error (e.stop .read a false)
    | .ok w => .ok (if s.entryValid s.part w.level w.entry then none else some w.slot)

/-- PGREQ (R229). -/
def execPgreq (g : Guard) (wr : Bool) (ab : BitVec 5) (sa : SReg) (off : BitVec 20) (s : State) :
    Host.Outcome State Fault Refusal :=
  s.memoryOp g fun s => do
    let a := s.address ab off sa
    match ← s.invalidEntry a with
    | none => .ok s
    | some slot =>
      let s1 ← s.armMonitor slot
      match s1.post s1.part { page := a.toNat / Config.pageSize, die := dieOfCore s1.c, kind := 1,
                              detail := if wr then 1 else 0 } with
      | some s2 => .ok s2
      | none => stall

/-- The checks of a range job at issue (R230): alignment, length, and every page's permission. -/
def State.rangeCheck (s : State) (a len : Word) (acc : Access) : Act Unit := do
  if a.toNat % 64 ≠ 0 then trapNow .align a a
  if len = 0 || len.toNat % 64 ≠ 0 || len.toNat ≥ 2 ^ 32 then trapNow .lsrange 0 len
  let first := a.toNat / Config.pageSize
  (List.range ((a.toNat + len.toNat - 1) / Config.pageSize + 1 - first)).forM fun i =>
    let va := if i = 0 then a.toNat else (first + i) * Config.pageSize
    match s.translate s.agent va acc .plain with
    | .ok _ => .ok ()
    | .error e => .error (e.stop acc (BitVec.ofNat 64 va) false)

/-- A range job is issued with its write footprint (R230, R235). -/
def State.rangeJob (s : State) (a len : Word) (what : JobWhat) : State :=
  s.modCore fun k => { k.nextJob with
    jobs := k.jobs ++ [{ what := what, ctx := s.x, tag := s.task.tag, launch := s.task.launch, glob := true, lo := a.toNat,
                         hi := a.toNat + len.toNat, order := k.issuedJobs }] }

/-- CDISC (R230). -/
def execCdisc (g : Guard) (ab : BitVec 5) (off : BitVec 20) (sa : SReg) (s : State) :
    Host.Outcome State Fault Refusal :=
  s.memoryOp g fun s => do
    let a := s.baseAddress ab off
    let len := s.scalar sa
    s.rangeCheck a len .write
    .ok (s.rangeJob a len (.discard a.toNat len.toNat))

/-- CFLUSH (R230). -/
def execCflush (g : Guard) (inv : Bool) (ab : BitVec 5) (off : BitVec 20) (sa : SReg) (s : State) :
    Host.Outcome State Fault Refusal :=
  s.memoryOp g fun s => do
    let a := s.baseAddress ab off
    let len := s.scalar sa
    s.rangeCheck a len .read
    .ok (s.rangeJob a len (.flush a.toNat len.toNat inv))

end Sys2Proof.Machine
end

