-- ==== Sys2Proof/Machine/Control.lean ====
section
/-! DEFINITION. C slot: branches, loops, ordering points, waits, tasks, barriers, traps, system registers and the
privileged tenancy operations (R135 to R157). -/

namespace Sys2Proof.Machine

/-- C NOP. -/
def execCNop (_ : Guard) (s : State) : Host.Outcome State Fault Refusal := .next s

/-- bundle address + sext(IMM) (R138, R140). -/
def State.ahead (s : State) (imm : BitVec 22) : Word := s.task.pc + imm.signExtend 64

/-- The link in s63, and on the return stack that predicts RET (R138, R267). -/
def State.putLink (s : State) : State :=
  s.modTask fun t => { t.setScalar (.s 63) t.link with returns := (t.link :: t.returns).take 8 }

/-- BR (R138). -/
def execBr (g : Guard) (disp : BitVec 22) (s : State) : Host.Outcome State Fault Refusal :=
  s.guarded g fun s => .ok (s.control (.go (s.ahead disp)))

/-- BRL (R138). -/
def execBrl (g : Guard) (disp : BitVec 22) (s : State) : Host.Outcome State Fault Refusal :=
  s.guarded g fun s => .ok (s.putLink.control (.go (s.ahead disp)))

/-- JMP (R138). -/
def execJmp (g : Guard) (sa : SReg) (disp : BitVec 22) (s : State) : Host.Outcome State Fault Refusal :=
  s.guarded g fun s => .ok (s.control (.go (s.scalar sa + disp.signExtend 64)))

/-- JMPL (R138): s[SA] is read before s63 takes the link. -/
def execJmpl (g : Guard) (sa : SReg) (disp : BitVec 22) (s : State) : Host.Outcome State Fault Refusal :=
  s.guarded g fun s => .ok (s.putLink.control (.go (s.scalar sa + disp.signExtend 64)))

/-- RET (R138, R267). -/
def execRet (g : Guard) (s : State) : Host.Outcome State Fault Refusal :=
  s.guarded g fun s =>
    let target := s.scalar (.s 63)
    .ok ((s.modTask fun t => { t with returns := t.returns.tail }).control (.go target))

/-- A LOOPSTACK trap (R140, R144). -/
def loopTrap {α : Type} (info : Word) : Act α := trapNow .loopstack 0 info

/-- A level is pushed (R140): nothing at count zero; the fills of entries bound to it are raised (R246).
(Log 25: DEDUCED) -/
def State.pushLoop (s : State) (count : Word) (imm : BitVec 22) (stages : Option Nat) : Act State := do
  let end_ := s.ahead imm
  let t := s.task
  if count = 0 then
    let after ← s.afterEnd end_
    .ok (s.control (.pass after))
  else if t.loops.length ≥ 6 then loopTrap 1
  else if stages.isSome && t.loops.any (fun l => l.stages.isSome) then loopTrap 3
  else
    let total := match stages with
      | some n => count.toNat + n - 1
      | none => count.toNat
    let l : Level := { count := count, index := 0, endAddr := end_, body := t.link, stages := stages, total := total }
    let t1 := { t with loops := l :: t.loops }
    let t2 := match stages with
      | some _ => (List.range 7).foldl (fun (t : Task) i => t.setPred (BitVec.ofNat 4 (9 + i)) 0)
          (t1.setPred 8 (BitVec.allOnes 256))
      | none => t1
    let s1 := s.setTask t2
    .ok (s1.setCore (s1.core.pushFills s.x s.preTask t.loops.length l))

/-- LOOP (R140). -/
def execLoop (g : Guard) (sa : SReg) (imm : BitVec 22) (s : State) : Host.Outcome State Fault Refusal :=
  s.guarded g fun s => s.pushLoop (s.scalar sa) imm none

/-- LOOPI (R140). -/
def execLoopi (g : Guard) (count : BitVec 14) (imm : BitVec 22) (s : State) : Host.Outcome State Fault Refusal :=
  s.guarded g fun s => s.pushLoop (count.setWidth 64) imm none

/-- LOOP.P (R140, R145). -/
def execLoopP (g : Guard) (sa : SReg) (stages : BitVec 4) (imm : BitVec 22) (s : State) :
    Host.Outcome State Fault Refusal :=
  s.guarded g fun s => s.pushLoop (s.scalar sa) imm (some stages.toNat)

/-- LBRK (R144). -/
def execLbrk (g : Guard) (s : State) : Host.Outcome State Fault Refusal :=
  s.guarded g fun s => do
    match s.task.loops with
    | [] => loopTrap 2
    | l :: rest =>
      let after ← s.afterEnd l.endAddr
      .ok ((s.modTask fun t => { t with loops := rest }).control (.go after))

/-- LCONT (R144). -/
def execLcont (g : Guard) (s : State) : Host.Outcome State Fault Refusal :=
  s.guarded g fun s => do
    match s.task.loops with
    | [] => loopTrap 2
    | l :: _ =>
      if l.index.toNat + 1 < l.total then .ok (s.control (.loopBack l.body))
      else
        let after ← s.afterEnd l.endAddr
        .ok (s.control (.loopBack after))

/-- LDELTA (R143). -/
def execLdelta (g : Guard) (r : BitVec 5) (d : BitVec 3) (sa : SReg) (s : State) : Host.Outcome State Fault Refusal :=
  s.guarded g fun s =>
    let v := (s.scalar sa).setWidth 32
    .ok (s.modTask fun t => { t with delta := SMap.set 0 t.delta (32 * d.toNat + r.toNat) v })

/-- SYNC (R146). -/
def execSync (g : Guard) (mask : BitVec 4) (land : Bool) (s : State) : Host.Outcome State Fault Refusal :=
  s.guarded g fun s => .ok (s.modCore fun k => { k with issue := k.syncHold s.x mask land })

/-- The launch of the executing task. -/
def State.myLaunch (s : State) : Option Launch :=
  match s.task.launch with
  | some l => s.launch l
  | none => none

/-- The dispatcher asks the tasks of the executing task's partition on its quad to stop (R35, R395). -/
def State.preempted (s : State) : Bool :=
  match SMap.get none s.slices (quadOf s.c) with
  | some x => x.part == s.part && x.quiesce.isSome
  | none => false

/-- SAFE (R147): a safe point where a pre-emption is pending, unless the task is in its handler (R280). -/
def execSafe (g : Guard) (map : BitVec 22) (s : State) : Host.Outcome State Fault Refusal :=
  s.guarded g fun s =>
    let n := match s.myLaunch with | some l => l.liveCnt | none => 0
    if map.toNat ≥ n then outOfRange (map.setWidth 64)
    else if s.preempted && !s.task.handling then .ok (s.control (.stop map.toNat))
    else .ok s

def Core.pump (k : Core) (ch : Nat) : Pump := SMap.get Pump.init k.pumps ch

def Core.setPump (k : Core) (ch : Nat) (p : Pump) : Core := { k with pumps := SMap.set Pump.init k.pumps ch p }

/-- The trap of a WAITX on a halted channel (R242). -/
def haltTrap (ch : Nat) (p : Pump) : Trap :=
  let low := ch * 2 + p.failId.toNat % 2 ^ 28 * 2 ^ 4
  let rec1 := fun (c : Cause) (hi : Nat) =>
    ({ cause := c, addr := p.failAddr, info := BitVec.ofNat 64 (hi * 2 ^ 32 + low), at_ := .link } : Trap)
  match p.code with
  | 1 => rec1 .swtrap 4
  | 2 => rec1 .xlate (p.failInfo.toNat % 2 ^ 8)
  | 3 => rec1 .poison 0
  | 4 => rec1 .lsrange 0
  | _ => rec1 .align 0

/-- WAITX (R148, R242). -/
def execWaitx (g : Guard) (ch : BitVec 3) (sa : SReg) (s : State) : Host.Outcome State Fault Refusal :=
  s.guarded g fun s =>
    let p := s.core.pump ch.toNat
    let id := s.scalar sa
    if id.toNat < p.below.toNat then .ok s
    else if p.code ≠ 0 then .ok (s.control (.trapAfter (haltTrap ch.toNat p)))
    else .ok (s.control (.park (.pump ch.toNat id)))

/-- CYCLE as a slot that issues now reads it (R37, R156). (Log 29: DESIGN CHOICE) -/
def State.cycle (s : State) : Word := s.task.cycle + BitVec.ofNat 64 s.now

/-- PARK.YIELD (R149): the wake event is immediate. -/
def execParkYield (g : Guard) (s : State) : Host.Outcome State Fault Refusal :=
  s.guarded g fun s => .ok (s.control (.park (.time s.now)))

/-- PARK.TIME (R149). -/
def execParkTime (g : Guard) (sa : SReg) (s : State) : Host.Outcome State Fault Refusal :=
  s.guarded g fun s => .ok (s.control (.park (.time (s.now + (s.scalar sa).toNat))))

/-- PARK.WORD (R149). Its read waits for the task's engine jobs and for the results of its queries (R313), but not for a
query whose completion word it watches (R347); a poisoned line traps and does not park (R220). (Log 70: DEDUCED; 102: DEDUCED) -/
def execParkWord (g : Guard) (sa sb : SReg) (s : State) : Host.Outcome State Fault Refusal :=
  s.guarded g fun s => do
    let a := s.scalar sa
    let v := s.scalar sb
    if a.toNat % 8 ≠ 0 then trapNow .align a a
    let r : Region := { glob := true, lo := a.toNat, hi := a.toNat + 8 }
    if s.mustWaitJobs r false || s.mustWaitResults r then stall
    match s.readAt s.agent a.toNat 8 .read .plain with
    | .error e => .error (e.stop .read a false)
    | .ok (s0, x, l) =>
      let s1 := State.noteWalk s s0 a.toNat
      let w := BitVec.ofNat 64 (ofBytes (s1.seenBytes s1.task.tag l x (a.toNat % 64) 8))
      let s2 := if x.poison then s1.defer 0 (poisonTrap (BitVec.ofNat 64 (lineOf a.toNat))) else s1
      .ok (if w = v && !x.poison then s2.control (.park (.word a v)) else s2)

/-- PARK.QUEUE (R149). -/
def execParkQueue (g : Guard) (k : BitVec 4) (s : State) : Host.Outcome State Fault Refusal :=
  s.guarded g fun s => do
    s.mustConsume k.toNat
    .ok (if (s.myQueue k.toNat).fill ≥ 1 then s else s.control (.park (.queueFill k.toNat 1)))

/-- A task at its start (R25), on a core whose clock stands at `clock`. (Log 29: DESIGN CHOICE) -/
def Task.start (clock : Nat) (pc arg a0 : Word) (prio : BitVec 2) (tag : Tag) (priv : Bool) (coreId : BitVec 8)
    (launch : Option Nat) (rally : Option (Nat × Nat)) : Task :=
  { Task.free with
    st := .ready, pc := pc, s := SMap.set 0 [] 1 arg, a := SMap.set 0 [] 0 a0, tag := tag, prio := prio, eff := prio,
    privileged := priv, coreId := coreId, cycle := 0 - BitVec.ofNat 64 clock, launch := launch, rally := rally }

/-- TSPAWN (R150). (Log 32: DEDUCED) -/
def execTspawn (g : Guard) (ctx : BitVec 4) (prio : BitVec 2) (sa sb : SReg) (s : State) :
    Host.Outcome State Fault Refusal :=
  s.guarded g fun s =>
    let e := s.scalar sa
    let (base, size) := match s.myLaunch with
      | some l => (l.base + l.codeOff, l.codeSize.toNat)
      | none => (0, 0)
    if (s.core.task ctx.toNat).st ≠ .free then swTrap 1 ctx.toNat
    else if e.toNat % 64 ≠ 0 || e.toNat ≥ size then swTrap 2 e.toNat
    else
      let t := s.task
      .ok ((s.modCore fun k => (k.heal 1 ctx.toNat).setTask ctx.toNat
        (Task.start s.now (base + e) (s.scalar sb) (s.areg 0) prio t.tag t.privileged t.coreId t.launch t.rally)).challenge
          s.c ctx.toNat)

/-- TEXIT (R151). -/
def execTexit (g : Guard) (s : State) : Host.Outcome State Fault Refusal := s.guarded g fun s => .ok (s.control .exit)

/-- HALT (R151): the first of a launch fixes the code. -/
def execHalt (g : Guard) (code : BitVec 16) (s : State) : Host.Outcome State Fault Refusal :=
  s.guarded g fun s =>
    let s1 := match s.task.launch, s.myLaunch with
      | some n, some l => s.setLaunch n (some { l with halt := match l.halt with | some h => some h | none => some code })
      | _, _ => s
    .ok (s1.control .exit)

/-- Barrier b of the executing core's quad or die (R152). -/
def State.barrier (s : State) (die : Bool) (b : Nat) : Barrier :=
  if die then SMap.get Barrier.reset s.dieBars (16 * dieOfCore s.c + b)
  else SMap.get Barrier.reset s.quadBars (16 * quadOf s.c + b)

def State.setBarrier (s : State) (die : Bool) (b : Nat) (x : Barrier) : State :=
  if die then { s with dieBars := SMap.set Barrier.reset s.dieBars (16 * dieOfCore s.c + b) x }
  else { s with quadBars := SMap.set Barrier.reset s.quadBars (16 * quadOf s.c + b) x }

/-- Tasks parked on a barrier of this quad or die wake when its phase has moved (R28, R152). -/
def State.wakeBarrier (s : State) (die : Bool) (b : Nat) (phase : BitVec 16) : State :=
  s.tasks.foldl (fun s' (n, x, t) =>
    match t.st with
    | .parked (.barrier d c ph) =>
      if d == die && c == b && ph != phase && (if die then dieOfCore n == dieOfCore s.c else quadOf n == quadOf s.c)
      then s'.wake n x else s'
    | _ => s') s

/-- BARRIER_PHASE_COMPLETE (R152): the phase number steps and the arrivals return to 0. -/
def State.completeBarrier (s : State) (die : Bool) (b : Nat) (x : Barrier) : State :=
  (s.setBarrier die b { x with arrived := 0, phase := x.phase + 1 }).wakeBarrier die b (x.phase + 1)

/-- A die barrier that the host has not granted to the partition traps PRIV (R152). -/
def State.granted (s : State) (die : Bool) (b op : Nat) : Act Unit :=
  let d := dieOfCore s.c
  let bit := 16 * (d % 4) + b
  if die && s.field (partReg s.part (if d < 4 then 0x28 else 0x30)) bit bit = 0 then
    trapNow .priv 0 (BitVec.ofNat 64 op)
  else .ok ()

/-- BARQ or BARD (R152): an expected count that the arrivals meet completes the phase; arrivals under another
tag are gone. (Log 34: DEDUCED) -/
def State.expect (s : State) (die : Bool) (b limit : Nat) (n : Word) : Act State :=
  if n = 0 || n.toNat > limit then outOfRange n
  else
    let x := s.barrier die b
    let y := { x with expected := n.toNat, arrived := if x.tag = s.task.tag then x.arrived else 0, tag := s.task.tag }
    .ok (if y.arrived ≥ y.expected then s.completeBarrier die b y else s.setBarrier die b y)

/-- BARQ (R152). -/
def execBarq (g : Guard) (b : BitVec 4) (sa : SReg) (s : State) : Host.Outcome State Fault Refusal :=
  s.guarded g fun s => s.expect false b.toNat 64 (s.scalar sa)

/-- BARD (R152). -/
def execBard (g : Guard) (b : BitVec 4) (sa : SReg) (s : State) : Host.Outcome State Fault Refusal :=
  s.guarded g fun s => do
    s.granted true b.toNat 0x12
    s.expect true b.toNat 512 (s.scalar sa)

/-- The key of a barrier in a task's record of phases: quad barriers 0 to 15, then die barriers (R402). -/
def barKey (die : Bool) (b : Nat) : Nat := if die then 16 + b else b

/-- BARA (R152): the expected count is 0 under another tag. (Log 34: DEDUCED) -/
def execBara (g : Guard) (b : BitVec 4) (die : Bool) (s : State) : Host.Outcome State Fault Refusal :=
  s.guarded g fun s => do
    s.granted die b.toNat 0x13
    let x := s.barrier die b.toNat
    let key := barKey die b.toNat
    let s1 := s.modTask fun t => { t with
      barPhase := SMap.set 0 t.barPhase key x.phase, barSeen := SMap.set false t.barSeen key true }
    let y := { x with arrived := x.arrived + 1 }
    .ok (if x.tag != s.task.tag || y.arrived ≥ x.expected then s1.completeBarrier die b.toNat y
         else s1.setBarrier die b.toNat y)

/-- BARW (R152). -/
def execBarw (g : Guard) (b : BitVec 4) (die : Bool) (s : State) : Host.Outcome State Fault Refusal :=
  s.guarded g fun s => do
    s.granted die b.toNat 0x14
    let key := barKey die b.toNat
    let ph := SMap.get 0 s.task.barPhase key
    .ok (if SMap.get false s.task.barSeen key && (s.barrier die b.toNat).phase = ph then
           s.control (.park (.barrier die b.toNat ph))
         else s)

/-- PGWAIT (R153, R281). -/
def execPgwait (g : Guard) (sa : SReg) (s : State) : Host.Outcome State Fault Refusal :=
  s.guarded g fun s => do
    match ← s.invalidEntry (s.scalar sa) with
    | none => .ok s
    | some slot =>
      let s1 ← s.armMonitor slot
      .ok (s1.control (.park (.page (lineOf slot))))

/-- TRAP (R154). -/
def execTrap (g : Guard) (n : BitVec 22) (s : State) : Host.Outcome State Fault Refusal :=
  s.guarded g fun s =>
    .ok (s.control (.trapAfter { cause := .swtrap, addr := 0, info := n.setWidth 64, at_ := .link }))

/-- ERET (R155, R277). -/
def execEret (g : Guard) (s : State) : Host.Outcome State Fault Refusal :=
  s.guarded g fun s => if s.task.handling then .ok (s.control .eret) else swTrap 5 0

/-- KFMT.N (R64). -/
def Queue.formats (q : Queue) : Word :=
  BitVec.ofNat 64 ((Fmt.enc q.fs).toNat + (Fmt.enc q.fk).toNat * 2 ^ 4 + (RM.enc q.rm).toNat * 2 ^ 8 +
    (if q.sat then 2 ^ 11 else 0))

/-- A system register (R61 to R65, R286); what no number names reads zero. -/
def State.sysRead (s : State) (num : Nat) : Word :=
  let t := s.task
  match num with
  | 0x000 => t.coreId.setWidth 64
  | 0x001 => BitVec.ofNat 64 s.x
  | 0x002 => (s.curTag s.part).setWidth 64
  | 0x003 => s.cycle
  | 0x004 => BitVec.ofNat 64 t.loops.length
  | 0x005 => t.parkThresh.setWidth 64
  | 0x006 => BitVec.ofNat 64 (s.core.scr + (12 - s.core.scr) * 2 ^ 4 + (if s.core.splitBusy then 2 ^ 8 else 0))
  | 0x007 => t.volleyFault.setWidth 64
  | 0x010 => t.trap.cause.setWidth 64
  | 0x011 => t.trap.pc
  | 0x012 => t.trap.slots.setWidth 64
  | 0x013 => t.trap.addr
  | 0x014 => t.trap.info
  | 0x015 => t.vec
  | _ =>
    let q := s.myQueue (num % 16)
    if !s.seen q.tag then 0
    else if num / 16 = 4 then q.formats
    else if num / 16 = 5 then BitVec.ofNat 64 (q.fill + q.rd.toNat * 2 ^ 4)
    else 0

/-- MFS (R156). -/
def execMfs (g : Guard) (sd : SReg) (num : BitVec 12) (s : State) : Host.Outcome State Fault Refusal :=
  s.guarded g fun s => .ok (s.putScalar sd (s.sysRead num.toNat))

/-- MTS (R62, R64, R156): a reserved code for KFMT traps QUEUE with reason 4. A task of any tag writes KFMT, and the
queue keeps its tag: no rule names a check of it. (Log 127: DESIGN CHOICE) -/
def execMts (g : Guard) (num : BitVec 12) (sa : SReg) (s : State) : Host.Outcome State Fault Refusal :=
  s.guarded g fun s =>
    let v := s.scalar sa
    match num.toNat with
    | 0x005 => .ok (s.modTask fun t => { t with parkThresh := v.setWidth 16 })
    | 0x011 => .ok (s.modTask fun t => { t with trap := { t.trap with pc := v } })
    | 0x015 => .ok (s.modTask fun t => { t with vec := v &&& ~~~ 63 })
    | n =>
      if n / 16 = 4 then
        let k := n % 16
        let fs := v.extractLsb' 0 4
        let fk := v.extractLsb' 4 4
        let rm := v.extractLsb' 8 3
        if !(Fmt.codeOk fs && Fmt.codeOk fk && RM.codeOk rm) then queueTrap k 4
        else .ok (s.setMyQueue k { s.myQueue k with
          fs := Fmt.dec fs, fk := Fmt.dec fk, rm := RM.dec rm, sat := v.getLsbD 11 })
      else .ok s

/-- A privileged instruction in an unprivileged task traps PRIV (R135). -/
def State.privileged (s : State) (op : Nat) : Act Unit :=
  if s.task.privileged then .ok () else trapNow .priv 0 (BitVec.ofNat 64 op)

/-- A partition operand (R157). -/
def State.partOperand (s : State) (r : SReg) : Act Nat :=
  let v := s.scalar r
  if v.toNat > 63 then outOfRange v else .ok v.toNat

/-- GENINC (R157, R389, R390). A step of the task's own partition ends the task, and nothing is written.
(Log 33: DEDUCED) -/
def execGeninc (g : Guard) (sd sp : SReg) (s : State) : Host.Outcome State Fault Refusal :=
  s.guarded g fun s => do
    s.privileged 0x1A
    let p ← s.partOperand sp
    let coming := mkTag p (nextGen (s.ten p).gen).toNat
    let late := BitVec.ofNat 64 (2 ^ 63 + coming.toNat)
    if (s.ten p).closed then .ok (s.putScalar sd late)
    else if p = s.part then .ok (s.control .endTenancy)
    else
      let s1 := s.endTenancyOf p
      .ok (s1.putScalar sd (if (s1.ten p).closed then late else coming.setWidth 64))

/-- What GENRD reads (R157, R388). -/
def State.genWord (s : State) (p : Nat) : Word :=
  BitVec.ofNat 64 ((s.curTag p).toNat + min (s.oldOps p) (2 ^ 32 - 1) * 2 ^ 16 +
    (if (s.ten p).closed then 2 ^ 48 else 0) + (if s.sweeper.running then 2 ^ 49 else 0))

/-- GENRD (R157). -/
def execGenrd (g : Guard) (sd sp : SReg) (s : State) : Host.Outcome State Fault Refusal :=
  s.guarded g fun s => do
    s.privileged 0x1B
    let p ← s.partOperand sp
    .ok (s.putScalar sd (s.genWord p))

/-- SWEEP (R157, R392). -/
def execSweep (g : Guard) (sa : SReg) (start : Bool) (rate : BitVec 4) (s : State) : Host.Outcome State Fault Refusal :=
  s.guarded g fun s => do
    s.privileged 0x1C
    if s.scalar sa ≠ 0 then outOfRange (s.scalar sa)
    let s1 : State := if rate = 0 then s else { s with sweeper := { s.sweeper with rate := rate } }
    .ok (if start && !s1.sweeper.running then s1.startPass else s1)

/-- A close of partition p's checkpoint interval is asked for (R438). -/
def State.closeInterval (s : State) (p : Nat) : State :=
  let r := partReg p 0xF8
  if s.field r 32 32 = 1 then { s with ckptNext := SMap.upd 0 s.ckptNext p (· + 1) } else s.setField r 32 32 1

/-- CKPT (R157, R438). -/
def execCkpt (g : Guard) (sp : SReg) (s : State) : Host.Outcome State Fault Refusal :=
  s.guarded g fun s => do
    s.privileged 0x1D
    let p ← s.partOperand sp
    .ok (s.closeInterval p)

end Sys2Proof.Machine
end

