-- ==== Sys2Proof/Machine/StashOps.lean ====
section
/-! DEFINITION. L slot on the stash map (R231, R288 to R290): SMAP, SUNMAP, SFLUSH and SDISC. -/

namespace Sys2Proof.Machine

/-- A write-back job of entry e of the executing core is under way. (Log 36: DEDUCED) -/
def State.flushing (s : State) (e : Nat) : Bool :=
  s.core.jobs.any fun j => match j.what with | .writeback f _ => f == e | _ => false

/-- Every dirty sector of entry e of core n is written back (R290), or a write-back must wait. -/
def State.writebackAll (s : State) (n e : Nat) : Except XErr State :=
  ((s.coreAt n).stashEntry e).sectors.foldlM (fun s (i, _) => s.writebackSector n e i) s

/-- A fault that a write-back has recorded on entry e traps (R290). -/
def State.stashFault (s : State) (e : Nat) : Act Unit :=
  match (s.core.stashEntry e).fault with
  | some (info, va) => trapNow .xlate va (BitVec.ofNat 64 info)
  | none => .ok ()

/-- The checks of SMAP on its local base and size, in order (R231): the core whose store holds the range.
(Log 35: DEDUCED) -/
def State.smapCheck (s : State) (base size : Word) : Act Unit := do
  let v := base.toNat
  let z := size.toNat
  let n := quadOf s.c * 4 + v / 2 ^ 20 % 4
  if v % 1024 ≠ 0 || v ≥ 2 ^ 22 then trapNow .lsrange base base
  if z % 1024 ≠ 0 || z = 0 then trapNow .lsrange base size
  if n ≠ s.c && (s.coreAt n).splitBusy then stall
  if !s.inScratch n (v % 2 ^ 20) z then trapNow .lsrange base base
  .ok ()

/-- An entry of the quad other than entry e of the executing core whose range meets a local range. -/
def State.stashOverlap (s : State) (e lo size : Nat) : Option Nat :=
  (List.range 4).findSome? fun m =>
    let c := quadOf s.c * 4 + m
    ((s.coreAt c).stash.find? fun (f, x) =>
      x.active && !(c == s.c && f == e) && x.base < lo + size && lo < x.base + x.size).map (·.1)

/-- The write-back of an active entry may begin: no earlier job of the task meets its local or its global range
(R231, R313). -/
def State.remapBlocked (s : State) (x : Stash) : Bool :=
  x.active && s.jobBlocked s.c s.x s.core.issuedJobs [{ glob := false, lo := x.base, hi := x.base + x.size }]
    [{ glob := true, lo := x.glob, hi := x.glob + x.size }]

/-- SMAP (R231, R288): an active entry is first unmapped as by SUNMAP, behind the earlier jobs that meet it; every sector is
then unfilled. (Log 35: DEDUCED; 36: DEDUCED) -/
def execSmap (g : Guard) (e : BitVec 4) (ab : BitVec 5) (off : BitVec 20) (sg sz : SReg) (s : State) :
    Host.Outcome State Fault Refusal :=
  s.memoryOp g fun s => do
    let n := e.toNat
    let base := s.baseAddress ab off
    let size := s.scalar sz
    let glob := s.scalar sg
    s.smapCheck base size
    if glob.toNat % 1024 ≠ 0 then trapNow .align glob glob
    match s.stashOverlap n base.toNat size.toNat with
    | some f => trapNow .lsrange base (BitVec.ofNat 64 f)
    | none =>
      if s.flushing n || s.remapBlocked (s.core.stashEntry n) then stall
      s.stashFault n
      let s1 ← match s.writebackAll s.c n with
        | .ok t => .ok t
        | .error e => .error (e.stop .write glob true)
      s1.stashFault n
      .ok (s1.modCore fun k => k.setStash n {
        active := true, base := base.toNat, size := size.toNat, glob := glob.toNat, tag := s.task.tag, sectors := [],
        fault := none })

/-- SUNMAP or SFLUSH: a write-back job of an active entry (R231, R290). -/
def State.stashJob (s : State) (e : Nat) (remove : Bool) : Act State := do
  let x := s.core.stashEntry e
  if !x.active then .ok s
  else
    s.stashFault e
    let job : Job := { what := .writeback e remove, ctx := s.x, tag := s.task.tag, launch := s.task.launch,
                       glob := true, lo := x.glob, hi := x.glob + x.size, order := s.core.issuedJobs }
    .ok (s.modCore fun k => { k.nextJob with jobs := k.jobs ++ [job] })

/-- SUNMAP (R231). -/
def execSunmap (g : Guard) (e : BitVec 4) (s : State) : Host.Outcome State Fault Refusal :=
  s.memoryOp g fun s => s.stashJob e.toNat true

/-- SFLUSH (R231). -/
def execSflush (g : Guard) (e : BitVec 4) (s : State) : Host.Outcome State Fault Refusal :=
  s.memoryOp g fun s => s.stashJob e.toNat false

/-- SDISC (R231, R290): sectors, dirty marks and a recorded fault go, after any write-back under way.
(Log 36: DEDUCED) -/
def execSdisc (g : Guard) (e : BitVec 4) (s : State) : Host.Outcome State Fault Refusal :=
  s.memoryOp g fun s =>
    let x := s.core.stashEntry e.toNat
    if !x.active then .ok s
    else if s.flushing e.toNat then stall
    else .ok (s.modCore fun k => k.setStash e.toNat { x with sectors := [], fault := none })

end Sys2Proof.Machine
end

