-- ==== Sys2Proof/Machine/Fabric.lean ====
section
/-! DEFINITION. The fabric as the module's own units use it (R411, R414, R415, R418, R419): nodes and
incarnations, packets and their routes, output queues, and remote requests that leave. -/

namespace Sys2Proof.Machine

/-- This node and its incarnation (R421). -/
def State.node (s : State) : Nat := s.field (fabricReg 0) 9 0
def State.incarnation (s : State) : Nat := s.field (fabricReg 8) 15 0

/-- The incarnation last learned of a node, 0 if none; this node knows its own (R418), once it has an identifier
(R412). -/
def State.peerInc (s : State) (n : Nat) : Nat :=
  if n ≥ 993 then 0
  else if n = s.node then s.incarnation
  else s.field (fabricReg (0x1_0000 + 8 * n)) 15 0

def State.port (s : State) (n : Nat) : Port := SMap.get Port.reset s.ports n

def State.setPort (s : State) (n : Nat) (p : Port) : State := { s with ports := SMap.set Port.reset s.ports n p }

/-- The routing entry of a destination (R414). -/
def State.routeEntry (s : State) (d : Nat) : Word := if d < 993 then s.reg (fabricReg (0x8000 + 8 * d)) else 0

def State.minPort (s : State) (d : Nat) : Nat := bits (s.routeEntry d) 4 0

/-- The flits of a packet: its header and its data (R411). -/
def FPacket.flits (k : FPacket) : Nat := 1 + (k.data.length + 63) / 64

/-- The flits queued at a port (R415). -/
def Port.queued (p : Port) : Nat :=
  (p.out.flatMap fun (_, ks) => ks.map FPacket.flits).foldl (· + ·) p.sending.length

/-- The valid intermediates of an entry, in ascending order (R414). -/
def intermediates (e : Word) : List Nat :=
  (List.range 4).filterMap fun i =>
    if bits e (48 + i) (48 + i) = 1 then some (bits e (17 + 10 * i) (8 + 10 * i)) else none

/-- The first port of a packet and its ROUTE field, chosen once by its source (R415). -/
def State.chooseRoute (s : State) (dst mode rtag : Nat) : Nat × Nat :=
  let ints := intermediates (s.routeEntry dst)
  let via := fun (i : Nat) => (s.minPort i, i + 2 ^ 10)
  let direct := (s.minPort dst, 0)
  match mode with
  | 2 =>
    match ints[rtag % ints.length]? with
    | some i => via i
    | none => direct
  | 1 =>
    let load := fun (i : Nat) => (s.port (s.minPort i)).queued
    let best := ints.foldl (fun (b : Option Nat) i =>
      match b with
      | some j => if load i < load j then some i else some j
      | none => some i) none
    match best with
    | some i => if (s.port (s.minPort dst)).queued ≤ 2 * load i then direct else via i
    | none => direct
  | _ => direct

/-- A packet joins the output queue of its channel at a port. -/
def State.enqueue (s : State) (port : Nat) (k : FPacket) : State :=
  let p := s.port port
  let q := SMap.get [] p.out k.vc
  s.setPort port { p with out := SMap.set [] p.out k.vc (q ++ [{ k with since := s.time }]) }

/-- The mode of a virtual channel's class (R421). -/
def State.classMode (s : State) (vc : Nat) : Nat :=
  match vc with
  | 0 => s.field (fabricReg 0x10) 1 0
  | 1 => s.field (fabricReg 0x10) 3 2
  | 2 => s.field (fabricReg 0x10) 5 4
  | _ => 0

/-- The partition that a JOB value names at this target (R419). -/
def State.targetPart (s : State) (job : Nat) : Option Nat :=
  (List.range 256).findSome? fun i =>
    let r := fabricReg (0x3_0000 + 8 * i)
    if s.field r 22 22 = 1 && s.field r 15 0 = job then some (s.field r 21 16) else none

/-- A packet has arrived: its access is to be performed under the tag that holds now (R419). -/
def State.arrive (s : State) (k : FPacket) : State :=
  { s with arrived := s.arrived ++ [{ k with bound := (s.targetPart k.job).map s.curTag }] }

/-- A packet leaves this node: to itself by its own target path, else by a route; responses, stale notices and
announces always take minimal routes (R415, R419). (Log 45: DEDUCED) -/
def State.sendPacket (s : State) (k : FPacket) : State :=
  if k.dst = s.node then s.arrive { k with port := none, since := s.time }
  else
    let minimal := k.kind = 5 || k.kind = 6 || k.kind = 7
    let (port, route) := s.chooseRoute k.dst (if minimal then 0 else s.classMode k.vc) k.rtag
    s.enqueue port { k with route := route }

/-- The channel of a packet kind (R411): atomics and rally increments on 2, responses and announces on 1. -/
def kindVc (kind : Nat) : Nat :=
  match kind with
  | 4 => 2 | 8 => 2 | 5 => 1 | 6 => 1 | 7 => 1 | _ => 0

/-- A packet of this node to another, with the fields that its kind does not use at zero. -/
def State.packet (s : State) (dst kind job rtag : Nat) (addr : Word) : FPacket :=
  { dst := dst, src := s.node, dinc := s.peerInc dst, sinc := s.incarnation, kind := kind, route := 0, job := job,
    pseq := 0, addr := addr, rtag := rtag, opw := 0, imm := 0, data := [], vc := kindVc kind, port := none, since := s.time }

/-- The fabric timeout: 500 us on the reference clock (R420). -/
def fabricTimeout : Nat := 500_000

/-- The remote codes of R233 for a request that cannot leave: 1 with no valid binding, 3 with no incarnation;
else the JOB value. -/
def State.bindingOf (s : State) (p word : Nat) : Except Nat Nat :=
  let r := fabricReg (0x2_0000 + 0x200 * p + 8 * (word / 2 ^ 10 % 64))
  if s.field r 16 16 = 0 then .error 1
  else if s.peerInc (word % 2 ^ 10) = 0 then .error 3
  else .ok (s.field r 15 0)

/-- A remote access is recorded under the next request tag. -/
def State.openRemote (s : State) (r : Remote) : State × Nat :=
  let tag := s.nextRtag % 2 ^ 32
  ({ s with nextRtag := (s.nextRtag + 1) % 2 ^ 32, remotes := SMap.set none s.remotes tag (some r) }, tag)

end Sys2Proof.Machine
end

