-- ==== Sys2Proof/Machine/RemoteOps.lean ====
section
/-! DEFINITION. L slot on remote memory (R232, R233, R316): RLDG, RSTG, RSTP, RATOM and RFENCE. -/

namespace Sys2Proof.Machine

/-- The bytes that a width moves (R232). -/
def widthSize : RWidth → Nat
  | .b => 1 | .h => 2 | .w => 4 | .d => 8 | .v64 => 64 | .v => 1024

/-- The code of a width in W (R232). -/
def widthCode : RWidth → Nat
  | .b => 0 | .h => 1 | .w => 2 | .d => 3 | .v64 => 4 | .v => 5

/-- The checks of a remote instruction on its target word and address (R232). -/
def remoteCheck (target ea : Word) (align : Nat) : Act Unit := do
  if target.toNat ≥ 2 ^ 16 then outOfRange target
  if ea.toNat % align ≠ 0 then trapNow .align ea ea
  .ok ()

/-- A REMOTE trap of a parked remote instruction (R233, R272): it comes after its bundle. -/
def remoteTrap (code node : Nat) (ea link : Word) : Trap :=
  { cause := .remote, addr := ea, info := BitVec.ofNat 64 (code + node * 2 ^ 8), at_ := .address link }

/-- The slots of a trap that an L slot raised. (Log 30: DEDUCED) -/
def slotL : BitVec 8 := 0x40

/-- The packets of an access: one, or two of 512 bytes for a .V access (R411), with the bytes of each. -/
def halves (ea : Word) (size : Nat) (bs : List Byte) : List (Word × List Byte) :=
  if size = 1024 then [(ea, bs.take 512), (ea + 512, bs.drop 512)] else [(ea, bs)]

/-- What a remote instruction sends for each of its packets: kind, OPW, data. Scalars travel in IMM. -/
def State.sendRemote (s : State) (what : RemoteWhat) (target ea : Word) (job kind opw size : Nat) (bs : List Byte) :
    State × Nat :=
  let node := target.toNat % 2 ^ 10
  let parts := halves ea size bs
  let r : Remote := { what := what, core := s.c, ctx := s.x, tag := s.task.tag, launch := s.task.launch, node := node,
                      ea := ea, link := s.task.link, deadline := s.time + fabricTimeout,
                      parts := parts.map fun x => x.1.toNat, got := [], bad := 0, born := s.task.cycle }
  let (s1, tag) := s.openRemote r
  let s2 := parts.foldl (fun s (a, d) =>
    let posted := kind = 3
    let seq := SMap.get 0 s.pseqOut node
    let s0 : State := if posted then { s with pseqOut := SMap.set 0 s.pseqOut node ((seq + 1) % 2 ^ 16) } else s
    let k := s0.packet node kind job tag a
    let small := d.length ≤ 32
    s0.sendPacket { k with opw := opw, pseq := if posted then seq else 0,
                           imm := if small then BitVec.ofNat 256 (ofBytes d) else 0, data := if small then [] else d }) s1
  (s2, tag)

/-- Nothing of the task is under way that a parking remote instruction comes after (R233, R316). (Log 43: DEDUCED) -/
def State.remoteMayGo (s : State) : Bool := s.task.rstpOut == 0

/-- A parking remote access: sent and waited for, or refused at once with its trap to come (R233, R418, R419).
(Log 43: DEDUCED) -/
def State.remoteAccess (s : State) (what : RemoteWhat) (target ea : Word) (align kind opw size : Nat) (bs : List Byte) :
    Act State := do
  remoteCheck target ea align
  if !s.remoteMayGo then stall
  match s.bindingOf s.part target.toNat with
  | .error code => .ok (s.defer slotL (remoteTrap code (target.toNat % 2 ^ 10) ea s.task.link))
  | .ok job =>
    let (s1, tag) := s.sendRemote what target ea job kind opw size bs
    .ok (s1.parkLater (.remote tag))

/-- The bytes that a remote store sends. -/
def State.remoteData (s : State) (d : RData) (size : Nat) : Act (List Byte) :=
  match d with
  | .scalar r => .ok (toBytes size (s.scalar r).toNat)
  | .vector n => do
    let v ← s.readV (.v n)
    .ok (vecBytes v size)

/-- RLDG (R233). -/
def execRldg (g : Guard) (wd : RWidth) (d : RData) (ab : BitVec 5) (off : BitVec 20) (sa : SReg) (s : State) :
    Host.Outcome State Fault Refusal :=
  s.memoryOp g fun s =>
    s.remoteAccess (.load d (widthSize wd)) (s.scalar sa) (s.baseAddress ab off) (min (widthSize wd) 64) 1 (widthCode wd) (widthSize wd) []

/-- RSTG (R233). -/
def execRstg (g : Guard) (wd : RWidth) (d : RData) (ab : BitVec 5) (off : BitVec 20) (sa : SReg) (s : State) :
    Host.Outcome State Fault Refusal :=
  s.memoryOp g fun s => do
    let bs ← s.remoteData d (widthSize wd)
    s.remoteAccess .store (s.scalar sa) (s.baseAddress ab off) (min (widthSize wd) 64) 2 (widthCode wd) (widthSize wd) bs

/-- A failed posted store is recorded once against its task (R233). -/
def Task.rstpFailed (t : Task) (code node : Nat) (ea : Word) : Task :=
  match t.rstpFail with
  | some _ => t
  | none => { t with rstpFail := some { code := BitVec.ofNat 8 code, node := BitVec.ofNat 10 node, addr := ea } }

/-- RSTP (R233): posted, at most 256 outstanding. -/
def execRstp (g : Guard) (wd : RWidth) (d : RData) (ab : BitVec 5) (off : BitVec 20) (sa : SReg) (s : State) :
    Host.Outcome State Fault Refusal :=
  s.memoryOp g fun s => do
    let target := s.scalar sa
    let ea := s.baseAddress ab off
    let bs ← s.remoteData d (widthSize wd)
    remoteCheck target ea (min (widthSize wd) 64)
    if s.task.rstpOut ≥ 256 then stall
    match s.bindingOf s.part target.toNat with
    | .error code => .ok (s.modTask fun t => t.rstpFailed code (target.toNat % 2 ^ 10) ea)
    | .ok job =>
      let (s1, _) := s.sendRemote .posted target ea job 3 (widthCode wd) (widthSize wd) bs
      .ok (s1.modTask fun t => { t with rstpOut := t.rstpOut + 1 })

/-- The code of an atomic operation in W (R227). -/
def atomCode : AtomOp → Nat
  | .add => 0 | .min => 1 | .max => 2 | .and => 3 | .or => 4 | .xchg => 5 | .cas => 6

/-- RATOM (R233); its W is the operation, in both fields of OPW (R411). -/
def execRatom (g : Guard) (op : AtomOp) (f : Fmt) (sd : SReg) (ab : BitVec 5) (off : BitVec 20) (sa : SReg)
    (s : State) : Host.Outcome State Fault Refusal :=
  s.memoryOp g fun s =>
    let z := fmtWidth f / 8
    let (v, n) := s.atomOperands f sd
    s.remoteAccess (.atomic sd f) (s.scalar sa) (s.baseAddress ab off) z 4
      (atomCode op + atomCode op * 2 ^ 3 + (Fmt.enc f).toNat * 2 ^ 6) z (toBytes 8 v ++ toBytes 8 n)

/-- The REMOTE trap of an RFENCE for a failed posted store (R233, R272). -/
def fenceTrap (f : RemoteFail) (pc : Word) : Trap :=
  { cause := .remote, addr := f.addr, info := BitVec.ofNat 64 (f.code.toNat + f.node.toNat * 2 ^ 8), at_ := .address pc }

/-- RFENCE (R233): with nothing outstanding, a recorded failure traps; like every REMOTE trap it comes after its
bundle (R272). -/
def execRfence (g : Guard) (s : State) : Host.Outcome State Fault Refusal :=
  s.memoryOp g fun s =>
    if s.task.rstpOut > 0 then .ok (s.parkLater (.fence s.task.pc))
    else
      match s.task.rstpFail with
      | some f => .ok ((s.modTask fun t => { t with rstpFail := none }).defer slotL (fenceTrap f s.task.pc))
      | none => .ok s

end Sys2Proof.Machine
end

