-- ==== Sys2Proof/Machine/PumpOps.lean ====
section
/-! DEFINITION. E slot on the pumps (R236 to R244): PCOPY, PCOPYT, PCOPYR and PSTAT in its forms. -/

namespace Sys2Proof.Machine

/-- E NOP. -/
def execENop (_ : Guard) (s : State) : Host.Outcome State Fault Refusal := .next s

/-- A job of a pump channel is issued (R236, R238, R244): its control block is copied now, and the register
takes its identifier. (Log 37: DEDUCED) -/
def State.pumpIssue (s : State) (kind : PumpKind) (ch : BitVec 3) (a : Word) (sd : SReg) : Act State := do
  let p := s.core.pump ch.toNat
  if p.code ≠ 0 then swTrap 4 (ch.toNat * 2)
  if p.jobs.length ≥ 16 then stall
  let (s1, bs) ← s.loadLocal a 64 64 false
  let job : PumpJob := { id := p.next, kind := kind, ccbAddr := a, ccb := bytesToLine bs, tag := s.task.tag,
                         ctx := s.x, launch := s.task.launch, issued := s.now, started := false, done := 0,
                         order := s1.core.issuedJobs }
  let s2 := s1.modCore fun k => k.nextJob.setPump ch.toNat { p with next := p.next + 1, jobs := p.jobs ++ [job] }
  .ok (s2.putScalar sd p.next)

/-- PCOPY (R239). -/
def execPcopy (g : Guard) (ch : BitVec 3) (ab : BitVec 5) (off : BitVec 20) (sd : SReg) (s : State) :
    Host.Outcome State Fault Refusal :=
  s.memoryOp g fun s => s.pumpIssue .copy ch (s.baseAddress ab off) sd

/-- PCOPYT (R240). -/
def execPcopyt (g : Guard) (ch : BitVec 3) (ab : BitVec 5) (off : BitVec 20) (sd : SReg) (s : State) :
    Host.Outcome State Fault Refusal :=
  s.memoryOp g fun s => s.pumpIssue .transpose ch (s.baseAddress ab off) sd

/-- PCOPYR (R241). -/
def execPcopyr (g : Guard) (ch : BitVec 3) (ab : BitVec 5) (off : BitVec 20) (sd : SReg) (s : State) :
    Host.Outcome State Fault Refusal :=
  s.memoryOp g fun s => s.pumpIssue .reduce ch (s.baseAddress ab off) sd

/-- The status word of a channel (R243). -/
def Pump.status (p : Pump) : Word :=
  BitVec.ofNat 64 ((if p.code = 0 then 0 else 1) + p.code.toNat * 2 ^ 8 + p.failId.toNat % 2 ^ 48 * 2 ^ 16)

/-- The clear of PSTAT.CLR (R243): jobs that have not begun go; one that runs goes on, unless it has failed, and
done-below takes the next identifier once it is complete (R314). (Log 57: DEDUCED) -/
def Pump.clearHalt (p : Pump) : Pump :=
  let runs := if p.code = 0 then p.jobs.filter fun j => j.started else []
  { Pump.init with next := p.next, below := if runs.isEmpty then p.next else p.below,
                   jobs := runs.map fun j => { j with through := some p.next } }

/-- PSTAT (R243). -/
def execPstat (g : Guard) (ch : BitVec 3) (sd : SReg) (s : State) : Host.Outcome State Fault Refusal :=
  s.memoryOp g fun s => .ok (s.putScalar sd (s.core.pump ch.toNat).below)

/-- PSTAT.ERR (R243). -/
def execPstatErr (g : Guard) (ch : BitVec 3) (sd : SReg) (s : State) : Host.Outcome State Fault Refusal :=
  s.memoryOp g fun s => .ok (s.putScalar sd (s.core.pump ch.toNat).status)

/-- Tasks parked on a transfer of a channel wake when done-below passes it or the channel has halted (R28,
R148, R242). -/
def State.wakeWaitx (s : State) (n ch : Nat) : State :=
  let p := (s.coreAt n).pump ch
  s.tasks.foldl (fun s' (m, x, t) =>
    match t.st with
    | .parked (.pump c id) => if m == n && c == ch && (id.toNat < p.below.toNat || p.code != 0) then s'.wake n x else s'
    | _ => s') s

/-- PSTAT.CLR (R243). -/
def execPstatClr (g : Guard) (ch : BitVec 3) (sd : SReg) (s : State) : Host.Outcome State Fault Refusal :=
  s.memoryOp g fun s =>
    let p := s.core.pump ch.toNat
    let s1 := (s.modCore fun k => k.setPump ch.toNat p.clearHalt).putScalar sd p.status
    .ok (s1.wakeWaitx s.c ch.toNat)

end Sys2Proof.Machine
end

