-- ==== Sys2Proof/Machine/TileOps.lean ====
section
/-! DEFINITION. E slot on the tile table and the volley bus (R245 to R251). -/

namespace Sys2Proof.Machine

/-- An entry that another tenancy holds traps TILEBIND (R247). -/
def State.ownTile (s : State) (e : Nat) : Act Tile :=
  let t := s.core.seenTile e
  if t != Tile.none && t.tag != s.task.tag then tileTrap e t.st.code 0 0 else .ok t

/-- A local range in the issuing core's own scratchpad, aligned (R217, R245, R249, R250): its offset. -/
def State.ownRange (s : State) (a : Word) (size align : Nat) : Act Nat := do
  let (n, o) ← s.localCheck a size align
  if n ≠ s.c then trapNow .lsrange a a else .ok o

/-- TBIND (R245): entry e, and e + 1 of a pair, must be empty; with its level active the fills are raised
(R246). -/
def execTbind (g : Guard) (e : BitVec 6) (lvl : BitVec 3) (ab : BitVec 5) (sa : SReg) (ac : BitVec 5) (n : BitVec 3)
    (rows : BitVec 6) (pair : Bool) (s : State) : Host.Outcome State Fault Refusal :=
  s.memoryOp g fun s => do
    let h := s.scalar sa
    if h.toNat ≥ 2 ^ 32 then outOfRange h
    let rs := rows.toNat + 1
    let i := e.toNat
    let o ← s.ownRange (s.areg ab) (rs * 128 * (if pair then 2 else 1)) 128
    s.sound 7 i
    let t ← s.ownTile i
    if t.st ≠ .empty then tileTrap i t.st.code 0 0
    if pair then
      s.sound 7 (i + 1)
      let u ← s.ownTile (i + 1)
      if u.st ≠ .empty then tileTrap (i + 1) u.st.code 0 0
    let new : Tile := { Tile.none with
      bound := true, base := o, handle := h.setWidth 32, lvl := lvl, ac := ac, n := n, rows := rs, pair := pair,
      tag := s.task.tag, ctx := s.x, launch := s.task.launch }
    let k0 := s.core.setTile i new
    let k1 := if pair then k0.setTile (i + 1) { new with base := o + rs * 128 } else k0
    let k2 := match s.preTask.level lvl.toNat with
      | some l => k1.firstFills s.preTask i l
      | none => k1
    .ok (s.setCore k2)

/-- TFILL (R247). -/
def execTfill (g : Guard) (e : BitVec 6) (s : State) : Host.Outcome State Fault Refusal :=
  s.memoryOp g fun s => do
    let i := s.core.tileName e.toNat
    let t ← s.ownTile i
    s.sound 7 i
    if (t.bound && t.lvl ≠ 7) || t.st = .filling || t.st = .draining then tileTrap i t.st.code 0 0
    let k := s.core.setTile i { t with tag := s.task.tag, ctx := s.x, launch := s.task.launch }
    .ok (s.setCore (k.raiseFill i (t.at s.preTask none)))

/-- TDRAIN (R247). (Log 39: DEDUCED) -/
def execTdrain (g : Guard) (e : BitVec 6) (s : State) : Host.Outcome State Fault Refusal :=
  s.memoryOp g fun s => do
    let i := s.core.tileName e.toNat
    let t ← s.ownTile i
    s.sound 7 i
    if t.st ≠ .ready then tileTrap i t.st.code 0 0
    .ok (s.setCore (s.core.nextJob.setTile i { t with st := .draining, order := s.core.issuedJobs }))

/-- TFREE (R247): it waits for fills and drains of the entry and its pair, then both are empty and unbound.
(Log 38: DEDUCED) -/
def execTfree (g : Guard) (e : BitVec 6) (s : State) : Host.Outcome State Fault Refusal :=
  s.memoryOp g fun s => do
    let i := e.toNat
    s.sound 7 i
    let t := s.core.seenTile i
    if t.st ≠ .empty && t.tag ≠ s.task.tag then tileTrap i t.st.code 0 0
    let es := if t.pair then [i / 2 * 2, i / 2 * 2 + 1] else [i]
    es.forM (s.sound 7)
    if es.any fun j => let u := s.core.tile j; u.st == .filling || u.st == .draining then stall
    .ok (s.setCore (es.foldl (fun k j => k.setTile j Tile.none) s.core))

/-- TSTATE (R247): another tenancy's entry reads as empty. -/
def execTstate (g : Guard) (e : BitVec 6) (sd : SReg) (s : State) : Host.Outcome State Fault Refusal :=
  s.memoryOp g fun s => do
    let i := s.core.tileName e.toNat
    s.sound 7 i
    let t := s.core.seenTile i
    let v := if t.tag != s.task.tag then 0
      else t.st.code + (if t.bound && t.lvl ≠ 7 then 4 else 0) + (if t.pair then 8 else 0) + t.code.toNat % 256 * 2 ^ 4
    .ok (s.putScalar sd (BitVec.ofNat 64 v))

/-- VSEND (R249). -/
def execVsend (g : Guard) (sa : SReg) (ab : BitVec 5) (off : BitVec 20) (num len : BitVec 8) (s : State) :
    Host.Outcome State Fault Refusal :=
  s.memoryOp g fun s => do
    let m := s.scalar sa
    if m.toNat ≥ 2 ^ 32 then outOfRange m
    let o ← s.ownRange (s.baseAddress ab off) (64 * len.toNat) 64
    if s.core.sends.any fun v => v.ctx == s.x then stall
    let v : Send := { ctx := s.x, mask := m.setWidth 32, off := o, num := num, len := len.toNat, tag := s.task.tag,
                      launch := s.task.launch, coreId := s.task.coreId, order := s.core.issuedJobs }
    .ok (s.modCore fun k => { k.nextJob with sends := k.sends ++ [v] })

/-- VLATCH (R250): at most four posted latches a core; an empty tile entry begins to fill. -/
def execVlatch (g : Guard) (t : LatchDst) (sender : BitVec 5) (num : BitVec 8) (s : State) :
    Host.Outcome State Fault Refusal :=
  s.memoryOp g fun s => do
    if s.core.latches.length ≥ 4 then stall
    let dest := match t with
      | .plain ab off => LatchTo.range (s.baseAddress ab off).toNat
      | .tile e => LatchTo.tile (s.core.tileName e.toNat)
    match dest with
    | .tile e => s.sound 7 e
    | .range _ => .ok ()
    let l : Latch := { ctx := s.x, sender := sender, num := num, dest := dest, tag := s.task.tag, launch := s.task.launch,
                       coreId := s.task.coreId, order := s.core.issuedJobs }
    let k := s.core.nextJob
    let k1 := match dest with
      | .range _ => k
      | .tile e =>
        let u := k.seenTile e
        if u.st == TileState.empty && (u == Tile.none || u.tag == s.task.tag) then
          let v := { u with st := .filling, volley := true, tag := s.task.tag, ctx := s.x, code := 0, order := l.order }
          k.setTile e v
        else k
    .ok (s.setCore { k1 with latches := k1.latches ++ [l] })

/-- VSTAT (R251). -/
def execVstat (g : Guard) (sd : SReg) (s : State) : Host.Outcome State Fault Refusal :=
  s.memoryOp g fun s =>
    let t := s.task
    let posted := (s.core.latches.filter fun l => l.ctx == s.x).length
    .ok (s.putScalar sd (BitVec.ofNat 64 ((if s.core.sends.any fun v => v.ctx == s.x then 1 else 0) +
      t.vsendLast.toNat * 2 ^ 8 + posted * 2 ^ 16 + t.vlatchLast.toNat * 2 ^ 20)))

end Sys2Proof.Machine
end

