-- ==== Sys2Proof/Machine/QueueOps.lean ====
section
/-! DEFINITION. E slot on quad queues (R252, R253), graph search (R254, R339, R348), rally hand-offs (R255, R330),
cisterns (R256, R301) and the split (R257, R287). -/

namespace Sys2Proof.Machine

/-- QPUSH (R253). -/
def execQpush (g : Guard) (k : BitVec 4) (ab : BitVec 5) (off : BitVec 20) (s : State) : Host.Outcome State Fault Refusal :=
  s.memoryOp g fun s => do
    s.mustProduce k.toNat
    let (s1, bs) ← s.loadLocal (s.baseAddress ab off) 1024 64 false
    s1.produce k.toNat (BitVec.ofNat 8192 (ofBytes bs)) 6

/-- QADV (R253). -/
def execQadv (g : Guard) (k n : BitVec 4) (s : State) : Host.Outcome State Fault Refusal :=
  s.memoryOp g fun s => do
    s.mustConsume k.toNat
    let q := s.myQueue k.toNat
    if q.fill < n.toNat then parkStall (.queueFill k.toNat n.toNat)
    .ok (s.setMyQueue k.toNat (q.advance n.toNat))

/-- QCFG (R252): the queue is emptied under the issuer's tag; its formats stay. -/
def execQcfg (g : Guard) (k : BitVec 4) (prod cons : BitVec 2) (s : State) : Host.Outcome State Fault Refusal :=
  s.memoryOp g fun s =>
    .ok (s.setMyQueue k.toNat { s.myQueue k.toNat with
      rd := 0, fill := 0, entries := [], prod := prod, cons := cons, tag := s.task.tag })

/-- QRST (R252). -/
def execQrst (g : Guard) (k : BitVec 4) (s : State) : Host.Outcome State Fault Refusal :=
  s.memoryOp g fun s =>
    let q := s.myQueue k.toNat
    if q.configured && (q.prod.toNat = memberOf s.c || q.cons.toNat = memberOf s.c) then
      .ok (s.setMyQueue k.toNat { q with rd := 0, fill := 0, entries := [] })
    else queueTrap k.toNat 5

def State.engine (s : State) (stack : Nat) : Gse := SMap.get Gse.reset s.gse stack

def State.setEngine (s : State) (stack : Nat) (g : Gse) : State := { s with gse := SMap.set Gse.reset s.gse stack g }

/-- The engine that a packet goes to (R339): the stack of the descriptor's frame, or stack 3d of die d; a translation
that waits holds issue (R376, R428). -/
def State.homeEngine (s : State) (graph : Nat) : Act Nat :=
  match s.translate s.agent graph .read .graph with
  | .ok (_, .frame pa _) => .ok (stackOf pa)
  | .ok _ => .ok (3 * dieOfCore s.c)
  | .error e => if e.waits then .error (e.stop .read (BitVec.ofNat 64 graph) false) else .ok (3 * dieOfCore s.c)

/-- A query as it stands in its slot when its packet has come in (R339). -/
def Query.placed (part : Nat) (tag : Tag) (core ctx : Nat) (launch : Option Nat) (packet : List Byte) (seq order : Nat) :
    Query :=
  { part := part, tag := tag, core := core, ctx := ctx, launch := launch, packet := packet, seq := seq,
    order := order, arrived := true,
    running := true, fmt := .f32, dim := 0, deg := 0, nvert := 0, recBase := 0, recSize := 0, nbrOff := 0, qvec := [],
    visited := [], cands := [], round := none, ending := none, written := 0, lost := false, status := 0, detail := 0 }

/-- The query in a slot. -/
def Gse.query (g : Gse) (slot : Nat) : Option Query := SMap.get none g.slots slot

/-- GSRCH (R254, R339): the packet is copied and takes the lowest free slot of its engine. -/
def execGsrch (g : Guard) (ab : BitVec 5) (off : BitVec 20) (sd : SReg) (s : State) : Host.Outcome State Fault Refusal :=
  s.memoryOp g fun s => do
    let (s1, bs) ← s.loadLocal (s.baseAddress ab off) 256 64 false
    let home ← s1.homeEngine (ofBytes (bs.take 8))
    let e := s1.engine home
    let free := fun (i : Nat) => match e.query i with | some q => !q.running | none => true
    match (List.range 64).find? free with
    | none => stall
    | some i =>
      let q := Query.placed s1.part s1.task.tag s1.c s1.x s1.task.launch bs e.accepted s1.core.issuedJobs
      let s2 := s1.setEngine home { e with accepted := (e.accepted + 1) % 2 ^ 53, slots := SMap.set none e.slots i (some q) }
      .ok ((s2.setCore s2.core.nextJob).putScalar sd (BitVec.ofNat 64 (i + home * 2 ^ 6 + e.accepted * 2 ^ 11)))

/-- GSTAT (R254, R348). -/
def execGstat (g : Guard) (sd sa : SReg) (s : State) : Host.Outcome State Fault Refusal :=
  s.memoryOp g fun s =>
    let t := (s.scalar sa).toNat
    let v := match (s.engine (t / 2 ^ 6 % 2 ^ 5)).query (t % 2 ^ 6) with
      | some q =>
        if q.seq ≠ t / 2 ^ 11 || q.tag ≠ s.task.tag then 0
        else (if q.running then 1 else 2 + q.status * 2 ^ 8 + q.detail * 2 ^ 16) + q.visited.length * 2 ^ 32
      | none => 0
    .ok (s.putScalar sd (BitVec.ofNat 64 v))

/-- The rally state of a partition (R321). -/
def State.rallyOf (s : State) (p : Nat) : Rally := SMap.get Rally.none s.rally p

def State.setRally (s : State) (p : Nat) (r : Rally) : State := { s with rally := SMap.set Rally.none s.rally p r }

/-- An error bit of RLYE; the first since all were zero records the entry (R333). -/
def Rally.error (r : Rally) (bit entry : Nat) : Rally :=
  { r with errs := r.errs ||| BitVec.ofNat 7 (2 ^ bit), errEntry := if r.errs = 0 then entry else r.errEntry }

/-- The rally entry that started the executing task, or SWTRAP 3 (R255). -/
def State.rallyEntry (s : State) : Act (Nat × Nat) :=
  match s.task.rally with
  | some x => .ok x
  | none => swTrap 3 0

/-- Context x of core n has an engine job that is not complete (R235). -/
def State.jobsOf (s : State) (n x : Nat) : Bool :=
  let k := s.coreAt n
  (k.pumps.any fun (_, p) => p.jobs.any fun j => j.ctx == x) ||
  (k.tiles.any fun (_, t) => t.ctx == x && (t.st == .filling || t.st == .draining || t.queued.isSome)) ||
  k.jobs.any (fun j => j.ctx == x) || k.sends.any (fun v => v.ctx == x) || k.latches.any (fun l => l.ctx == x) ||
  s.gse.any fun (_, e) => e.slots.any fun (_, q) =>
    match q with | some q => q.running && q.core == n && q.ctx == x | none => false

/-- Everything the task did before a hand-off has been performed (R330, R331); a load is when it issues.
(Log 7: DEDUCED) -/
def State.handoffReady (s : State) : Bool := s.task.rstpOut == 0 && !s.jobsOf s.c s.x && !s.remoteOpen s.c s.x

/-- An increment posted to a neighbour (R330): `which` is the count, 0 FILLF, 1 FILLB, 2 FREEDN, 3 FREEUP. What
cannot be sent is lost. -/
def State.postIncrement (s : State) (p entry : Nat) (node : Word) (which n : Nat) : State :=
  let word := node.toNat % 2 ^ 16
  match s.bindingOf p word with
  | .error _ => s.setRally p ((s.rallyOf p).error 5 entry)
  | .ok job =>
    let dst := word % 2 ^ 10
    let r : Remote := { what := .increment p entry, core := s.c, ctx := s.x, tag := s.task.tag, launch := none, node := dst,
                        ea := 0, link := 0, deadline := s.time + fabricTimeout, parts := [0], got := [], bad := 0,
                        born := s.task.cycle }
    let (s1, tag) := s.openRemote r
    let y := s1.rallyOf p
    let s2 := s1.setRally p { y with posted := y.posted + 1 }
    s2.sendPacket { s2.packet dst 8 job tag 0 with imm := BitVec.ofNat 256 (n + which * 2 ^ 16) }

/-- A neighbour is present (R322). -/
def present (node : Word) : Bool := node.getLsbD 16

/-- RLYDONE (R255, R330). -/
def execRlydone (g : Guard) (n : BitVec 8) (s : State) : Host.Outcome State Fault Refusal :=
  s.memoryOp g fun s => do
    let (p, i) ← s.rallyEntry
    if !s.handoffReady then stall
    let r := s.rallyOf p
    let m := n.toNat
    let kind := match r.entries[i]? with | some e => e.kind | none => 2
    let none_ := s.setRally p (r.error 3 i)
    if kind = 0 then
      if !present r.dnNode || r.dn.cnt = 0 then .ok none_
      else
        let r1 := if r.freeDn < m then r.error 0 i else r
        .ok ((s.setRally p { r1 with freeDn := r.freeDn - m, wrDn := (r.wrDn + m) % r.dn.cnt }).postIncrement p i r.dnNode 0 m)
    else if kind = 1 then
      if !present r.upNode || r.up.cnt = 0 then .ok none_
      else
        let r1 := if r.freeUp < m then r.error 0 i else r
        .ok ((s.setRally p { r1 with freeUp := r.freeUp - m, wrUp := (r.wrUp + m) % r.up.cnt }).postIncrement p i r.upNode 1 m)
    else .ok none_

/-- RLYFREE (R255, R330). -/
def execRlyfree (g : Guard) (n : BitVec 8) (s : State) : Host.Outcome State Fault Refusal :=
  s.memoryOp g fun s => do
    let (p, i) ← s.rallyEntry
    if !s.handoffReady then stall
    let r := s.rallyOf p
    let kind := match r.entries[i]? with | some e => e.kind | none => 2
    let none_ := s.setRally p (r.error 3 i)
    let under := fun (m : Nat) => if m < n.toNat then r.error 2 i else r
    if kind = 0 then
      if r.fin.cnt = 0 || !present r.upNode then .ok none_
      else
        let m := min n.toNat r.fillF
        let s1 := s.setRally p { under m with fillF := r.fillF - m, rdF := (r.rdF + m) % r.fin.cnt }
        .ok (if m = 0 then s1 else s1.postIncrement p i r.upNode 2 m)
    else if kind = 1 then
      if r.bin.cnt = 0 || !present r.dnNode then .ok none_
      else
        let m := min n.toNat r.fillB
        let s1 := s.setRally p { under m with fillB := r.fillB - m, rdB := (r.rdB + m) % r.bin.cnt }
        .ok (if m = 0 then s1 else s1.postIncrement p i r.dnNode 3 m)
    else .ok none_

/-- RLYSTASH (R255, R330). -/
def execRlystash (g : Guard) (n : BitVec 8) (s : State) : Host.Outcome State Fault Refusal :=
  s.memoryOp g fun s => do
    let (p, i) ← s.rallyEntry
    let r := s.rallyOf p
    let v := r.stash + n.toNat
    .ok (s.setRally p { (if v > 65535 then r.error 4 i else r) with stash := min v 65535 })

/-- RLYPOP (R255, R330). -/
def execRlypop (g : Guard) (n : BitVec 8) (s : State) : Host.Outcome State Fault Refusal :=
  s.memoryOp g fun s => do
    let (p, _) ← s.rallyEntry
    let r := s.rallyOf p
    .ok (s.setRally p { r with stash := r.stash - n.toNat })

/-- The checks of CRES and CREL on their range (R256): its pages. -/
def rangePages (base len : Word) : Act (List Nat) := do
  if base.toNat % Config.pageSize ≠ 0 then trapNow .align base base
  if len = 0 || len.toNat % Config.pageSize ≠ 0 then trapNow .lsrange 0 len
  .ok ((List.range (len.toNat / Config.pageSize)).map fun i => base.toNat / Config.pageSize + i)

/-- The home die of a cistern page (R301), by the entry that the core's TLB holds or the table gives (R369); an entry of
another type traps XLATE (R256). -/
def State.cisternHome (s : State) (page : Nat) : Act Nat :=
  let va := page * Config.pageSize
  let stop := fun (e : XErr) => (.error (e.stop .read (BitVec.ofNat 64 va) false) : Act Nat)
  if va ≥ Config.vaLimit then stop (.fault 3 0 false 0)
  else
    match ((s.tlbFind s.agent va).map Except.ok).getD (s.walk s.part va) with
    | .error e => stop e
    | .ok w =>
      if !s.entryValid s.part w.level w.entry then stop (.fault 1 w.level false w.slot)
      else if bits w.entry 9 7 ≠ 1 then stop (.fault 6 w.level false w.slot)
      else .ok (bits w.entry 12 10)

/-- Lines of cistern pages of partition p that are charged at die d. -/
def State.reservedOn (s : State) (d p : Nat) : Nat := (((s.die d).reserved.filter fun r => r.part == p).map (·.lines)).sum

/-- CRES (R256, R301). (Log 41: DEDUCED) -/
def execCres (g : Guard) (sd : SReg) (ab : BitVec 5) (sa : SReg) (s : State) : Host.Outcome State Fault Refusal :=
  s.memoryOp g fun s => do
    let pages ← rangePages (s.areg ab) (s.scalar sa)
    let homes ← pages.mapM s.cisternHome
    let p := s.part
    let both := pages.zip homes
    if s.dies.any fun (_, x) => x.reserved.any fun r => r.part == p && pages.contains r.page then .ok (s.putScalar sd 2)
    else if (List.range Config.dies).any fun d =>
        s.reservedOn d p + 1024 * (homes.filter (· == d)).length > 1024 * s.field (dcpReg d p) 51 40 then .ok (s.putScalar sd 1)
    else
      let s1 := both.foldl (fun s (page, d) =>
        let x := s.die d
        s.setDie d { x with reserved := x.reserved ++ [{ part := p, page := page, lines := 1024 }] }) s
      .ok (s1.putScalar sd 0)

/-- The lines of cistern pages of partition p are gone from a die and its spill buffer, with their reservations (R256). -/
def Die.release (x : Die) (p : Nat) (pages : List Nat) : Die :=
  let mine := fun (c : CLine) => isCistern c.key && (c.key - 2 ^ 104) / 2 ^ 56 == p &&
    pages.contains ((c.key - 2 ^ 104) % 2 ^ 56 / Config.pageSize)
  { x with
    reserved := x.reserved.filter (fun r => !(r.part == p && pages.contains r.page)),
    unposted := x.unposted.filter (fun r => !(r.1 == p && pages.contains r.2)),
    lines := x.lines.filter (fun c => !mine c), spill := x.spill.filter (fun c => !mine c) }

/-- Stash copies and cache-part copies of lines are gone, with their dirty data, and so are those in the caches of other dies
than their homes (R230, R256). (Log 117: DEDUCED) -/
def State.forgetCopies (s : State) (mine : Nat → Bool) : State :=
  let s1 := s.dies.foldl (fun s (d, x) =>
    s.setDie d { x with lines := x.lines.filter fun c => isHome d c.key || !mine c.key }) s
  s1.cores.foldl (fun s (n, _) =>
    let k := s.coreAt n
    let clear := fun (_ : Nat) (e : Stash) => { e with
      sectors := SMap.mapAll Sector.none (fun _ c => if c.at_.any mine then Sector.none else c) e.sectors }
    s.setCoreAt n { k with stash := SMap.mapAll Stash.none clear k.stash, cachePart := k.cachePart.filter fun l => !mine l.1 }) s1

/-- CREL (R256): reservations of the range go, and its lines with them, wherever they are held. -/
def execCrel (g : Guard) (ab : BitVec 5) (sa : SReg) (s : State) : Host.Outcome State Fault Refusal :=
  s.memoryOp g fun s => do
    let pages ← rangePages (s.areg ab) (s.scalar sa)
    pages.forM fun page => do
      let _ ← s.cisternHome page
    let p := s.part
    let s1 := s.forgetCopies fun a => isCistern a && (a - 2 ^ 104) / 2 ^ 56 == p &&
      pages.contains ((a - 2 ^ 104) % 2 ^ 56 / Config.pageSize)
    .ok (s1.dies.foldl (fun s (d, x) => s.setDie d (x.release p pages)) s1)

/-- Bytes [lo, hi) of core n's store are in use by a stash range, a tile entry or a posted latch (R257). -/
def State.unitInUse (s : State) (n lo hi : Nat) : Bool :=
  let k := s.coreAt n
  let a := memberOf n * 2 ^ 20
  ((List.range 4).any fun m => (s.coreAt (quadOf n * 4 + m)).stash.any fun (_, x) =>
    x.active && x.base < a + hi && a + lo < x.base + x.size) ||
  (k.tiles.any fun (_, t) => t.st != .empty && t.base < hi && lo < t.base + t.rows * 128) ||
  k.latches.any fun l => match l.dest with
    | .range v =>
      v < 2 ^ 22 && v / 2 ^ 20 == memberOf n && v % 2 ^ 20 < hi && lo < v % 2 ^ 20 + (s.latchBytes l).getD 64
    | .tile _ => false

/-- A local access of the quad to bytes [lo, hi) of core n's store is in flight (R287). -/
def State.localFlying (s : State) (n lo hi : Nat) : Bool :=
  (List.range 4).any fun m => (s.coreAt (quadOf n * 4 + m)).inFlight.any fun x =>
    s.now < x.till && x.range.any fun (c, o, z) => c == n && decide (o < hi) && decide (lo < o + z)

/-- SPLIT (R257, R287). (Log 42: DEDUCED) -/
def execSplit (g : Guard) (n : BitVec 4) (s : State) : Host.Outcome State Fault Refusal :=
  s.memoryOp g fun s => do
    let k := s.core
    let new := n.toNat
    let lo := min new k.scr * 0x1_0000
    let hi := max new k.scr * 0x1_0000
    let m := max new k.scr - min new k.scr
    let region := localRegion s.c lo (hi - lo)
    if new < k.scr then
      if s.unitInUse s.c lo hi then trapNow .lsrange 0 (BitVec.ofNat 64 new)
      if s.localFlying s.c lo hi then stall
      if (List.range 4).any fun c => (List.range 16).any fun x =>
          let (rs, ws) := s.footprints (quadOf s.c * 4 + c) x
          rs.any region.meets || ws.any region.meets then stall
    let first := localAddr s.c lo / 64
    let last := localAddr s.c hi / 64
    let s1 : State := { s with tags := s.tags.filter fun (l, _) => !(decide (first ≤ l) && decide (l < last)) }
    .ok (s1.modCore fun k => { k with scr := new, cachePart := k.cachePart.take (1024 * (12 - new)), splitBusy := true, splitEnd := s.now + 512 + 64 * m })

end Sys2Proof.Machine
end

