-- ==== Sys2Proof/Machine/Arrive.lean ====
section
/-! DEFINITION. What arrives by itself on a core: load data (R220, R308), exposed results (R191, R201 to R204),
producer writes (R58), the delivery of results (R263), the ends of a TLB walk (R218) and of a SPLIT (R257). -/

namespace Sys2Proof.Machine

/-- SPLIT_OCCUPANCY_END (R257): the occupancy ends and L-slot and E-slot operations go on. -/
def execSplitOccupancyEnd (core : Nat) (s : State) : Host.Outcome State Fault Refusal :=
  let k := s.coreAt core
  .next (if k.splitBusy && k.splitEnd ≤ k.clock then s.setCoreAt core { k with splitBusy := false } else s)

/-- TLB_WALK_COMPLETE (R218): later L-slot and E-slot operations of the core go on. -/
def execTlbWalkComplete (core : Nat) (s : State) : Host.Outcome State Fault Refusal :=
  .next (s.setCoreAt core { s.coreAt core with walk := none })

/-- A scoreboard entry whose result has been delivered and whose readers have issued by cycle t (R263). -/
def Board.past (e : Board) (t : Nat) : Bool := e.deliver ≤ t && e.lastRead ≤ t

/-- RESULT_DELIVERY (R263, R265): registers whose results have been delivered are free. -/
def execResultDelivery (core : Nat) (s : State) : Host.Outcome State Fault Refusal :=
  let k := s.coreAt core
  .next (s.setCoreAt core { k with issue := { k.issue with board := k.issue.board.filter fun e => !e.past k.clock } })

/-- Two loads write one register. -/
def Load.clashes (a b : Load) : Bool := a.keys.any fun k => b.keys.contains k && (a.ctx == b.ctx || k.shared)

/-- The first load whose data is due and that no earlier load to one of its registers precedes (R224, R263). -/
def Core.nextLoad (k : Core) : Option Load :=
  (List.range k.loads.length).findSome? fun i => k.loads[i]?.bind fun l =>
    if l.due ≤ k.clock && !((k.loads.take i).any l.clashes) then some l else none

/-- LOAD_DATA_RETURN (R308): the first load that may arrive does. (Log 7: DEDUCED) -/
def execLoadDataReturn (core : Nat) (s : State) : Host.Outcome State Fault Refusal :=
  .next (match (s.coreAt core).nextLoad with
    | some l => s.deliverLoad core l
    | none => s)

/-- A contribution, a push or an XLD among pending results. -/
def Pend.isAcc (p : Pend) : Bool := match p.what with | .acc _ _ _ _ => true | _ => false
def Pend.isPush (p : Pend) : Bool := match p.what with | .push _ _ => true | _ => false

/-- XLD_LANDING (R190, R191): the XLDs of a core whose cycle has come land. -/
def execXldLanding (core : Nat) (s : State) : Host.Outcome State Fault Refusal :=
  .next (s.landDue core (s.coreAt core).clock Pend.isScale)

/-- CONTRIBUTION_LANDING (R203, R204). -/
def execContributionLanding (core : Nat) (s : State) : Host.Outcome State Fault Refusal :=
  .next (s.landDue core (s.coreAt core).clock Pend.isAcc)

/-- PUSH_LANDING (R202, R206). -/
def execPushLanding (core : Nat) (s : State) : Host.Outcome State Fault Refusal :=
  .next (s.landDue core (s.coreAt core).clock Pend.isPush)

/-- The clock that a quad's queue landings go by. -/
def State.quadClock (s : State) (quad : Nat) : Nat :=
  (List.range 4).foldl (fun t m => max t (s.coreAt (4 * quad + m)).clock) 0

/-- Tasks of the quad parked on queue k wake when it holds, or has room for, what they wait for (R28). -/
def State.wakeQueue (s : State) (quad k : Nat) : State :=
  let q := s.queue quad k
  s.tasks.foldl (fun s' (n, x, t) =>
    if quadOf n = quad then
      match t.st with
      | .parked (.queueFill j need) => if j == k && need ≤ q.fill then s'.wake n x else s'
      | .parked (.queueSpace j) => if j == k && q.fill + q.landing.length < 8 then s'.wake n x else s'
      | _ => s'
    else s') s

/-- QUEUE_PRODUCER_LANDING (R58, R253): the oldest producer write whose cycle has come is placed, if Land
holds. (Log 8: DEDUCED) -/
def execQueueProducerLanding (quad k : Nat) (s : State) : Host.Outcome State Fault Refusal :=
  let q := s.queue quad k
  .next (match q.landing with
    | [] => s
    | l :: rest =>
      if s.quadClock quad < l.due then s
      else
        let q1 := { q with landing := rest }
        let s1 := s.setQueue quad k q1
        if !s.lands l.tag then (s1.countDrop l.tag).wakeQueue quad k
        else
          let pos := (q.rd.toNat + q.fill) % 8
          let s2 := (List.range 4).foldl (fun s m =>
            s.setCoreAt (4 * quad + m) ((s.coreAt (4 * quad + m)).heal 6 (8 * k + pos))) s1
          (s2.setQueue quad k (q1.place { data := l.data, tag := l.tag })).wakeQueue quad k)

end Sys2Proof.Machine
end

