-- ==== Sys2Proof/Machine/Fetch.lean ====
section
/-! DEFINITION. BUNDLE_FETCH (R111, R133, R134, R220, R268, R275): the next bundle of the ISSUING task is decoded
and dispatched, removed or trapped; and the issue of a dispatched bundle's slots, given what each slot does. -/

namespace Sys2Proof.Machine

/-- Core n with its ISSUING task becomes the core and task that execute. -/
def State.turnTo (s : State) (n x : Nat) : State := { s with c := n, x := x }

/-- The cycle of a trap that fetch raises (R275): the bundle would have issued then, and every earlier slot has. -/
def Core.quiet (k : Core) : Nat := max (max k.issue.dispatch k.clock) k.issue.lastSlot

/-- A trap taken at fetch, with the slots that it marks (R134, R138, R220). -/
def State.fetchStops (s : State) (slots : BitVec 8) (t : Trap) : State :=
  (s.tick s.c s.core.quiet).takeTrap s.core.quiet slots t

/-- A deferred trap is taken in the first cycle in which no slot of the task issues (R275). -/
def State.deferredStops (s : State) (slots : BitVec 8) (t : Trap) : State :=
  (s.tick s.c s.core.afterSlots).takeTrap s.core.afterSlots slots t

/-- The record of an ILLBUNDLE trap (R134). -/
def Bundle.trap (b : Bundle) (pc : Word) : Trap :=
  { cause := .illbundle, addr := pc, info := b.reasons.setWidth 64, at_ := .address pc }

/-- The loads in flight whose destination an operation of a bundle reads or writes (R221, R263). -/
def Core.awaited (k : Core) (x : Nat) (ops : List SlotOp) : List Load :=
  k.loads.filter fun l => l.keys.any fun key =>
    (l.ctx == x || key.shared) && ops.any fun o => (k.readsOf x o.2).contains key || (writes o.2).contains key

/-- The loads that the operations of a bundle wait for arrive first: each consumer issues no earlier (R221). -/
def State.awaitLoads (s : State) (ops : List SlotOp) : State :=
  (s.core.awaited s.x ops).foldl (fun s l => s.deliverLoad s.c l) s

/-- A P slot that acts finds the XLDs landed that are due by the cycle in which it issues (R191, R192). -/
def State.landScales (s : State) (t : Timing) (ops : List SlotOp) : State :=
  if ops.any fun o => o.1 == 2 && !isNop o.2 then s.landDue s.c (t.slot 2) Pend.isScale else s

/-- The bundle is dispatched. -/
def State.dispatch (s : State) (ops : List SlotOp) (len : Nat) : State :=
  { s with frame := some { task := s.task, core := s.core, ops := ops, traps := [], holds := [], ctl := none,
                           park := none, len := len } }

/-- What follows the decoding of a legal bundle: removal by the nullifier (R268), the arrival of loads that it
waits for, or its dispatch. -/
def State.afterDecode (s : State) (ops : List SlotOp) (len : Nat) : State :=
  if s.nullified ops then s.removeBundle len
  else
    let s1 := s.awaitLoads ops
    if s1.task.deferred.isEmpty then s1.dispatch ops len else s1

/-- The bundle at the pc of the executing task is fetched (R111, R112, R134, R137). -/
def State.fetchNext (s : State) : Host.Outcome State Fault Refusal :=
  match s.fetch s.task.pc with
  | .error (.trap t) => .next (s.fetchStops 0 t)
  | .error (.hold _) => .next s.waitCycle
  | .error (.fault f) => .fault f
  | .ok (s1, b, next) =>
    let s2 := s1.modTask fun t => { t with link := next }
    if b.reasons ≠ 0 then .next (s2.fetchStops b.marks (b.trap s2.task.pc)) else .next (s2.afterDecode b.ops b.len)

/-- A hand-off. -/
def isHandoff : Instr → Bool
  | .rlydone _ _ => true
  | .rlyfree _ _ => true
  | _ => false

/-- What a bundle has left to be done goes before anything else of its task: a hand-off by itself, once the accesses before
it are performed (R331); another slot as a bundle of its own; and at the end what is left of the control (R137).
(Log 113: DEDUCED; 121: DEDUCED) -/
def State.resume (s : State) (f : Frame) : State :=
  match f.ops with
  | [] => (s.setLater s.c s.x none).leaveBundle s.core.clock f.len f.task.loops f.ctl
  | (_, i) :: _ => if isHandoff i then s.waitCycle else { s with frame := some f }

/-- BUNDLE_FETCH (R111): what the last bundle has left comes first, then a deferred trap (R220, R233, R250), then that of
an uncorrectable error of the task's context (R274), then the bundle. -/
def State.bundleFetch (s : State) : Host.Outcome State Fault Refusal :=
  match SMap.get none s.later (16 * s.c + s.x), s.task.deferred with
  | some f, _ => .next (s.resume f)
  | none, (slots, t) :: rest => .next ((s.modTask fun k => { k with deferred := rest }).deferredStops slots t)
  | none, [] =>
    if s.core.bad.contains (1, s.x) then
      let t : Trap := { cause := .stateue, addr := 0, info := BitVec.ofNat 64 (1 + s.x * 2 ^ 16), at_ := .bundle }
      .next ((s.modCore fun k => k.heal 1 s.x).fetchStops 0 t)
    else s.fetchNext

def execBundleFetch (core : Nat) (s : State) : Host.Outcome State Fault Refusal :=
  let k := s.coreAt core
  match k.issuing with
  | some x => if s.frame.isSome || k.switch.isSome || (k.leaving && !k.issue.owed) then .next s else (s.turnTo core x).bundleFetch
  | none => .next s

/-- An operation outside the L slot that performs an access of its task (R308, R312, R339). (Log 113: DEDUCED) -/
def isAccess : Instr → Bool
  | .xld _ _ _ _ => true
  | .qpush _ _ _ _ => true
  | .gsrch _ _ _ _ => true
  | _ => false

/-- The wait on which the bundle's C slot parks orders the accesses behind it (R312, R314): PARK.WORD, BARW or WAITX. -/
def Frame.ordersAccesses (f : Frame) : Bool :=
  match f.ctl with
  | some (.park (.word _ _)) => true
  | some (.park (.barrier _ _ _)) => true
  | some (.park (.pump _ _)) => true
  | _ => false

/-- The bundle's own park orders a slot's access behind its wake (R308, R312, R314, R316): behind PARK.WORD, BARW and
WAITX the access of an XLD, of the L slot, of a QPUSH or of a GSRCH, and the V slots where one writes a queue; behind a
remote instruction of the L slot a QPUSH or a GSRCH. (Log 113: DEDUCED) -/
def State.defers (s : State) (n : Nat) (i : Instr) : Bool :=
  match s.frame with
  | none => false
  | some f =>
    !f.resumed && !isNop i &&
      ((f.ordersAccesses && (n = 6 || isAccess i) && s.guard (guardOf i)) ||
        (f.ordersAccesses && 3 ≤ n && n ≤ 4 && s.guardLanes (guardOf i) != 0 && f.ops.any fun o => writesQueue o.1 o.2) ||
        (n = 7 && f.park.isSome && isAccess i && s.guard (guardOf i)))

/-- An L-slot operation whose access is not performed when it issues: a remote one (R233), and one that is an engine job
(R228, R230, R231). -/
def performsLater : Instr → Bool
  | .rldg _ _ _ _ _ _ => true
  | .rstg _ _ _ _ _ _ => true
  | .rstp _ _ _ _ _ _ => true
  | .ratom _ _ _ _ _ _ _ => true
  | .rfence _ => true
  | .watomr _ _ _ _ _ _ _ => true
  | .cdisc _ _ _ _ => true
  | .cflush _ _ _ _ _ => true
  | .smap _ _ _ _ _ _ => true
  | .sunmap _ _ => true
  | .sflush _ _ => true
  | .sdisc _ _ => true
  | _ => false

/-- A hand-off takes its place behind the access of its own bundle's L slot (R331): where that is not performed with the
bundle, the hand-off comes once it is, and before the next bundle. (Log 121: DEDUCED) -/
def State.handsOff (s : State) (i : Instr) : Bool :=
  match s.frame with
  | none => false
  | some f => !f.resumed && isHandoff i && s.guard (guardOf i) &&
      f.ops.any fun o => o.1 == 6 && s.guard (guardOf o.2) && (performsLater o.2 || f.later.any fun l => l.1 == 6)

/-- A slot has executed: what it did stands, or only its traps do, and its holds, where its accesses wait.
(Log 113: DEDUCED) -/
def State.afterSlot (before after : State) (n : Nat) (i : Instr) : State :=
  match before.frame, after.frame with
  | some f, some g =>
    if before.defers n i then
      { before with frame := some { f with traps := g.traps, holds := g.holds, later := f.later ++ [(n, i)] } }
    else if before.handsOff i then { before with frame := some { f with traps := g.traps, later := f.later ++ [(n, i)] } }
    else after
  | _, _ => after

/-- The slots of a dispatched bundle execute in slot order, each in the cycle in which it issues.
(Log 109: DESIGN CHOICE) -/
def runSlots (run : Instr → State → Host.Outcome State Fault Refusal) (tm : Timing) :
    List SlotOp → State → Host.Outcome State Fault Refusal
  | [], s => .next s
  | (n, i) :: rest, s =>
    let s1 : State := { s with slot := n, now := tm.slot n }
    match run i s1 with
    | .next t => runSlots run tm rest (State.afterSlot s1 t n i)
    | .fault f => .fault f
    | .refused r => .refused r

/-- A local address lies in the store of another member of the quad (R7). (Log 105: DEDUCED) -/
def State.farAddress (s : State) (a : Word) : Bool := a.toNat < 2 ^ 22 && a.toNat / 2 ^ 20 != memberOf s.c

/-- The latency of an operation (R265): a read of a quad neighbour's store takes 14 cycles. (Log 105: DEDUCED) -/
def State.latencyOf (s : State) (i : Instr) : Nat :=
  let far := match i with
    | .lds _ _ _ _ ab sa off => s.farAddress (s.address ab off sa)
    | .vld _ _ _ ab sa off => s.farAddress (s.address ab off sa)
    | .vlds _ _ _ ab off _ => s.farAddress (s.baseAddress ab off)
    | .vldx _ _ _ ab sa _ => s.farAddress (s.address ab 0 sa)
    | _ => false
  if far then 14 else latency i

/-- The registers as they stand when the bundle issues, which its slots read (R51): the replay of the snapshot
begins with its first slot (R279). Slots that waited for a wake keep the registers of their bundle. -/
def State.openSlots (s : State) (f : Frame) (tm : Timing) : State :=
  let first := tm.at_.foldl (fun m q => min m q.2) tm.done
  let s1 := (s.replaySnapshot first).landScales tm f.ops
  let s2 := s1.modCore fun k => { k with issue := k.issue.issued s.x tm f.ops s1.latencyOf (k.readsOf s.x) }
  if f.resumed then s2 else { s2 with frame := some { f with task := s2.task, core := s2.core } }

/-- The issue of the bundle that has been dispatched (R133, R262): its slots, then its end. (Log 109: DESIGN CHOICE) -/
def State.issueBundle (s : State) (run : Instr → State → Host.Outcome State Fault Refusal) :
    Host.Outcome State Fault Refusal :=
  match s.frame with
  | none => .next s
  | some f =>
    let tm := s.core.timing s.x f.ops
    let s1 := s.openSlots f tm
    match runSlots run tm f.ops s1 with
    | .next t => .next (State.closeBundle { s with frame := none } t tm ((f.ops.find? fun o => o.1 == 0).map (·.2)))
    | .fault e => .fault e
    | .refused r => .refused r

end Sys2Proof.Machine
end

