-- ==== Sys2Proof/Machine/Picker.lean ====
section
/-! DEFINITION. The task picker (R27 to R34): parks on stalls, wakes, promotions, the ends of turns and the
switches between tasks. -/

namespace Sys2Proof.Machine

/-- The cycles after cycle c of slots that had not issued by then, 0 for those that had (R270). -/
def beyond (c t : Nat) : Nat := if c ≤ t then t - c + 1 else 0

/-- The cycle in which an exposed-latency operation issued (R264). -/
def Pend.issued (p : Pend) : Nat :=
  p.due - match p.what with
    | .acc _ _ _ _ => 72
    | .push _ _ => 16
    | .scale _ _ => 12

/-- The slots of the executing task that have been dispatched and have not issued by now wait for it to hold the pipeline
again (R270): what they leave in the queues, on the scoreboard and among the pending results is set aside. -/
def State.cutShort (s : State) : State :=
  let k := s.core
  let i := k.issue
  let c := k.clock
  let late := fun (e : Board) => e.ctx == s.x && (c ≤ e.wrote || c ≤ e.lastRead)
  let open_ := fun (p : Pend) => p.ctx == s.x && c ≤ p.issued
  if i.lastSlot < c then s
  else
    let cut : Cut :=
      { lasts := [i.lastC, i.lastV, i.lastM, i.lastL].map (beyond c), trapAt := beyond c i.trapAt, window := i.window.map (beyond c),
        board := (i.board.filter late).map fun e =>
          { e with deliver := beyond c e.deliver, lastRead := beyond c e.lastRead, wrote := beyond c e.wrote },
        pend := (k.pend.filter open_).map fun p => { p with due := p.due - c } }
    s.setCore { k with
      cuts := SMap.set none k.cuts s.x (some cut), pend := k.pend.filter fun p => !open_ p,
      issue := { i with lastC := min i.lastC c, lastV := min i.lastV c, lastM := min i.lastM c, lastL := min i.lastL c,
                        trapAt := min i.trapAt c, window := i.window.map (min c), board := i.board.filter fun e => !late e } }

/-- A context's slots that were set aside go on from cycle t (R270). -/
def Core.goOnFrom (k : Core) (x t : Nat) : Core :=
  match SMap.get none k.cuts x with
  | none => k
  | some cut =>
    let i := k.issue
    let at_ := fun (old off : Nat) => if off = 0 then old else t + off - 1
    let last := fun (q old : Nat) => at_ old ((cut.lasts[q]?).getD 0)
    { k with
      cuts := SMap.set none k.cuts x none,
      pend := k.pend ++ cut.pend.map fun p => { p with due := t + p.due, parked := true },
      issue := { i with
        lastC := last 0 i.lastC, lastV := last 1 i.lastV, lastM := last 2 i.lastM, lastL := last 3 i.lastL,
        trapAt := at_ i.trapAt cut.trapAt, window := cut.window.map (at_ 0),
        board := (cut.board.map fun e =>
          { e with deliver := at_ 0 e.deliver, lastRead := at_ 0 e.lastRead, wrote := at_ 0 e.wrote }).foldl putBoard i.board } }

/-- STALL_PARK (R28, R29): a queue or tile stall parks the task once it has lasted longer than PARK.THRESH, or at
once where the picker has stopped its dispatch. -/
def execStallPark (core ctx : Nat) (s : State) : Host.Outcome State Fault Refusal :=
  let k := s.coreAt core
  let t := k.task ctx
  .next (match t.stallOn with
    | some c =>
      if k.issuing = some ctx && (t.stall > t.parkThresh.toNat || k.leaving) then (s.turnTo core ctx).cutShort.parkNow c
      else s
    | none => s)

/-- The wake event of a cause holds as the module stands (R28, R148, R149, R152). The events of words, pages and
remote accesses are noted when they occur. -/
def State.causeMet (s : State) (n x : Nat) (c : ParkCause) : Bool :=
  let k := s.coreAt n
  match c with
  | .time u => u ≤ k.clock
  | .queueFill j need => need ≤ (s.queue (quadOf n) j).fill
  | .queueSpace j => (s.queue (quadOf n) j).fill + (s.queue (quadOf n) j).landing.length < 8
  | .tile e => (k.tile e).st != .filling && (k.tile e).st != .draining
  | .pump ch id => id.toNat < (k.pump ch).below.toNat || (k.pump ch).code != 0
  | .barrier die b ph =>
    let y := if die then SMap.get Barrier.reset s.dieBars (16 * dieOfCore n + b)
      else SMap.get Barrier.reset s.quadBars (16 * quadOf n + b)
    y.phase != ph
  | .fence _ => (k.task x).rstpOut == 0
  | .word _ _ => false
  | .page _ => false
  | .remote _ => false

/-- What a wait leaves for the task: the trap of a WAITX whose channel halted (R242), and that of an RFENCE whose
posted store failed (R233). -/
def State.afterWait (s : State) (n x : Nat) (c : ParkCause) : State :=
  let t := s.taskAt n x
  match c with
  | .pump ch id =>
    let p := (s.coreAt n).pump ch
    if id.toNat < p.below.toNat || p.code = 0 then s
    else s.setTaskAt n x { t with deferred := t.deferred ++ [(1, haltTrap ch p)] }
  | .fence pc =>
    match t.rstpFail with
    | some f => s.setTaskAt n x { t with rstpFail := none, deferred := t.deferred ++ [(slotL, fenceTrap f pc)] }
    | none => s
  | _ => s

/-- TASK_WAKE (R28): a PARKED task whose wake event has occurred becomes READY, or waits on for what else its
bundle asked for. -/
def execTaskWake (core ctx : Nat) (s : State) : Host.Outcome State Fault Refusal :=
  let t := s.taskAt core ctx
  .next (match t.st with
    | .parked c =>
      if t.wakeAt.isSome || s.causeMet core ctx c then
        let s1 := (s.catchUp core).afterWait core ctx c
        let u := s1.taskAt core ctx
        match u.andThen with
        | some c2 => s1.setTaskAt core ctx { u with st := .parked c2, andThen := none, wakeAt := none }
        | none => (s1.setTaskAt core ctx { u with st := .ready, wakeAt := none, passed := 0 }).challenge core ctx
      else s
    | _ => s)

/-- PRIORITY_PROMOTION (R30): 4,096 consecutive cycles passed over raise the effective priority by one. -/
def execPriorityPromotion (core ctx : Nat) (s : State) : Host.Outcome State Fault Refusal :=
  let t := s.taskAt core ctx
  .next (if t.st = .ready && t.passed ≥ 4096 then
    (s.setTaskAt core ctx { t with eff := if t.eff = 3 then 3 else t.eff + 1, passed := t.passed - 4096 }).challenge core ctx
    else s)

/-- TURN_END (R30, R31, point 3): after 2,048 cycles the turn ends and a raised priority returns to its base: with
another task of equal or higher effective priority READY dispatch stops, else a new turn begins. (Log 114: DEDUCED) -/
def execTurnEnd (core : Nat) (s : State) : Host.Outcome State Fault Refusal :=
  let k := s.coreAt core
  .next (match k.issuing with
    | some x =>
      let t := k.task x
      let rival := k.candidates.any fun y => t.eff.toNat ≤ (k.task y).eff.toNat
      let k1 := k.setTask x { t with eff := t.prio }
      if k.leaving || k.clock - k.turnStart < 2048 then s
      else s.setCoreAt core (if rival then { k1 with leaving := true } else { k1 with turnStart := k.turnStart + 2048 })
    | none => s)

/-- The task that the picker chooses among those READY (R31): highest effective priority, then the first context after the
last winner at that priority; where no context has won a turn at it yet, the round-robin starts at context 0.
(Log 138: DESIGN CHOICE) -/
def Core.pick (k : Core) : Option Nat :=
  let cs := k.candidates
  let best := cs.foldl (fun m x => max m (k.task x).eff.toNat) 0
  let top := cs.filter fun x => (k.task x).eff.toNat == best
  let last := SMap.get 15 k.lastWin best
  match top.find? fun x => last < x with
  | some x => some x
  | none => top.head?

/-- The ISSUING task may leave the pipeline (R32): every slot dispatched has issued, and no exposed result of its
own is pending. -/
def Core.drained (k : Core) (x : Nat) : Bool :=
  !k.issue.owed && k.issue.lastSlot < k.clock && k.pend.all fun p => p.ctx != x

/-- The outgoing task leaves the pipeline at a switch (R27, R280): it is READY again, and a handler's snapshot
is released. -/
def State.leave (s : State) (n x : Nat) : State :=
  let s1 := if (s.taskAt n x).handling || (s.coreAt n).replay then s.releaseSnapshot n else s
  let k := s1.coreAt n
  let t := k.task x
  s1.setCoreAt n { k.setTask x { t with st := .ready, eff := t.prio, passed := 0 } with
    issuing := none, leaving := false, replay := false }

/-- The first cycle of a switch to the task of context y (R32). -/
def State.beginSwitch (s : State) (n y : Nat) : State :=
  let k := s.coreAt n
  s.setCoreAt n { k with
    switch := some { dest := y, end_ := k.clock + 4 }, lastWin := SMap.set 15 k.lastWin (k.task y).eff.toNat y }

/-- The ISSUING task keeps the pipeline and starts a new turn (R31). -/
def State.newTurn (s : State) (n : Nat) : State :=
  let k := s.coreAt n
  s.setCoreAt n { k with leaving := false, turnStart := k.clock }

/-- SWITCH_BEGIN (R31, R32): with no task ISSUING, or once the outgoing one has drained. The first cycle fixes the incoming
task among those READY in it, which the outgoing one is not; with none, the outgoing one keeps the pipeline. -/
def execSwitchBegin (core : Nat) (s : State) : Host.Outcome State Fault Refusal :=
  let k := s.coreAt core
  .next (if k.switch.isSome then s
    else
      match k.issuing, k.pick with
      | some x, y =>
        if k.leaving && (k.task x).stallOn.isNone && k.drained x then
          match y with
          | some y => (s.leave core x).beginSwitch core y
          | none => s.newTurn core
        else s
      | none, some y => s.beginSwitch core y
      | none, none => s)

/-- SWITCH_END (R32, R274): the incoming task becomes ISSUING, and stops at once where a READY task has a higher
effective priority; a context that cannot be corrected ends it. -/
def execSwitchEnd (core : Nat) (s : State) : Host.Outcome State Fault Refusal :=
  let k := s.coreAt core
  .next (match k.switch with
    | some w =>
      if k.clock < w.end_ then s
      else
        let t := k.task w.dest
        let s1 := s.setCoreAt core { k with switch := none }
        if t.st ≠ .ready || t.stopped.isSome then s1
        else if k.bad.contains (1, w.dest) then
          let s2 := s1.turnTo core w.dest
          let tr : Trap := { cause := .stateue, addr := 0, info := BitVec.ofNat 64 (1 + w.dest * 2 ^ 16), at_ := .bundle }
          ((s2.setCore (s2.core.heal 1 w.dest)).reportElement tr).unhandled (tr.record t 0)
        else
          let k1 := (s1.coreAt core).goOnFrom w.dest w.end_
          let rival := k1.candidates.any fun y => y != w.dest && t.eff < (k1.task y).eff
          s1.setCoreAt core { k1.setTask w.dest { t with st := .issuing, passed := 0 } with
            issuing := some w.dest, turnStart := k1.clock, leaving := rival,
            issue := { k1.issue with dispatch := max k1.issue.dispatch w.end_, owed := false } }
    | none => s)

end Sys2Proof.Machine
end

