-- ==== Sys2Proof/Machine/PumpEngine.lean ====
section
/-! DEFINITION. The pumps at work (R236 to R244, R306, R307): the checks of a control block, the moves of a job,
its completion and its halt. COPY packets of the dispatcher run the same jobs (R358). -/

namespace Sys2Proof.Machine

/-- The destination element size of a reduction, and the source element size (R241). -/
def Ccb.srcElem (c : Ccb) : Nat := if c.rop = 1 then 2 else 4

/-- A count and both strides are zero for dimensions that are not there, and no count is zero for one that is
(R237, R238). -/
def Ccb.dimsOk (c : Ccb) : Bool :=
  (List.range 5).all fun d =>
    let n := c.cnt.getD d 0
    if d + 1 < c.ndim then n ≠ 0 else n = 0 && c.sst.getD d 0 == 0 && c.dstr.getD d 0 == 0

/-- Bits [31:12] of CTL are zero (R237). -/
def Ccb.reservedOk (c : Ccb) : Bool := c.ctl / 2 ^ 12 = 0

/-- The constraints of PCOPYT and PCOPYR (R240, R241). -/
def Ccb.formOk (c : Ccb) (k : PumpKind) : Bool :=
  match k with
  | .copy => c.esz = 1 && c.rop = 0
  | .transpose => c.rop = 0 && 2 ≤ c.ndim && c.len0 % c.esz = 0
  | .reduce =>
    c.esz = 1 && c.rop ≤ 6 && !c.ds && c.len0 % 4 = 0 && c.dst % 4 = 0 &&
    (List.range 5).all fun d => (c.unit * c.sst.getD d 0) % 4 == 0 && (c.unit * c.dstr.getD d 0) % 4 == 0

/-- The content of a job's control block is accepted (R238). -/
def PumpJob.accepted (j : PumpJob) : Bool :=
  let c := readCcb j.ccb
  c.reservedOk && 1 ≤ c.ndim && c.ndim ≤ 6 && c.dimsOk && 1 ≤ c.len0 && c.len0 ≤ 2 ^ 24 && c.formOk j.kind &&
    !(j.regions.1.meets j.regions.2)

/-- C(d) (R239). -/
def Ccb.count (c : Ccb) (d : Nat) : Nat := if d < c.ndim then c.cnt.getD (d - 1) 1 else 1

/-- How many runs the nest has. -/
def Ccb.runs (c : Ccb) : Nat := c.count 1 * c.count 2 * c.count 3 * c.count 4 * c.count 5

/-- The indices i1 to i5 of run r, i1 changing fastest (R239). -/
def Ccb.indices (c : Ccb) (r : Nat) : List Nat :=
  let c1 := c.count 1
  let c2 := c.count 2
  let c3 := c.count 3
  let c4 := c.count 4
  [r % c1, r / c1 % c2, r / (c1 * c2) % c3, r / (c1 * c2 * c3) % c4, r / (c1 * c2 * c3 * c4)]

/-- A base with Σ i(d) × stride(d) added, over the dimensions from `from_` on, modulo 2⁶⁴. -/
def Ccb.place (c : Ccb) (base : Nat) (st : List Int) (ix : List Nat) (from_ : Nat) : Nat :=
  let off := (List.range 5).foldl (fun acc d =>
    if from_ ≤ d + 1 then acc + (ix.getD d 0 : Int) * st.getD d 0 else acc) (0 : Int)
  (((base : Int) + c.unit * off) % 2 ^ 64).toNat

/-- What a move takes from and writes to: source address, destination address, bytes at each. -/
structure Move where
  src : Nat
  dst : Nat
  srcLen : Nat
  dstLen : Nat
  deriving DecidableEq, Repr

/-- The move that a job makes at a position of its source nest, counted in bytes: within one line at each end
for a copy, one element for the other forms. -/
def PumpJob.moveAt (j : PumpJob) (pos : Nat) : Move :=
  let c := readCcb j.ccb
  let b := pos % c.len0
  let ix := c.indices (pos / c.len0)
  let s := (c.place c.src c.sst ix 1 + b) % 2 ^ 64
  match j.kind with
  | .copy =>
    let t := (c.place c.dst c.dstr ix 1 + b) % 2 ^ 64
    let m := min (min (64 - s % 64) (64 - t % 64)) (c.len0 - b)
    { src := s, dst := t, srcLen := m, dstLen := m }
  | .transpose =>
    let x := b / c.esz
    let t := c.place (c.dst + ix.getD 0 0 * c.esz) c.dstr (x :: ix.drop 1) 1
    { src := s, dst := t, srcLen := c.esz, dstLen := c.esz }
  | .reduce =>
    let z := c.srcElem
    { src := s, dst := (c.place c.dst c.dstr ix 1 + b / z * 4) % 2 ^ 64, srcLen := z, dstLen := 4 }

/-- A position of a job's source nest at which no line of it is part issued (R396): for a copy every position that a move
reaches, for the other forms the start of a run or of a line of the source. (Log 57: DEDUCED) -/
def PumpJob.atEdge (j : PumpJob) (pos : Nat) : Bool :=
  let m := j.moveAt pos
  j.kind == .copy || pos % (readCcb j.ccb).len0 == 0 || m.src % 64 < m.srcLen

/-- The lines of the nest before a position (R396, R401): those that begin from `pos` on, over a number of moves. -/
def PumpJob.linesFrom (j : PumpJob) (pos : Nat) : Nat → Nat
  | 0 => 0
  | fuel + 1 =>
    if j.done ≤ pos then 0
    else (if j.atEdge pos then 1 else 0) + j.linesFrom (pos + max 1 (j.moveAt pos).srcLen) fuel

/-- The nest position of a job's first line not issued (R396, R405), in lines. -/
def PumpJob.position (j : PumpJob) : Nat := j.linesFrom 0 j.done

/-- The byte of the source nest at which the line begins that n lines from `pos` on precede, over a number of moves. -/
def PumpJob.skipLines (j : PumpJob) (pos n : Nat) : Nat → Nat
  | 0 => pos
  | fuel + 1 =>
    if n = 0 && j.atEdge pos then pos
    else j.skipLines (pos + max 1 (j.moveAt pos).srcLen) (if j.atEdge pos then n - 1 else n) fuel

/-- The local range that a pump's address names, checked as in R217: its core and offset. -/
def State.pumpLocal (s : State) (n v size : Nat) : Act (Nat × Nat) :=
  let a := BitVec.ofNat 64 v
  let m := quadOf n * 4 + v / 2 ^ 20 % 4
  if v ≥ 2 ^ 22 then trapNow .lsrange a a
  else if (s.coreAt m).splitBusy then stall
  else if !s.inScratch m (v % 2 ^ 20) size then trapNow .lsrange a a
  else .ok (m, v % 2 ^ 20)

/-- A pump's read, within one line of a global address: another tenancy's data reads as zero, poison halts
(R239, R242). -/
def State.pumpReadGlobal (s : State) (ag : Agent) (va n : Nat) : Act (State × List Byte) :=
  match s.readSpan ag va n .plain (n / 64 + 2) with
  | .error e => .error (e.stop .read (BitVec.ofNat 64 va) false)
  | .ok (s1, bs, none) => .ok (s1, bs)
  | .ok (_, _, some line) => trapNow .poison (BitVec.ofNat 64 line) 0

def State.pumpRead (s : State) (n : Nat) (ag : Agent) (local_ : Bool) (va len : Nat) : Act (State × List Byte) := do
  if local_ then
    let (m, o) ← s.pumpLocal n va len
    let (s1, bs, poisoned) ← s.engineLoad ag.tag m o len (BitVec.ofNat 64 va)
    match poisoned with
    | none => .ok (s1, bs)
    | some line => trapNow .poison line 0
  else s.pumpReadGlobal ag va len

def State.pumpWrite (s : State) (n : Nat) (ag : Agent) (local_ : Bool) (va : Nat) (bs : List Byte) : Act State := do
  if local_ then
    let (m, o) ← s.pumpLocal n va bs.length
    let (s1, poisoned) ← s.engineStore ag.tag m o bs (BitVec.ofNat 64 va)
    match poisoned with
    | none => .ok s1
    | some line => trapNow .poison line 0
  else
    match s.writeSpan ag va bs (bs.length / 64 + 2) with
    | .ok s1 => .ok s1
    | .error e => .error (e.stop .write (BitVec.ofNat 64 va) false)

/-- The reduction of PCOPYR (R241): m in memory, v the source element. -/
def reduceElem (rop m v : Nat) : Nat :=
  match rop with
  | 0 => addF32 .rne m v
  | 1 => addF32 .rne m (convert .bf16 .f32 .rne false v)
  | 2 => (m + v) % 2 ^ 32
  | 3 => if intVal 32 m < intVal 32 v then v else m
  | 4 => if intVal 32 v < intVal 32 m then v else m
  | 5 => fmax .f32 m v
  | _ => fmin .f32 m v

/-- One indivisible update of a 32-bit element in the wellhead (R90, R306, R307). -/
def State.wellheadElem (s : State) (ag : Agent) (va : Nat) (f : Nat → Nat) : Act State :=
  match s.translate ag va .atomic .special with
  | .error e => .error (e.stop .atomic (BitVec.ofNat 64 va) false)
  | .ok (s1, l) =>
    match s1.giveUpLine l with
    | .error e => .error (e.stop .atomic (BitVec.ofNat 64 va) false)
    | .ok (s2, pa) =>
      let x := s2.rawLine pa
      if x.poison || s2.stackFailedAt l then trapNow .poison (BitVec.ofNat 64 (lineOf va)) 0
      else
        let m := if x.tag = ag.tag || isHost pa then x.data.toNat / 2 ^ (8 * (va % 64)) % 2 ^ 32 else 0
        .ok (s2.wellheadPut ag.part ag.tag l pa (va % 64) (toBytes 4 (f m)))

/-- The next move of a job on core n (or of a COPY packet, with no core): the state after it and the position
reached. -/
def State.pumpMove (s : State) (n : Nat) (core : Option Nat) (j : PumpJob) : Act (State × Nat) := do
  let c := readCcb j.ccb
  let m := j.moveAt j.done
  let ag : Agent := { part := tagPart j.tag, tag := j.tag, core := core }
  let (s1, bs) ← s.pumpRead n ag c.ss m.src m.srcLen
  let s2 ← match j.kind with
    | .reduce => s1.wellheadElem ag m.dst fun x => reduceElem c.rop x (ofBytes bs)
    | _ => s1.pumpWrite n ag c.ds m.dst bs
  .ok (s2, j.done + m.srcLen)

/-- The bytes of a job's source nest. -/
def PumpJob.total (j : PumpJob) : Nat := let c := readCcb j.ccb; c.runs * c.len0

/-- The moves of a job up to the end of a line of its nest, at most `fuel` more (R396): one that cannot be made leaves those
before it made. (Log 57: DEDUCED) -/
def State.pumpLine (s : State) (n : Nat) (core : Option Nat) (j : PumpJob) : Nat → Act (State × Nat)
  | 0 => s.pumpMove n core j
  | fuel + 1 =>
    match s.pumpMove n core j with
    | .error e => .error e
    | .ok (t, d) =>
      if j.atEdge d || j.total ≤ d then .ok (t, d)
      else
        match t.pumpLine n core { j with done := d } fuel with
        | .ok r => .ok r
        | .error _ => .ok (t, d)

/-- The code of a halt (R243). -/
def haltCode : Cause → BitVec 8
  | .xlate => 2 | .poison => 3 | .lsrange => 4 | .align => 5 | _ => 1

/-- What the head job of a channel does next. -/
inductive PumpNext where
  | idle
  | start (j : PumpJob)
  | refuse (j : PumpJob)
  | move (j : PumpJob) (s : State) (done : Nat)
  | halt (j : PumpJob) (t : Trap)
  | wait
  /-- It begins to stall on a full spill buffer, which is reported (R303). -/
  | report (s : State)
  | finish (j : PumpJob)
  | fault (f : Fault)

/-- The next thing that a job does; its last comes no sooner than 32 cycles after its issue (R236).
(Log 119: DEDUCED) -/
def State.jobNext (s : State) (n : Nat) (core : Option Nat) (clock : Nat) (j : PumpJob) : PumpNext :=
  if !j.started then
    let (r, w) := j.regions
    if !j.accepted then .refuse j
    else if core.isSome && s.jobBlocked n j.ctx j.order [r] [w] then .wait
    else .start j
  else if j.done ≥ j.total then (if j.issued + 32 ≤ clock then .finish j else .wait)
  else
    match s.pumpLine n core j 63 with
    | .ok (t, d) => .move j t d
    | .error (.trap t) => .halt j t
    | .error (.hold (.spill d page)) =>
      if (s.die d).spillStall then .wait else .report (s.spillFull (tagPart j.tag) d page)
    | .error (.hold _) => .wait
    | .error (.fault f) => .fault f

def State.pumpNext (s : State) (n ch : Nat) : PumpNext :=
  let k := s.coreAt n
  let p := k.pump ch
  if p.code ≠ 0 then .idle
  else
    match p.jobs with
    | [] => .idle
    | j :: _ => s.jobNext n (some n) k.clock j

/-- The head job of a channel replaced. -/
def State.setHeadJob (s : State) (n ch : Nat) (j : PumpJob) : State :=
  let k := s.coreAt n
  let p := k.pump ch
  s.setCoreAt n (k.setPump ch { p with jobs := j :: p.jobs.tail })

/-- An accepted job of a channel begins (R236, R238). -/
def State.channelStart (core ch : Nat) (s : State) : Host.Outcome State Fault Refusal :=
  match s.pumpNext core ch with
  | .start j => .next (s.setHeadJob core ch { j with started := true })
  | _ => .next s

/-- The head job of a channel makes its next move (R236, R239); after the last, done-below passes its identifier
and the tasks that wait for it wake. -/
def State.channelComplete (core ch : Nat) (s : State) : Host.Outcome State Fault Refusal :=
  match s.pumpNext core ch with
  | .move j t d => .next (t.setHeadJob core ch { j with done := d })
  | .report t => .next t
  | .finish j =>
    let k := s.coreAt core
    let p := k.pump ch
    let below := max (max p.below.toNat (j.id.toNat + 1)) (j.through.getD 0).toNat
    .next ((s.setCoreAt core (k.setPump ch { p with jobs := p.jobs.tail, below := BitVec.ofNat 64 below })).wakeWaitx core ch)
  | .fault f => .fault f
  | _ => .next s

/-- A channel halts (R242): it records the cause and stops; its waiters wake to trap. -/
def State.channelHalt (core ch : Nat) (s : State) : Host.Outcome State Fault Refusal :=
  let stop := fun (j : PumpJob) (code : BitVec 8) (addr info : Word) =>
    let k := s.coreAt core
    let p := k.pump ch
    let p1 := { p with code := code, failId := j.id, failAddr := addr, failInfo := info, failLaunch := j.launch }
    let s1 := s.setCoreAt core (k.setPump ch p1)
    let s2 := if code = 3 then s1.logError 6 1 false 1 core (2 ^ tagPart j.tag) addr.toNat 4 else s1
    .next (s2.wakeWaitx core ch)
  match s.pumpNext core ch with
  | .refuse j => stop j 1 j.ccbAddr 0
  | .halt j t => stop j (haltCode t.cause) t.addr t.info
  | _ => .next s

end Sys2Proof.Machine
end

