-- ==== Sys2Proof/Machine/Engines.lean ====
section
/-! DEFINITION. The other engines at work: stash fills (R288), tile fills and drains (R246, R248, R292 to R296),
range jobs and write-backs (R230, R290), reductions in the wellhead (R228, R306, R307), the volley bus (R249,
R250), and the ends of a spill stall (R303) and of a held posting (R374). -/

namespace Sys2Proof.Machine

/-- STASH_FILL (R288): an unfilled sector of an active entry is filled, where its memory can be read. -/
def execStashFill (core e sector : Nat) (s : State) : Host.Outcome State Fault Refusal :=
  let x := (s.coreAt core).stashEntry e
  if !x.active || x.size ≤ 16 * sector then .next s
  else
    match s.fillSector core e sector x.tag with
    | .ok (t, _) => .next t
    | .error (.missing pa) => .fault (.noMemory pa)
    | .error er => .next (s.noteWait (tagPart x.tag) er)

/-- The quad's name of an offset in core n's store (R7). -/
def ownAddress (n off : Nat) : Word := BitVec.ofNat 64 (memberOf n * 2 ^ 20 + off)

/-- An access of partition p that holds, a full spill buffer reported (R303). -/
def State.noteStall (s : State) (p : Nat) (h : Hold) : State :=
  match h with
  | .spill d page => s.spillFull p d page
  | _ => s

/-- The lines that a tile's elements lie in, each once, in the order of the elements (R295). -/
def Tensor.lines (x : Tensor) (t : Tile) : List Nat :=
  (x.elems t).foldl (fun acc (_, _, a) =>
    let first := lineOf (a / 2)
    let last := lineOf ((a + x.z2 - 1) / 2)
    let acc := if acc.contains first then acc else acc ++ [first]
    if acc.contains last then acc else acc ++ [last]) []

/-- The line requests of a fill: each line's bytes, under the tag rule (R295). -/
def State.tileLines (s : State) (t : Tile) : List Nat → Except TileErr (State × SMap (List Byte))
  | [] => .ok (s, [])
  | a :: rest =>
    match s.tileRead t a 64 with
    | .error e => .error e
    | .ok (s1, bs) =>
      match s1.tileLines t rest with
      | .error e => .error e
      | .ok (s2, m) => .ok (s2, SMap.set [] m a bs)

/-- The half-byte at an address in half-bytes, from lines that have been read. -/
def halfByte (m : SMap (List Byte)) (a : Nat) : Nat :=
  let b := (SMap.get [] m (lineOf (a / 2))).getD (a / 2 % 64) 0
  if a % 2 = 0 then b.toNat % 16 else b.toNat / 16

/-- The value of an element of z2 half-bytes. -/
def elementAt (m : SMap (List Byte)) (a : Nat) : Nat → Nat
  | 0 => 0
  | n + 1 => halfByte m a + 16 * elementAt m (a + 1) n

/-- Row r of a tile as the layout unit fills it: elements in the tensor, and the pad elsewhere (R295). -/
def Tensor.row (x : Tensor) (t : Tile) (m : SMap (List Byte)) (r : Nat) : List Byte :=
  let w := fmtWidth x.fmt
  toBytes 128 (packNat w x.rowLen fun j =>
    let c := t.coord r j
    if x.inside c then elementAt m (x.addr c) x.z2 else x.pad)

/-- A tile's rows as a fill would bring them in. -/
def State.tileData (s : State) (t : Tile) : Except TileErr (State × List Byte) :=
  match s.tensorOf t with
  | .error e => .error e
  | .ok (s1, x) =>
    match s1.tileLines t (x.lines t) with
    | .error e => .error e
    | .ok (s2, m) => .ok (s2, (List.range t.rows).flatMap fun r => x.row t m r)

/-- An entry whose fill or drain is over takes a fill raised meanwhile (R246). -/
def Tile.next (t : Tile) (st : TileState) : Tile :=
  match t.queued with
  | .some (o, coords) =>
    { t with st := .filling, coords := coords, order := o, queued := Option.none, volley := false, code := 0 }
  | .none => { t with st := st, volley := false }

/-- A fill or drain that is refused or faults leaves its entry empty with a code (R248); poison is reported. -/
def State.tileFails (s : State) (n e c : Nat) (addr info : Word) : State :=
  let k := s.coreAt n
  let t := k.tile e
  let s1 := s.setCoreAt n (k.setTile e { t with
    st := .empty, queued := Option.none, volley := false, code := BitVec.ofNat 8 c, faultAddr := addr, faultInfo := info })
  if c = 5 then s1.logError 6 1 false 1 n (2 ^ tagPart t.tag) addr.toNat 5 else s1

/-- A fill or drain waits for an earlier job of its task (R313). -/
def State.tileBlocked (s : State) (n : Nat) (t : Tile) : Bool :=
  let mine := localRegion n t.base (t.rows * 128)
  if t.st == .filling then s.jobBlocked n t.ctx t.order (s.tileRegion t) [mine]
  else s.jobBlocked n t.ctx t.order [mine] (s.tileRegion t)

/-- TILE_FILL_COMPLETE (R248, R292 to R296): every row lands and the entry is ready, or the fill fails. -/
def execTileFillComplete (core e : Nat) (s : State) : Host.Outcome State Fault Refusal :=
  let t := (s.coreAt core).tile e
  if t.st ≠ .filling || t.volley || s.tileBlocked core t then .next s
  else
    match s.tileData t with
    | .error (.code c addr info) => .next (s.tileFails core e c addr info)
    | .error (.wait (.missing pa)) => .fault (.noMemory pa)
    | .error (.wait er) => .next (s.noteWait (tagPart t.tag) er)
    | .ok (s1, bs) =>
      match s1.engineStore t.tag core t.base bs (ownAddress core t.base) with
      | .error (.trap tr) => .next (s.tileFails core e 4 tr.addr tr.info)
      | .error (.hold h) => .next (s.noteStall (tagPart t.tag) h)
      | .error (.fault f) => .fault f
      | .ok (s2, _) =>
        .next (s2.setCoreAt core ((s2.coreAt core).setTile e (t.next .ready)))

/-- A run of half-bytes to be written: its address in half-bytes and its values. -/
structure HalfRun where
  at_ : Nat
  vals : List Nat
  deriving DecidableEq, Repr

/-- The low half-bytes of a value. -/
def halves16 : Nat → Nat → List Nat
  | 0, _ => []
  | n + 1, v => v % 16 :: halves16 n (v / 16)

/-- The elements of a tile that a drain writes, joined where one follows another in memory (R295). -/
def Tensor.drainRuns (x : Tensor) (t : Tile) (data : List Byte) : List HalfRun :=
  let w := fmtWidth x.fmt
  let runs := (x.elems t).foldl (fun (acc : List HalfRun) (r, j, a) =>
    let row := ofBytes ((data.drop (128 * r)).take 128)
    let v := halves16 x.z2 (row / 2 ^ (w * j) % 2 ^ w)
    match acc with
    | h :: rest => if h.at_ + h.vals.length = a then { h with vals := h.vals ++ v } :: rest else { at_ := a, vals := v } :: acc
    | [] => [{ at_ := a, vals := v }]) []
  runs.reverse

/-- Half-bytes put together as bytes. -/
def joinHalves : List Nat → List Byte
  | a :: b :: rest => BitVec.ofNat 8 (a + 16 * b) :: joinHalves rest
  | [a] => [BitVec.ofNat 8 a]
  | [] => []

/-- A run written by a drain: a half-byte at either end keeps its neighbour in the byte. -/
def State.drainRun (s : State) (t : Tile) (h : HalfRun) : Except TileErr State := do
  let lead := h.at_ % 2
  let va := h.at_ / 2
  let tail := (lead + h.vals.length) % 2
  let end_ := (h.at_ + h.vals.length) / 2
  let (s1, low) ← if lead = 1 then s.tileRead t va 1 else .ok (s, [])
  let (s2, high) ← if tail = 1 then s1.tileRead t end_ 1 else .ok (s1, [])
  let front := if lead = 1 then [(low.headD 0).toNat % 16] else []
  let back := if tail = 1 then [(high.headD 0).toNat / 16] else []
  let bs := joinHalves (front ++ h.vals ++ back)
  match s2.writeSpan (tileAgent t) va bs (bs.length / 64 + 2) with
  | .ok s3 => .ok s3
  | .error (.fault code level _ _) =>
    .error (.code 4 (BitVec.ofNat 64 va) (BitVec.ofNat 64 (xlateInfo .write code level false)))
  | .error e => .error (.wait e)

/-- The rows of an entry as a drain reads them from the local store, a sector of a stash range filled first (R288);
poison ends the drain. -/
def State.tileRows (s : State) (core : Nat) (t : Tile) : Except TileErr (State × List Byte) :=
  match s.engineLoad t.tag core t.base (128 * t.rows) (ownAddress core t.base) with
  | .error (.trap tr) => .error (.code 4 tr.addr tr.info)
  | .error (.hold (.spill d page)) => .error (.wait (.spill d page))
  | .error (.hold _) => .error (.wait .wait)
  | .error (.fault (.noMemory pa)) => .error (.wait (.missing pa))
  | .ok (_, _, some line) => .error (.code 5 line 0)
  | .ok (s1, bs, none) => .ok (s1, bs)

/-- TILE_DRAIN_COMPLETE (R247, R295, R296): the elements inside the tensor are written and the entry is empty. -/
def execTileDrainComplete (core e : Nat) (s : State) : Host.Outcome State Fault Refusal :=
  let t := (s.coreAt core).tile e
  if t.st ≠ .draining || s.tileBlocked core t then .next s
  else
    let run : Except TileErr State := do
      let (s1, x) ← s.tensorOf t
      let (s2, data) ← s1.tileRows core t
      (x.drainRuns t data).foldlM (fun s h => s.drainRun t h) s2
    match run with
    | .error (.code c addr info) => .next (s.tileFails core e c addr info)
    | .error (.wait (.missing pa)) => .fault (.noMemory pa)
    | .error (.wait er) => .next (s.noteWait (tagPart t.tag) er)
    | .ok s1 =>
      let k := s1.coreAt core
      .next (s1.setCoreAt core (k.setTile e (t.next .empty)))

/-- The pages of a global range, each with the places that its lines may have: a migrating page has two (R376). -/
def State.rangePlaces (s : State) (ag : Agent) (va len : Nat) : List (Nat × Loc) :=
  let first := va / Config.pageSize
  (List.range ((va + len - 1) / Config.pageSize + 1 - first)).flatMap fun i =>
    let page := (first + i) * Config.pageSize
    match (match s.tlbFind ag page with | some w => some w | none => (s.walk ag.part page).toOption) with
    | none => []
    | some w =>
      if !s.entryValid ag.part w.level w.entry then []
      else if bits w.entry 9 7 = 4 then
        let r := s.recordAddr ag.part (bits w.entry 27 16)
        [r, r + 8].map fun a => (page, entryLoc s ag.part (first + i) 0 (s.word64 a))
      else ((leafLoc s ag.part page w).map fun l => (page, l)).toList

/-- The location of a line of memory, if it belongs to a global range as it is mapped now. -/
def State.inRange (s : State) (ag : Agent) (va len : Nat) (places : List (Nat × Loc)) (key : Nat) : Option Loc :=
  places.findSome? fun (page, l) =>
    let v := page + (key - l.addr)
    if l.addr ≤ key && key < l.addr + Config.pageSize && va ≤ v && v < va + len then
      (s.locate ag v).filter fun x => lineOf x.addr == key
    else none

/-- CDISC's effect on its whole range (R230, R305): lines go without write-back from every die cache, cache part and
stash. -/
def State.discardRange (s : State) (ag : Agent) (va len : Nat) : State :=
  let places := s.rangePlaces ag va len
  let mine := fun (a : Nat) => (s.inRange ag va len places (lineOf a)).isSome
  let drop := fun (cs : List CLine) => cs.filter fun c => !mine c.key
  (s.forgetCopies mine).dies.foldl (fun s (d, x) => s.setDie d { x with lines := drop x.lines, spill := drop x.spill })
    (s.forgetCopies mine)

/-- A held line marked clean. -/
def Die.clean (d : Die) (key : Nat) : Die :=
  let f := fun (c : CLine) => if c.key == key then { c with dirty := 0 } else c
  { d with lines := d.lines.map f, spill := d.spill.map f }

/-- The memory address of a line that die d holds: its own, or that of the frame its cistern page has been given. -/
def State.frameFor (s : State) (d key : Nat) : Option Nat := if isCistern key then (s.die d).frameOf key else some key

/-- A line that die d holds is written to its place in memory, if it is dirty and has one, and is clean (R230, R406, R438). -/
def State.cleanLine (s : State) (d : Nat) (c : CLine) : State :=
  match if c.dirty = 0 then none else s.frameFor d c.key with
  | none => s
  | some pa =>
    let w := if pa = c.key then s.writeBack c else s.sendFrame (tagPart c.tag) pa c.line
    w.setDie d ((w.die d).clean c.key)

/-- The dirty sectors of the stash copies of a line are written back; the copies stay. -/
def State.cleanCopies (s : State) (line : Nat) : Except XErr State :=
  (s.copiesOf line).foldlM (fun s (n, e, i) => s.writebackSector n e i) s

/-- CFLUSH's effect on one line (R230): what the stash has changed of it, then the held line, is written back to its frame;
with .INV every copy then goes. A line with no frame is left as it is. -/
def State.flushLine (s : State) (l : Loc) (inval : Bool) : Except XErr State := do
  let key := lineOf l.addr
  let d := l.home
  if isHost key || (s.frameFor d key).isNone then return s
  let s1 ← if inval then s.recall key else s.cleanCopies key
  match (s1.die d).find key with
  | none => return s1
  | some c => return if inval then (s1.cleanLine d c).dropLine d key else s1.cleanLine d c

/-- CFLUSH's effect on its whole range (R230). -/
def State.flushRange (s : State) (ag : Agent) (va len : Nat) (inval : Bool) : Except XErr State :=
  let places := s.rangePlaces ag va len
  let held := s.dies.flatMap fun (_, x) => (x.lines ++ x.spill).map (·.key)
  let copies := s.cores.flatMap fun (_, k) => k.stash.flatMap fun (_, e) => e.sectors.filterMap fun (_, c) => c.at_.map lineOf
  ((held ++ copies).eraseDups.filterMap (s.inRange ag va len places)).foldlM (fun s l => s.flushLine l inval) s

/-- A range job, write-back or reduction waits for an earlier job of its task (R313). -/
def State.rangeBlocked (s : State) (n : Nat) (j : Job) : Bool :=
  let w : Region := { glob := j.glob, lo := j.lo, hi := j.hi }
  let r : List Region := match j.what with
    | .writeback e _ => let y := (s.coreAt n).stashEntry e; [{ glob := false, lo := y.base, hi := y.base + y.size }]
    | _ => []
  s.jobBlocked n j.ctx j.order r [w]

/-- A job that a range event completes. -/
def Job.isRange (j : Job) : Bool := match j.what with | .reduce _ _ _ _ _ => false | _ => true

/-- ENGINE_RANGE_JOB_COMPLETE (R230, R231, R290): the oldest range or write-back job that need not wait completes, once
none of its writes has to wait. A write-back whose fault is recorded leaves its entry mapped. -/
def execEngineRangeJobComplete (core : Nat) (s : State) : Host.Outcome State Fault Refusal :=
  let k := s.coreAt core
  .next (match k.jobs.find? fun j => j.isRange && !s.rangeBlocked core j with
    | none => s
    | some j =>
      let s1 := s.setCoreAt core { k with jobs := k.jobs.erase j }
      let ag : Agent := { part := tagPart j.tag, tag := j.tag, core := some core }
      let run : Except XErr State := match j.what with
        | .discard va len => .ok (s1.discardRange ag va len)
        | .flush va len inval => s1.flushRange ag va len inval
        | .writeback e remove => do
          let s2 ← s1.writebackAll core e
          let k2 := s2.coreAt core
          .ok (if remove && (k2.stashEntry e).fault.isNone then s2.setCoreAt core (k2.setStash e Stash.none) else s2)
        | .reduce _ _ _ _ _ => .ok s
      match run with
      | .ok t => t
      | .error er => s.noteWait (tagPart j.tag) er)

/-- The operands of one line of a WATOMR: sixteen elements of its source, widened for BF16 (R228). -/
def reduceOperand (f : Fmt) (data : VBits) (i : Nat) : Nat :=
  if f == .bf16 then convert .bf16 .f32 .rne false (elem .bf16 data i) else elem f data i

/-- The update of one element by WATOMR (R228). -/
def watomrElem (op : AtomOp) (f : Fmt) (m v : Nat) : Nat :=
  let int := f == .i32
  match op with
  | .min => if int then atomNew .min .i32 m v 0 else fmin .f32 m v
  | .max => if int then atomNew .max .i32 m v 0 else fmax .f32 m v
  | _ => if int then (m + v) % 2 ^ 32 else addF32 .rne m v

/-- The sixteen elements of one line updated by the wellhead (R306, R307): a line under another tag reads as
zero, and a poisoned one stays as it is and is reported. -/
def State.reduceLine (s : State) (j : Job) (op : AtomOp) (f : Fmt) (l : Loc) (data : VBits) (va : Nat) : Except XErr State :=
  let p := tagPart j.tag
  match s.giveUpLine l with
  | .error e => .error e
  | .ok (s1, pa) =>
    let x := s1.rawLine pa
    if x.poison || s1.stackFailedAt l then .ok (s1.logError 6 1 false 3 (stackOf pa) (2 ^ p) va 3)
    else
      let bs := toBytes 64 (packNat 32 16 fun i =>
        let m := if x.tag = j.tag then x.data.toNat / 2 ^ (32 * i) % 2 ^ 32 else 0
        watomrElem op f m (reduceOperand f data i))
      .ok (s1.wellheadPut p j.tag l pa 0 bs)

/-- WELLHEAD_UPDATE (R228, R306): the next line of the oldest WATOMR is updated; after the last the job is
done. -/
def execWellheadUpdate (core : Nat) (s : State) : Host.Outcome State Fault Refusal :=
  let k := s.coreAt core
  .next (match k.jobs.find? fun j => !j.isRange && !s.rangeBlocked core j with
    | none => s
    | some j =>
      match j.what with
      | .reduce op f (l :: rest) data va =>
        let data1 := data >>> (if f == .bf16 then 256 else 512)
        let j1 := { j with what := .reduce op f rest data1 (va + 64) }
        let jobs := if rest.isEmpty then k.jobs.erase j else k.jobs.map fun y => if y == j then j1 else y
        match (s.setCoreAt core { k with jobs := jobs }).reduceLine j op f l data va with
        | .ok t => t
        | .error er => s.noteWait (tagPart j.tag) er
      | _ => s.setCoreAt core { k with jobs := k.jobs.erase j })

/-- The core that bit i of a receiver mask names (R249): none where the launch has not bound it or it lies on
another die. -/
def State.volleyCore (s : State) (n : Nat) (v : Send) (i : Nat) : Option Nat :=
  match v.launch.bind s.launch with
  | none => none
  | some l =>
    let lq := v.coreId.toNat / 4 / 8 * 8 + i / 4
    match l.quads[lq]? with
    | none => none
    | some q => let m := 4 * q + i % 4; if dieOfCore m = dieOfCore n then some m else none

/-- The oldest latch of a core that matches a send (R250). -/
def Core.matching (k : Core) (v : Send) : Option Latch :=
  k.latches.find? fun l => l.sender.toNat == v.index && l.num == v.num && l.launch == v.launch && l.tag == v.tag

/-- The check of a latch's target when the bus drives (R250): 0 where it passes. -/
def State.latchCheck (s : State) (m : Nat) (l : Latch) (bytes : Nat) : Nat :=
  match l.dest with
  | .range a =>
    if a % 64 ≠ 0 then 1
    else if a ≥ 2 ^ 22 || a / 2 ^ 20 ≠ memberOf m || !s.inScratch m (a % 2 ^ 20) bytes then 2
    else 0
  | .tile e =>
    let t := (s.coreAt m).tile e
    if t.st = .filling && t.volley && bytes ≤ 128 * t.rows then 0 else 3

/-- A latch that is over: it goes, and a tile entry that it was filling takes a state. -/
def Core.endLatch (k : Core) (l : Latch) (st : TileState) : Core :=
  let k1 := { k with latches := k.latches.erase l }
  match l.dest with
  | .tile e => let t := k1.tile e; if t.st = .filling && t.volley then k1.setTile e (t.next st) else k1
  | .range _ => k1

/-- The task that posted a latch is still there. -/
def Core.latcher (k : Core) (l : Latch) : Bool :=
  let t := k.task l.ctx
  t.st != .free && t.tag == l.tag && t.launch == l.launch

/-- A latch faults with a check (R250): its task is to trap VOLLEY, or the launch records the fault. -/
def State.latchFails (s : State) (m : Nat) (l : Latch) (chk : Nat) : State :=
  let k1 := (s.coreAt m).endLatch l .empty
  let s1 := s.setCoreAt m k1
  let info := BitVec.ofNat 64 (l.sender.toNat + l.num.toNat * 2 ^ 5 + chk * 2 ^ 13)
  if k1.latcher l then
    let t := k1.task l.ctx
    let tr : Trap := { cause := .volley, addr := 0, info := info, at_ := .firstUnissued }
    s1.setTaskAt m l.ctx { t with deferred := t.deferred ++ [(0, tr)] }
  else
    match l.launch with
    | none => s1
    | some n =>
      s1.launchError n { kind := 2, cause := 9, coreId := l.coreId.toNat, ctx := l.ctx, pc := 0, addr := 0,
                         info := info, slots := 0 }

/-- A latch takes the data, or faults, as the flag says (R250); a stash range is filled and gained first (R288, R289), and
one that cannot be fails the check of a range. (Log 122: DESIGN CHOICE) -/
def State.drive (s : State) (m : Nat) (l : Latch) (bs : List Byte) : Act (State × Bool) :=
  let chk := s.latchCheck m l bs.length
  let off := match l.dest with | .range a => a % 2 ^ 20 | .tile e => ((s.coreAt m).tile e).base
  if chk ≠ 0 then .ok (s.latchFails m l chk, false)
  else
    match s.engineStore l.tag m off bs (ownAddress m off) with
    | .error (.trap _) => .ok (s.latchFails m l 2, false)
    | .error e => .error e
    | .ok (s1, _) =>
      let k1 := (s1.coreAt m).endLatch l .ready
      let t := k1.task l.ctx
      .ok (s1.setCoreAt m (if k1.latcher l then k1.setTask l.ctx { t with vlatchLast := l.num } else k1), true)

/-- The receivers of a send: mask bit, and its core with the latch that it has posted. -/
def State.receivers (s : State) (n : Nat) (v : Send) : List (Nat × Option (Nat × Option Latch)) :=
  ((List.range 32).filter fun i => v.mask.getLsbD i).map fun i =>
    (i, (s.volleyCore n v i).map fun m => (m, (s.coreAt m).matching v))

/-- A latch's delivery waits for an earlier job of the task that posted it (R313, R315). (Log 72: DEDUCED) -/
def State.latchBlocked (s : State) (m : Nat) (l : Latch) (bytes : Nat) : Bool :=
  let w : Region := match l.dest with
    | .range a => { glob := false, lo := a, hi := (a : Int) + bytes }
    | .tile e => localRegion m ((s.coreAt m).tile e).base bytes
  s.jobBlocked m l.ctx l.order [] [w]

/-- Every named core that can receive has posted its latch (R249), and no earlier job keeps the volley waiting. -/
def State.volleyReady (s : State) (n : Nat) (v : Send) : Bool :=
  !s.jobBlocked n v.ctx v.order [localRegion n v.off (64 * v.len)] [] &&
  (s.receivers n v).all fun (_, r) =>
    match r with
    | some (_, none) => false
    | some (m, some l) => !s.latchBlocked m l (64 * v.len)
    | none => true

/-- A send is over: it goes, and its task sees its number and the receivers that faulted (R249). -/
def State.endSend (s : State) (n : Nat) (v : Send) (bad : BitVec 32) (tr : Option Trap) : State :=
  let k := s.coreAt n
  let t := k.task v.ctx
  let mine := t.st != .free && t.tag == v.tag && t.launch == v.launch
  let t1 := { t with vsendLast := v.num, volleyFault := bad, deferred := t.deferred ++ (tr.map fun x => (0, x)).toList }
  s.setCoreAt n { (if mine then k.setTask v.ctx t1 else k) with sends := k.sends.erase v }

/-- The bus drives a volley to its receivers (R249, R250). (Log 122: DESIGN CHOICE) -/
def State.driveAll (s : State) (n : Nat) (v : Send) (bs : List Byte) : Act (State × BitVec 32) :=
  (s.receivers n v).foldlM (fun (acc : State × BitVec 32) (i, r) =>
    match r with
    | some (m, some l) => do
      let (s1, ok) ← acc.1.drive m l bs
      .ok (s1, if ok then acc.2 else acc.2 ||| BitVec.ofNat 32 (2 ^ i))
    | _ => .ok (acc.1, acc.2 ||| BitVec.ofNat 32 (2 ^ i))) (s, 0)

/-- VOLLEY_DRIVE (R249, R250): the bus drives once every receiver that has not faulted has posted its latch. A source
that cannot be read reaches no receiver, and its task traps; a poisoned one is sent as zeros (R220).
(Log 122: DESIGN CHOICE) -/
def execVolleyDrive (core ctx : Nat) (s : State) : Host.Outcome State Fault Refusal :=
  match (s.coreAt core).sends.find? fun v => v.ctx == ctx with
  | none => .next s
  | some v =>
    if !s.volleyReady core v then .next s
    else
      let run : Act State := do
        let (s1, bs, poisoned) ← s.engineLoad v.tag core v.off (64 * v.len) (ownAddress core v.off)
        let (s2, bad) ← s1.driveAll core v bs
        .ok (s2.endSend core v bad (poisoned.map poisonTrap))
      match run with
      | .ok t => .next t
      | .error (.trap tr) => .next (s.endSend core v v.mask (some { tr with at_ := .firstUnissued }))
      | .error (.hold h) => .next (s.noteStall (tagPart v.tag) h)
      | .error (.fault f) => .fault f

/-- SPILL_STALL_RELEASE (R303): an entry of the spill buffer has freed. -/
def execSpillStallRelease (die : Nat) (s : State) : Host.Outcome State Fault Refusal :=
  let d := s.die die
  .next (if d.spillStall && d.spill.length < 64 then s.setDie die { d with spillStall := false } else s)

/-- Spill events of partition p that found no space are posted where there is some now (R303, R374). -/
def State.postUnposted (s : State) (p : Nat) : State :=
  s.dies.foldl (fun s (d, x) => x.unposted.foldl (fun s (q, page) => if q = p then s.postSpill p d page else s) s) s

/-- HELD_POSTING_RELEASE (R374): the oldest held posting goes to the ring once it has space, and spill events that wait
follow. -/
def execHeldPostingRelease (part : Nat) (s : State) : Host.Outcome State Fault Refusal :=
  .next (match SMap.get [] s.held part with
    | [] => s.postUnposted part
    | x :: rest =>
      if s.ringSpace part then
        let s1 : State := ({ s with held := SMap.set [] s.held part rest } : State).writePosting part x
        (if rest.isEmpty then s1.setField (partReg part 0x88) 1 1 0 else s1).postUnposted part
      else s)

end Sys2Proof.Machine
end

