-- ==== Sys2Proof/Machine/Dispatcher.lean ====
section
/-! DEFINITION. The dispatcher (R19 to R26, R352 to R364): notify writes, packet fetch, when a packet may begin,
LAUNCH with its placement, COPY, GEN, BARRIER and FENCE, and completion. -/

namespace Sys2Proof.Machine

/-- NOTIFY_WRITE (R354): a write of 4 or 8 bytes at offset 0 of a notify page of BAR2 offers a tail; while a
reset is in progress it is ignored (R427). -/
def execNotifyWrite (offset width : Nat) (value : BitVec 64) (s : State) : Host.Outcome State Fault Refusal :=
  let q := offset / 0x1000
  .next (if s.inReset || offset % 0x1000 ≠ 0 || q > 64 || !(width = 4 || width = 8) then s
    else
      let t := value.toNat % 2 ^ 32
      let h := s.field (queueReg q 0x10) 31 0
      if (t + 2 ^ 32 - h) % 2 ^ 32 ≤ 2 ^ s.field (queueReg q 8) 3 0 then s.setField (queueReg q 0x18) 31 0 t
      else s.queueError q 1 t)

/-- A queue has packets to be fetched, and room for one (R355). -/
def State.mayFetch (s : State) (q : Nat) : Bool :=
  s.field (queueReg q 8) 4 4 = 1 && s.field (queueReg q 0x10) 31 0 ≠ s.field (queueReg q 0x18) 31 0 &&
    (s.packets.filter fun k => k.q == q).length < 64

/-- The eight words of 64 bytes. -/
def wordsOf (bs : List Byte) : List Word :=
  (List.range 8).map fun i => BitVec.ofNat 64 (ofBytes ((bs.drop (8 * i)).take 8))

/-- PACKET_FETCH (R355, R356): the packet at the head is copied, or refused for its PASID. -/
def execPacketFetch (q : Nat) (s : State) : Host.Outcome State Fault Refusal :=
  .next (if !s.mayFetch q then s
    else
      let head := s.field (queueReg q 0x10) 31 0
      let cfg := queueReg q 8
      let pasid := s.field cfg 31 12
      let s1 := s.setField (queueReg q 0x10) 31 0 (head + 1)
      if s.field cfg 32 32 = 0 then s1.queueError q 0 head
      else
        let a := hostAddr pasid (s.field (queueReg q 0) 63 6 * 64 + 64 * (head % 2 ^ s.field cfg 3 0))
        let ws := wordsOf (s.rawBytes a 64)
        if bits (ws.headD 0) 51 32 ≠ pasid then s1.queueError q 0 head
        else { s1 with packets := s1.packets ++ [{ q := q, idx := head, part := s.field cfg 10 5, pasid := pasid,
                                                   words := ws, begun := false, copy := none, launch := none }] })

def Packet.word (k : Packet) (i : Nat) : Word := k.words.getD i 0
def Packet.type (k : Packet) : Nat := bits (k.word 0) 7 0
def Packet.irq (k : Packet) : Bool := (k.word 0).getLsbD 8
def Packet.waits (k : Packet) : Bool := (k.word 0).getLsbD 9
def Packet.signal (k : Packet) : Word := k.word 1
def Packet.sigval (k : Packet) : Word := k.word 2

/-- The header's reserved fields and SIGNAL's alignment (R357). -/
def Packet.headerOk (k : Packet) : Bool :=
  bits (k.word 0) 15 10 = 0 && bits (k.word 0) 31 16 = 0 && bits (k.word 0) 63 52 = 0 && k.signal.toNat % 16 = 0

/-- Words of the body, from word i on, are zero (R357). -/
def Packet.zeroFrom (k : Packet) (i : Nat) : Bool := (k.words.drop i).all fun w => w == 0

/-- The body keeps to R358. -/
def Packet.bodyOk (k : Packet) : Bool :=
  match k.type with
  | 1 => (k.word 5).toNat % 64 = 0 && k.zeroFrom 6
  | 2 => (k.word 3).toNat % 64 = 0 && 1 ≤ (k.word 4).toNat && (k.word 4).toNat ≤ 3 && k.zeroFrom 5
  | 3 => k.zeroFrom 4
  | 4 => (k.word 3).toNat ≤ 63 && k.zeroFrom 4
  | 5 => (k.word 3).toNat % 8 = 0 && (k.word 5).toNat ≤ 2 && k.zeroFrom 6
  | 6 => k.zeroFrom 3
  | _ => false

/-- The packets of a queue that have not completed, in ring order. -/
def State.queuePackets (s : State) (q : Nat) : List Packet := s.packets.filter fun k => k.q == q

/-- The packets of its queue before a packet. -/
def State.earlier (s : State) (k : Packet) : List Packet := (s.queuePackets k.q).takeWhile fun y => y.idx != k.idx

/-- A packet's place in its queue lets it begin (R357, R359): those before it have begun, no BARRIER, FENCE or GEN
of them is incomplete, and with WAIT, or in a FENCE, none of them is. -/
def State.ordered (s : State) (k : Packet) : Bool :=
  let before := s.earlier k
  before.all (fun y => y.begun && y.type < 4) && (before.isEmpty || !(k.waits || k.type = 6))

/-- A packet that is ready to begin (R364, R390). -/
def State.readyToBegin (s : State) (k : Packet) : Bool :=
  !k.begun && s.ordered k && !(s.ten k.part).closed

/-- Partition p holds a slice on some quad (R364). -/
def State.holdsSlice (s : State) (p : Nat) : Bool :=
  s.slices.any fun (_, x) => match x with | some y => y.part == p && y.quiesce.isNone | none => false

/-- PRIO and WEIGHT of a queue under the policy table that the partition's slice read (R364). -/
def State.policyOf (s : State) (p q : Nat) : Nat × Nat := (SMap.get [] s.policy p)[q]?.getD (0, 1)

/-- The queues of a partition with a packet ready to begin. -/
def State.readyQueues (s : State) (p : Nat) : List Nat :=
  (List.range 65).filter fun q => s.packets.any fun k => k.q == q && k.part == p && s.readyToBegin k

/-- The queue whose packet begins next (R364): queue 64 first; then the highest PRIO, by weighted round-robin in
ascending queue number among those of that PRIO. -/
def State.chosenQueue (s : State) (p : Nat) : Option Nat :=
  let ready := s.readyQueues p
  if ready.contains 64 then some 64
  else
    let fit := ready.filter fun q => (s.policyOf p q).2 ≠ 0
    let best := fit.foldl (fun m q => max m (s.policyOf p q).1) 0
    let top := fit.filter fun q => (s.policyOf p q).1 == best
    let (last, n) := SMap.get (64, 0) s.served (4 * p + best)
    if top.contains last && n < (s.policyOf p last).2 then some last
    else
      match top.find? fun q => last < q with
      | some q => some q
      | none => top.head?

/-- The first packet of a queue that has not begun. -/
def State.nextPacket (s : State) (q : Nat) : Option Packet := (s.queuePackets q).find? fun k => !k.begun

/-- The packet that partition p begins next, if it holds a slice. -/
def State.toBegin (s : State) (p : Nat) : Option Packet :=
  if !s.holdsSlice p then none
  else
    match s.chosenQueue p with
    | some q => match s.nextPacket q with
      | some k => if k.part = p && s.readyToBegin k then some k else none
      | none => none
    | none => none

def State.setPacket (s : State) (k : Packet) : State :=
  { s with packets := s.packets.map fun y => if y.q == k.q && y.idx == k.idx then k else y }

def State.packetAt (s : State) (q idx : Nat) : Option Packet := s.packets.find? fun k => k.q == q && k.idx == idx

/-- The packet begins: its queue has been served once more in its turn, or begins a turn (R364). -/
def State.begin (s : State) (k : Packet) : State :=
  let turn := 4 * k.part + (s.policyOf k.part k.q).1
  let (last, n) := SMap.get (64, 0) s.served turn
  let goesOn := last = k.q && n < (s.policyOf k.part k.q).2
  let s1 : State := if k.q = 64 then s
    else { s with served := SMap.set (64, 0) s.served turn (k.q, if goesOn then n + 1 else 1) }
  s1.setPacket { k with begun := true }

/-- COMPLETION_SIGNAL (R360): the two words under the partition's current tag, then the interrupt. Words that are
misaligned, that meet a fault or that are dropped on a poisoned line could not be written; where a write waits, nothing
has happened yet. -/
def State.signal (s : State) (p q idx : Nat) (signal sigval : Word) (irq : Bool) (code detail hi : Nat) : Tried Unit :=
  let status := code + detail % 256 * 2 ^ 8 + hi % 2 ^ 16 * 2 ^ 16 + idx % 2 ^ 32 * 2 ^ 32
  let ag := s.partAgent p
  let finish := fun (t : State) => Tried.done (if irq then t.queueEvent q 0 else t) ()
  if signal = 0 then finish s
  else if signal.toNat % 16 ≠ 0 then finish (s.queueError q 2 idx)
  else
    match s.tryWrite ag signal.toNat (toBytes 8 status) with
    | .wait t => .wait t
    | .fails => finish (s.queueError q 2 idx)
    | .done s1 _ =>
      match s1.tryWrite ag (signal + 8).toNat (toBytes 8 sigval.toNat) with
      | .wait _ => .wait s
      | .fails => finish (s.queueError q 2 idx)
      | .done s2 _ => finish (if s.poisonedAt ag signal.toNat then s2.queueError q 2 idx else s2)

/-- A packet completes with a status code, a detail and bits [31:16] of its status word (R360); one whose signal has to
wait stays until it is written. (Log 49: DEDUCED) -/
def State.completePacket (s : State) (k : Packet) (code detail hi : Nat) : State :=
  match s.signal k.part k.q k.idx k.signal k.sigval k.irq code detail hi with
  | .done s1 _ => { s1 with packets := s1.packets.filter fun y => !(y.q == k.q && y.idx == k.idx) }
  | .wait t => t.setPacket { k with begun := true, outcome := some (code, detail, hi) }
  | .fails => s

/-- Writes that the dispatcher still owes are made where they need not wait any more: launch error records (R361), then
the signals of packets that have ended (R360). -/
def State.payOwed (s : State) : State :=
  let s1 := s.launches.foldl (fun s (n, l) => match l with
    | some l => if l.unwritten.isEmpty then s else s.writeErrors n l.unwritten.length
    | none => s) s
  s1.packets.foldl (fun s k => match k.outcome with
    | some (code, detail, hi) => s.completePacket k code detail hi
    | none => s) s1

/-- What a read by the dispatcher gives: bytes, the PST.CODE of what stopped it, or a wait. -/
inductive DispRead where
  | ok (s : State) (bs : List Byte)
  | fails (code : Nat)
  | wait (s : State)

/-- A read under a partition's translation and current tag (R358). -/
def State.dispRead (s : State) (p va n : Nat) : DispRead :=
  match s.readSpan (s.partAgent p) va n .plain (n / 64 + 2) with
  | .ok (s1, bs, none) => .ok s1 bs
  | .ok (_, _, some _) => .fails 3
  | .error (.fault _ _ _ _) => .fails 2
  | .error e => .wait (s.noteWait p e)

/-- A kernel image header (R19). -/
structure Header where
  quads : Nat
  codeOff : Nat
  codeSize : Nat
  placeOff : Nat
  placeCnt : Nat
  spacing : Nat
  liveOff : Nat
  liveCnt : Nat
  tensOff : Nat
  tensCnt : Nat
  ok : Bool
  deriving DecidableEq, Repr

/-- The header in its 64 bytes; `ok` is what R21 asks of it, with `owned` the quads of the partition. -/
def readHeader (bs : List Byte) (owned : Nat) : Header :=
  let at_ := fun (off len : Nat) => ofBytes ((bs.drop off).take len)
  let h : Header := { quads := at_ 6 2, codeOff := at_ 8 4, codeSize := at_ 0x0C 4, placeOff := at_ 0x10 4,
                      placeCnt := at_ 0x14 2, spacing := at_ 0x16 2, liveOff := at_ 0x18 4, liveCnt := at_ 0x1C 4,
                      tensOff := at_ 0x20 4, tensCnt := at_ 0x24 4, ok := true }
  { h with ok := at_ 0 4 = 0x494B4E47 && at_ 4 2 = 1 && 1 ≤ h.quads && h.quads ≤ 64 && h.quads ≤ owned &&
      h.codeOff % 64 = 0 && h.codeSize % 64 = 0 && h.codeSize ≠ 0 && h.placeOff % 8 = 0 && 1 ≤ h.placeCnt &&
      h.placeCnt ≤ 4096 && h.liveCnt ≤ 2 ^ 22 && 1 ≤ h.spacing && h.spacing ≤ 40000 && at_ 0x28 24 = 0 }

/-- The context that a placement entry names: LQUAD, MEMBER and CTX (R20). -/
def placeKey (w : Word) : Nat := bits w 11 0

/-- A placement entry keeps to R20 and R21. -/
def placeOk (h : Header) (w : Word) : Bool :=
  bits w 5 0 < h.quads && bits w 15 14 = 0 && bits w 47 16 % 64 = 0 && bits w 47 16 < h.codeSize

/-- No two entries name one context (R21). -/
def placesDistinct : List Word → Bool
  | [] => true
  | w :: ws => ws.all (fun v => placeKey v != placeKey w) && placesDistinct ws

/-- The quads of a partition that can be bound, in ascending order (R22); those of a failed die cannot (R428).
(Log 123: DESIGN CHOICE) -/
def State.ownedQuads (s : State) (p : Nat) : List Nat :=
  (List.range 64).filter fun n => s.field (partReg p 0) n n = 1 && s.field (resetReg 0x20) (24 + n / 8) (24 + n / 8) = 0

/-- The dies of these quads are READY; a launch that names others waits to begin (R428). -/
def State.quadsReady (s : State) (quads : List Nat) : Bool :=
  quads.all fun q => s.field (resetReg 0x10) (25 + q / 8) (25 + q / 8) = 1

/-- What comes of an image (R19, R21): it is refused, cannot be read, must be read again, or is ready to bind. -/
inductive ImageRead where
  | refused
  | fails (code : Nat)
  | wait (s : State)
  | ok (s : State) (h : Header) (places : List Word)

/-- A kernel image read and checked for partition p (R19 to R21); QUADS is held against the quads that can be bound.
(Log 123: DESIGN CHOICE) -/
def State.readImage (s : State) (p : Nat) (base : Word) : ImageRead :=
  if base.toNat % 64 ≠ 0 then .refused
  else
    match s.dispRead p base.toNat 64 with
    | .fails c => .fails c
    | .wait t => .wait t
    | .ok s1 bs =>
      let h := readHeader bs (s.ownedQuads p).length
      if !h.ok then .refused
      else
        match s1.dispRead p (base + BitVec.ofNat 64 h.placeOff).toNat (8 * h.placeCnt) with
        | .fails c => .fails c
        | .wait t => .wait t
        | .ok s2 ps =>
          let places := (List.range h.placeCnt).map fun i => BitVec.ofNat 64 (ofBytes ((ps.drop (8 * i)).take 8))
          if places.all (placeOk h) && placesDistinct places then .ok s2 h places else .refused

/-- The launch of an image: bound to the first quads that its partition owns (R22). -/
def Launch.of (h : Header) (places : List Word) (p q idx : Nat) (signal sigval : Word) (irq : Bool) (base arg err : Word)
    (quads : List Nat) (priv : Bool) (tag : Tag) (rally : Bool) : Launch :=
  { part := p, q := q, idx := idx, signal := signal, sigval := sigval, irq := irq, base := base,
    codeOff := BitVec.ofNat 64 h.codeOff, codeSize := BitVec.ofNat 64 h.codeSize, liveOff := BitVec.ofNat 64 h.liveOff,
    liveCnt := h.liveCnt, tensOff := BitVec.ofNat 64 h.tensOff, tensCnt := h.tensCnt, spacing := h.spacing, arg := arg,
    err := err, quads := quads.take h.quads, waiting := places, priv := priv, halt := none, errors := 0, tag := tag,
    rally := rally, extra := [] }

/-- LAUNCH (R19 to R22, R358): the image is checked and bound; its tasks start as their contexts are free. A
packet whose TYPE is none of R357 is refused here. (Log 50: DEDUCED) -/
def execLaunch (q idx : Nat) (s : State) : Host.Outcome State Fault Refusal :=
  .next (match s.packetAt q idx with
    | none => s
    | some k =>
      if (2 ≤ k.type && k.type ≤ 6) || s.toBegin k.part != some k then s
      else
        let s1 := s.begin k
        if !k.headerOk || !k.bodyOk then s1.completePacket k 4 0 0
        else
          match s1.readImage k.part (k.word 3) with
          | .refused => s1.completePacket k 3 0 0
          | .fails c => s1.completePacket k 6 c 0
          | .wait _ => s
          | .ok s2 h places =>
            let l := Launch.of h places k.part q idx k.signal k.sigval k.irq (k.word 3) (k.word 4) (k.word 5)
              (s2.ownedQuads k.part) (q = 64) (s2.curTag k.part) false
            let n := s2.nextLaunch
            if !s2.quadsReady l.quads then s
            else ({ s2 with nextLaunch := n + 1 } : State).setLaunch n (some l) |>.setPacket
              { k with begun := true, launch := some n })

/-- Partition p may start tasks on a quad: it holds the quad's slice, and no pre-emption is asked of it. -/
def State.onSlice (s : State) (p quad : Nat) : Bool :=
  match SMap.get none s.slices quad with
  | some x => x.part == p && x.quiesce.isNone
  | none => false

/-- The physical core and context of a placement entry of a launch. -/
def Launch.target (l : Launch) (w : Word) : Option (Nat × Nat) :=
  (l.quads[bits w 5 0]?).map fun quad => (4 * quad + bits w 7 6, bits w 11 8)

/-- Element i of a list left out. -/
def dropAt {α : Type} (i : Nat) (xs : List α) : List α := xs.take i ++ xs.drop (i + 1)

/-- The registers that a rally entry gives its tasks (R327). -/
def Task.withExtra (t : Task) (ws : List Word) : Task :=
  match ws with
  | [a1, a2, s2, s3] => (((t.setScalar (.a 1) a1).setScalar (.a 2) a2).setScalar (.s 2) s2).setScalar (.s 3) s3
  | _ => t

/-- PLACEMENT_START (R24, R25): the task of a waiting placement entry starts once its context is free. -/
def execPlacementStart (launch entry : Nat) (s : State) : Host.Outcome State Fault Refusal :=
  .next (match s.launch launch with
    | none => s
    | some l =>
      match l.waiting[entry]? with
      | none => s
      | some w =>
        match l.target w with
        | none => s
        | some (n, x) =>
          let s := s.catchUp n
          let k := s.coreAt n
          if (k.task x).st ≠ .free || !s.onSlice l.part (quadOf n) then s
          else
            let start := l.base + l.codeOff + BitVec.ofNat 64 (bits w 47 16)
            let rally := if l.rally then some (l.part, l.idx) else none
            let t := Task.start k.clock start (BitVec.ofNat 64 (bits w 63 48)) l.arg (BitVec.ofNat 2 (bits w 13 12)) l.tag l.priv
              (BitVec.ofNat 8 (4 * bits w 5 0 + bits w 7 6)) (some launch) rally
            ((s.setCoreAt n ((k.heal 1 x).setTask x (t.withExtra l.extra))).challenge n x).setLaunch launch (some { l with waiting := dropAt entry l.waiting }))

/-- A task of a launch is running, or saved. -/
def State.launchTasks (s : State) (n : Nat) : Bool :=
  s.tasks.any (fun (_, _, t) => t.st != .free && t.launch == some n) ||
  s.saved.any fun (_, x) => match x with
    | some y => y.tasks.any fun (_, _, t) => t.launch == some n
    | none => false

/-- A channel that a job of launch n has halted. -/
def Pump.haltedBy (p : Pump) (n : Nat) : Bool := p.code != 0 && p.failLaunch == some n

/-- The channels that jobs of a launch have halted, as (core, channel), on a core or saved from it. -/
def State.haltedBy (s : State) (n : Nat) : List (Nat × Nat) :=
  (s.cores.flatMap fun (c, k) => (k.pumps.filter fun (_, p) => p.haltedBy n).map fun (ch, _) => (c, ch)) ++
  s.saved.flatMap fun (_, x) => match x with
    | some r => (r.pumps.filter fun c => c.pump.haltedBy n).map fun c => (c.core, c.ch)
    | none => []

/-- An engine job or a posted store of a launch is outstanding (R26, R235). -/
def State.launchJobs (s : State) (n : Nat) : Bool :=
  let mine := fun (l : Option Nat) => l == some n
  s.cores.any (fun (_, k) =>
    k.pumps.any (fun (_, p) => p.jobs.any fun j => mine j.launch) ||
    k.tiles.any (fun (_, t) => mine t.launch && (t.st == .filling || t.st == .draining)) ||
    k.jobs.any (fun j => mine j.launch) || k.sends.any (fun v => mine v.launch) || k.latches.any fun l => mine l.launch) ||
  s.gse.any (fun (_, g) => g.slots.any fun (_, q) => match q with | some q => q.running && mine q.launch | none => false) ||
  s.remotes.any (fun (_, r) => match r with | some r => mine r.launch | none => false) ||
  s.saved.any fun (_, x) => match x with
    | some y => y.pumps.any (fun p => p.pump.jobs.any fun j => mine j.launch) || y.sends.any (fun v => mine v.2.launch) ||
        y.latches.any (fun l => mine l.2.launch) ||
        y.tiles.any fun t => mine t.2.2.launch && t.2.2.st == .filling
    | none => false

/-- CORE.ID of a physical core in a launch (R23). -/
def Launch.coreIdOf (l : Launch) (core : Nat) : Nat :=
  match l.quads.findIdx? fun q => q == quadOf core with
  | some i => 4 * i + memberOf core
  | none => 0

/-- A channel that a job of launch n halted is cleared as by PSTAT.CLR, with an error of KIND 4 (R26, R361). -/
def State.clearHalted (s : State) (n : Nat) (at_ : Nat × Nat) : State :=
  let (core, ch) := at_
  let k := s.coreAt core
  let clearSaved := fun (r : Saved) => { r with
    pumps := r.pumps.map fun c => if c.core = core && c.ch = ch && c.pump.haltedBy n then { c with pump := c.pump.clearHalt } else c }
  let kept := (s.saved.findSome? fun (_, x) => x.bind fun r =>
    r.pumps.find? fun c => c.core == core && c.ch == ch && c.pump.haltedBy n).map (·.pump)
  let p := kept.getD (k.pump ch)
  let s1 : State := if kept.isSome then { s with saved := s.saved.map fun (i, x) => (i, x.map clearSaved) }
    else s.setCoreAt core (k.setPump ch p.clearHalt)
  match s.launch n with
  | none => s1
  | some l => s1.launchError n { kind := 4, cause := p.code.toNat, coreId := l.coreIdOf core, ctx := ch, pc := 0,
                                 addr := p.failAddr, info := p.failId, slots := 0 }

/-- Everything of launch n is over (R26), and its errors are recorded. -/
def State.launchOver (s : State) (n : Nat) : Bool :=
  match s.launch n with
  | some l => l.waiting.isEmpty && !s.launchTasks n && !s.launchJobs n && (s.haltedBy n).isEmpty && l.unwritten.isEmpty
  | none => false

/-- The channels that a launch left halted are cleared once its tasks are gone (R26). -/
def State.settleLaunch (s : State) (n : Nat) : State :=
  match s.launch n with
  | some l =>
    if l.waiting.isEmpty && !s.launchTasks n then (s.haltedBy n).foldl (fun s at_ => s.clearHalted n at_) s else s
  | none => s

/-- LAUNCH_COMPLETE (R26, R360): the completion of a launch that a packet started. -/
def execLaunchComplete (launch : Nat) (s : State) : Host.Outcome State Fault Refusal :=
  let s1 := s.settleLaunch launch
  .next (match s1.launch launch with
    | none => s
    | some l =>
      if l.rally || !s1.launchOver launch then s1
      else
        match s1.packetAt l.q l.idx with
        | none => s1.setLaunch launch none
        | some k =>
          let (code, hi) := if l.errors > 0 then (2, 0)
            else match l.halt with
              | some h => (1, h.toNat)
              | none => (0, 0)
          (s1.completePacket k code 0 hi).setLaunch launch none)

/-- COPY (R358): the control block is read and checked; the job then runs as a pump's. (Log 56: DESIGN CHOICE) -/
def execCopy (q idx : Nat) (s : State) : Host.Outcome State Fault Refusal :=
  .next (match s.packetAt q idx with
    | none => s
    | some k =>
      if k.type ≠ 2 || s.toBegin k.part != some k then s
      else
        let s1 := s.begin k
        if !k.headerOk || !k.bodyOk then s1.completePacket k 4 0 0
        else
          match s1.dispRead k.part (k.word 3).toNat 64 with
          | .fails c => s1.completePacket k 6 c 0
          | .wait _ => s
          | .ok s2 bs =>
            let kind := match (k.word 4).toNat with | 1 => PumpKind.copy | 2 => .transpose | _ => .reduce
            let j : PumpJob := { id := 0, kind := kind, ccbAddr := k.word 3, ccb := bytesToLine bs,
                                 tag := s2.curTag k.part, ctx := 0, launch := none, issued := 0, started := true, done := 0, order := 0 }
            let c := readCcb j.ccb
            if c.ss || c.ds || !j.accepted then s2.completePacket k 8 0 0
            else s2.setPacket { k with begun := true, copy := some j })

/-- The jobs of COPY packets stand beside the channels: "core" 256 + q, "channel" the packet's index.
(Log 56: DESIGN CHOICE) -/
def State.copyNext (s : State) (q idx : Nat) : Option (Packet × PumpNext) :=
  match s.packetAt q idx with
  | some k =>
    match k.copy, k.outcome with
    | some j, none => some (k, s.jobNext 0 none 32 j)
    | _, _ => none
  | none => none

/-- PUMP_JOB_START (R236, R238). -/
def execPumpJobStart (core ch : Nat) (s : State) : Host.Outcome State Fault Refusal :=
  if core < 256 then State.channelStart core ch s else .next s

/-- PUMP_JOB_COMPLETE (R236, R239, R358, R360): a move of a job, or its completion. (Log 54: DESIGN CHOICE) -/
def execPumpJobComplete (core ch : Nat) (s : State) : Host.Outcome State Fault Refusal :=
  if core < 256 then State.channelComplete core ch s
  else
    match s.copyNext (core - 256) ch with
    | some (k, .move j t d) => .next (t.setPacket { k with copy := some { j with done := d } })
    | some (_, .report t) => .next t
    | some (k, .finish _) => .next (s.completePacket k 0 0 0)
    | some (_, .fault f) => .fault f
    | _ => .next s

/-- PUMP_JOB_HALT (R242, R358): a COPY that faults completes with status FAULT. -/
def execPumpJobHalt (core ch : Nat) (s : State) : Host.Outcome State Fault Refusal :=
  if core < 256 then State.channelHalt core ch s
  else
    match s.copyNext (core - 256) ch with
    | some (k, .halt _ t) =>
      let code := (haltCode t.cause).toNat
      let s1 := if code = 3 then
          let stack := match s.translate (s.partAgent k.part) t.addr.toNat .read .plain with
            | .ok (_, l) => stackOf l.addr
            | .error _ => 0
          s.logError 6 1 false 3 stack (2 ^ k.part) t.addr.toNat 4
        else s
      .next (s1.completePacket k 6 code 0)
    | _ => .next s

/-- GEN (R358, R389, R390): accepted on queue 64 alone; it completes when the generation has stepped.
(Log 51: DEDUCED) -/
def execGen (q idx : Nat) (s : State) : Host.Outcome State Fault Refusal :=
  .next (match s.packetAt q idx with
    | none => s
    | some k =>
      let p := (k.word 3).toNat
      let finish := fun (s : State) => if (s.ten p).closed then s else s.completePacket k 0 0 (s.curTag p).toNat
      if k.type ≠ 4 then s
      else if k.begun then (if k.outcome.isSome then s else finish s)
      else if s.toBegin k.part != some k then s
      else
        let s1 := s.begin k
        if !k.headerOk || !k.bodyOk then s1.completePacket k 4 0 0
        else if q ≠ 64 then s1.completePacket k 5 0 0
        else finish (s1.endTenancyOf p))

/-- A read of a BARRIER's word: it completes where the condition holds, or with FAULT. -/
def State.rereadBarrier (s : State) (k : Packet) : State :=
  match s.dispRead k.part (k.word 3).toNat 8 with
  | .fails c => s.completePacket k 6 c 0
  | .wait _ => s
  | .ok s1 bs => if k.meets (ofBytes bs) then s1.completePacket k 0 0 0 else s1

/-- BARRIER (R358): its first read; one that has to wait keeps the packet from beginning. -/
def execBarrier (q idx : Nat) (s : State) : Host.Outcome State Fault Refusal :=
  .next (match s.packetAt q idx with
    | none => s
    | some k =>
      if k.type ≠ 5 || s.toBegin k.part != some k then s
      else
        let s1 := s.begin k
        if !k.headerOk || !k.bodyOk then s1.completePacket k 4 0 0
        else
          match s1.dispRead k.part (k.word 3).toNat 8 with
          | .wait _ => s
          | _ => s1.rereadBarrier { k with begun := true })

/-- BARRIER_CONDITION_MET (R358): a reread after a write to the word's line has met the condition. -/
def execBarrierConditionMet (q idx : Nat) (s : State) : Host.Outcome State Fault Refusal :=
  .next (match s.packetAt q idx with
    | none => s
    | some k => if k.isBarrier && k.met && k.outcome.isNone then s.completePacket k 0 0 0 else s)

/-- HOST_WORD_POLL (R443): a wait on a word of host memory reads it again. -/
def execHostWordPoll (w : Waiter) (s : State) : Host.Outcome State Fault Refusal :=
  .next (match w with
    | .task core ctx =>
      let t := s.taskAt core ctx
      match t.st with
      | .parked (.word va v) =>
        match s.peek { part := tagPart t.tag, tag := t.tag, core := some core } va.toNat with
        | some (w, .host _) => if w ≠ v then s.wake core ctx else s
        | _ => s
      | _ => s
    | .packet q idx =>
      match s.packetAt q idx with
      | none => s
      | some k => if k.isBarrier && k.outcome.isNone then s.rereadBarrier k else s)

/-- FENCE (R358): it begins and completes once every earlier packet of its queue has completed. -/
def execFence (q idx : Nat) (s : State) : Host.Outcome State Fault Refusal :=
  .next (match s.packetAt q idx with
    | none => s
    | some k =>
      if k.type ≠ 6 || s.toBegin k.part != some k then s
      else (s.begin k).completePacket k (if k.headerOk && k.bodyOk then 0 else 4) 0 0)

end Sys2Proof.Machine
end

