-- ==== Sys2Proof/Machine/Rallies.lean ====
section
/-! DEFINITION. Rally tables (R321 to R335): loading a table image, starting and completing entries, bubbles, the
trace ring, and increments that are not answered in time. -/

namespace Sys2Proof.Machine

/-- A ring of slots in a header, from its base, slot size and count (R322). -/
def readRing (bs : List Byte) (off : Nat) : Ring :=
  let at_ := fun (o len : Nat) => ofBytes ((bs.drop (off + o)).take len)
  { base := BitVec.ofNat 64 (at_ 0 8), slot := at_ 8 4, cnt := at_ 0x0C 4 }

/-- A ring keeps to R322. -/
def Ring.ok (r : Ring) : Bool :=
  if r.cnt = 0 then r.base = 0 && r.slot = 0
  else r.cnt ≤ 65535 && r.base.toNat % 64 = 0 && r.slot % 64 = 0 && 64 ≤ r.slot && r.slot ≤ 16777216

/-- An entry of a table image (R323), and whether its reserved bytes are zero. -/
def readEntry (bs : List Byte) : RallyEntry × Bool :=
  let at_ := fun (o len : Nat) => ofBytes ((bs.drop o).take len)
  ({ kind := at_ 0 1, nin := at_ 1 1, nout := at_ 2 1, mb := at_ 4 4, image := BitVec.ofNat 64 (at_ 8 8),
     arg := BitVec.ofNat 64 (at_ 0x10 8) }, at_ 3 1 = 0 && at_ 0x18 8 = 0)

/-- A table image as its header gives it; the counts are those that a reset gives (R322, R324). -/
def readTable (bs : List Byte) (entries : List RallyEntry) (priv : Bool) (tag : Tag) : Rally :=
  let at_ := fun (o len : Nat) => ofBytes ((bs.drop o).take len)
  { Rally.none with
    tag := tag, priv := priv, entries := entries, st := 1, stashLim := at_ 0x0C 4,
    dnNode := BitVec.ofNat 64 (at_ 0x10 8), upNode := BitVec.ofNat 64 (at_ 0x18 8), fin := readRing bs 0x20,
    bin := readRing bs 0x30, dn := readRing bs 0x40, up := readRing bs 0x50, trBase := BitVec.ofNat 64 (at_ 0x60 8),
    trLen := at_ 0x68 4, errRec := BitVec.ofNat 64 (at_ 0x70 8), freeDn := (readRing bs 0x40).cnt,
    freeUp := (readRing bs 0x50).cnt }

/-- The inbox and the output ring of an entry, with the neighbour it writes to. -/
def Rally.inbox (r : Rally) (e : RallyEntry) : Ring := match e.kind with | 0 => r.fin | 1 => r.bin | _ => Ring.none
def Rally.outbox (r : Rally) (e : RallyEntry) : Ring := match e.kind with | 0 => r.dn | 1 => r.up | _ => Ring.none
def Rally.peer (r : Rally) (e : RallyEntry) : Word := match e.kind with | 0 => r.dnNode | 1 => r.upNode | _ => 0

/-- An entry keeps to R324. -/
def Rally.entryOk (r : Rally) (e : RallyEntry) : Bool :=
  e.kind ≤ 2 && (e.nin = 0 || e.nin ≤ (r.inbox e).cnt) && (e.nout = 0 || (present (r.peer e) && e.nout ≤ (r.outbox e).cnt))

/-- A power of two from 1 to 65,536. -/
def powerOfTwo (n : Nat) : Bool := (List.range 17).any fun i => n == 2 ^ i

/-- A header keeps to R322. -/
def headerOk (bs : List Byte) (r : Rally) : Bool :=
  let at_ := fun (o len : Nat) => ofBytes ((bs.drop o).take len)
  at_ 0 4 = 0x54524E47 && at_ 4 2 = 1 && 1 ≤ at_ 6 2 && at_ 6 2 ≤ 256 && at_ 8 4 < 2 && 1 ≤ r.stashLim && r.stashLim ≤ 65535 &&
    bits r.dnNode 63 17 = 0 && bits r.upNode 63 17 = 0 && r.fin.ok && r.bin.ok && r.dn.ok && r.up.ok &&
    r.trBase.toNat % 64 = 0 && (if r.trBase = 0 then r.trLen = 0 else powerOfTwo r.trLen) && at_ 0x6C 4 = 0 &&
    r.errRec.toNat % 64 = 0 && at_ 0x78 8 = 0

/-- A loaded table without RESET keeps the counts of the one before it (R324). -/
def Rally.keepCounts (new old : Rally) : Rally :=
  { new with fillF := old.fillF, fillB := old.fillB, freeDn := old.freeDn, freeUp := old.freeUp, rdF := old.rdF,
             rdB := old.rdB, wrDn := old.wrDn, wrUp := old.wrUp, stash := old.stash, bubbles := old.bubbles,
             errs := old.errs, errEntry := old.errEntry, traced := old.traced, was := old.bubbles }

/-- RALLY_LOAD (R322 to R325). -/
def execRallyLoad (q idx : Nat) (s : State) : Host.Outcome State Fault Refusal :=
  .next (match s.packetAt q idx with
    | none => s
    | some k =>
      if k.type ≠ 3 || s.toBegin k.part != some k then s
      else
        let s1 := s.begin k
        let a := (k.word 3).toNat
        if !k.headerOk || !k.bodyOk then s1.completePacket k 4 0 0
        else if a % 64 ≠ 0 then s1.completePacket k 7 0 0
        else
          match s1.dispRead k.part a 128 with
          | .fails c => s1.completePacket k 6 c 0
          | .wait _ => s
          | .ok s2 bs =>
            let n := ofBytes ((bs.drop 6).take 2)
            if n = 0 || n > 256 then s2.completePacket k 7 0 0
            else
              match s2.dispRead k.part (a + 128) (32 * n) with
              | .fails c => s2.completePacket k 6 c 0
              | .wait _ => s
              | .ok s3 es =>
                let entries := (List.range n).map fun i => readEntry ((es.drop (32 * i)).take 32)
                let new := readTable bs (entries.map (·.1)) (q = 64) (s3.curTag k.part)
                let old := s3.rallyOf k.part
                if !headerOk bs new || !entries.all (fun e => e.2 && new.entryOk e.1) || old.st = 1 || old.st = 2 then
                  s3.completePacket k 7 0 0
                else
                  let reset := ofBytes ((bs.drop 8).take 4) % 2 = 1
                  (s3.setRally k.part (if reset then new else new.keepCounts old)).completePacket k 0 0 0)

/-- Why the head does not start (R326): 0 where it may; 1 input, 2 space, 3 stash. -/
def Rally.cause (r : Rally) : Nat :=
  match r.entries[r.head]? with
  | .none => 0
  | .some e =>
    let fill := match e.kind with | 0 => r.fillF | 1 => r.fillB | _ => e.nin
    let free := match e.kind with | 0 => r.freeDn | 1 => r.freeUp | _ => e.nout
    if fill < e.nin then 1 else if free < e.nout then 2 else if e.kind = 0 && r.stash ≥ r.stashLim then 3 else 0

/-- The registers of R327: a1, a2, s2 and s3. -/
def Rally.registers (r : Rally) (e : RallyEntry) : List Word :=
  let rd := match e.kind with | 0 => r.rdF | _ => r.rdB
  let wr := match e.kind with | 0 => r.wrDn | _ => r.wrUp
  let i := r.inbox e
  let o := r.outbox e
  [if e.nin = 0 then 0 else i.base + BitVec.ofNat 64 (rd * i.slot),
   if e.nout = 0 then 0 else o.base + BitVec.ofNat 64 (wr * o.slot),
   BitVec.ofNat 64 e.mb,
   if e.nout = 0 then 0 else (r.peer e) &&& 0xFFFF]

/-- An entry whose image is refused or cannot be read stops its table, once its error record is written or cannot be
(R327). (Log 52: DEDUCED) -/
def State.entryRefused (s : State) (p : Nat) : State :=
  let r := s.rallyOf p
  let s1 := s.setRally p { r.error 6 r.head with st := 3 }
  if r.errRec = 0 then s1
  else
    let e : LaunchError := { kind := 3, cause := 0, coreId := 0, ctx := 0, pc := 0, addr := 0, info := 0, slots := 0 }
    match s1.writeRecord p r.errRec e true with
    | .done t _ => t
    | .wait t => t.setRally p r
    | .fails => s1

/-- RALLY_ENTRY_START (R326, R327): the head starts once its conditions hold. (Log 52: DEDUCED) -/
def execRallyEntryStart (part : Nat) (s : State) : Host.Outcome State Fault Refusal :=
  let r := s.rallyOf part
  .next (match r.entries[r.head]? with
    | none => s
    | some e =>
      if r.st ≠ 1 || r.cause ≠ 0 then s
      else
        match s.readImage part e.image with
        | .wait t => t
        | .refused => s.entryRefused part
        | .fails _ => s.entryRefused part
        | .ok s1 h places =>
          let l := { Launch.of h places part 0 r.head 0 0 false e.image e.arg r.errRec (s1.ownedQuads part) r.priv
                      (s1.curTag part) true with extra := r.registers e }
          let n := s1.nextLaunch
          if !s1.quadsReady l.quads then s
          else (({ s1 with nextLaunch := n + 1 } : State).setLaunch n (some l)).setRally part
            { r with st := 2, live := some n, start := s1.time })

/-- A trace record (R334). -/
def Rally.trace (r : Rally) (e : RallyEntry) (now : Nat) : List Byte :=
  let w := fun (i : Nat) => r.bubbles.getD i 0 - r.was.getD i 0
  toBytes 2 r.head ++ toBytes 1 e.kind ++ toBytes 1 0 ++ toBytes 4 e.mb ++ toBytes 8 r.start ++ toBytes 8 now ++
    toBytes 8 (w 0) ++ toBytes 8 (w 1) ++ toBytes 8 (w 2) ++ List.replicate 16 0

/-- The trace record of the entry that completes is written, or skipped with a report (R334), or has to wait. -/
def State.writeTrace (s : State) (p : Nat) (r : Rally) (e : RallyEntry) : Tried Unit :=
  let next := fun (t : State) => Tried.done (t.setRally p { r with traced := (r.traced + 1) % 2 ^ 32 }) ()
  if r.trBase = 0 then .done s ()
  else
    let a := r.trBase + BitVec.ofNat 64 (64 * (r.traced % r.trLen))
    match s.tryWrite (s.partAgent p) a.toNat (r.trace e s.time) with
    | .done t _ => next t
    | .wait t => .wait t
    | .fails => next (s.logError 10 0 false 5 0 (2 ^ p) a.toNat r.head)

/-- RALLY_ENTRY_COMPLETE (R329, R334): launch over and every increment answered. -/
def execRallyEntryComplete (part : Nat) (s : State) : Host.Outcome State Fault Refusal :=
  .next (match (s.rallyOf part).live with
    | none => s
    | some n =>
      let s1 := s.settleLaunch n
      let r := s1.rallyOf part
      if !s1.launchOver n || r.posted ≠ 0 then s1
      else
        match r.entries[r.head]? with
        | none => s1
        | some e =>
          match s1.writeTrace part r e with
          | .wait t => t
          | .fails => s1
          | .done t _ =>
            let s2 := t.setLaunch n none
            let y := s2.rallyOf part
            let h := y.head + 1
            s2.setRally part { y with head := h, st := if h < y.entries.length then 1 else 3, live := none, was := y.bubbles })

/-- An increment is over: applied, or lost (R330). One of a tenancy that has ended changes no rally state (R335). -/
def State.incrementOver (s : State) (rtag part entry : Nat) (lost : Bool) : State :=
  let r := s.rallyOf part
  let mine := match SMap.get none s.remotes rtag with | some x => x.tag == r.tag | none => false
  let r1 := if lost then r.error 5 entry else r
  let s1 : State := { s with remotes := SMap.set none s.remotes rtag none }
  if mine then s1.setRally part { r1 with posted := r1.posted - 1 } else s1

/-- RALLY_INCREMENT_TIMEOUT (R330): no answer within 500 µs. -/
def execRallyIncrementTimeout (rtag : Nat) (s : State) : Host.Outcome State Fault Refusal :=
  .next (match SMap.get none s.remotes rtag with
    | some r =>
      match r.what with
      | .increment p e => if r.deadline ≤ s.time then s.incrementOver rtag p e true else s
      | _ => s
    | none => s)

/-- Cycles of the arithmetic clock in a time of the reference clock (R18, R441). -/
def State.cyclesIn (s : State) (ns : Nat) : Nat := ns * s.field (relReg 0x48) 27 16 / 1000

/-- The bubble counter of each waiting table grows while its partition holds a slice (R332). (Log 53: DEDUCED) -/
def State.countBubbles (s : State) (cycles : Nat) : State :=
  s.rally.foldl (fun s (p, r) =>
    if r.st = 1 && r.cause ≠ 0 && s.holdsSlice p then
      let i := r.cause - 1
      s.setRally p { r with bubbles := r.bubbles.mapIdx fun j b => if j = i then (b + cycles) % 2 ^ 64 else b }
    else s) s

/-- Cycles of the arithmetic clock pass on the whole module, and with them time (R18). (Log 53: DEDUCED) -/
def State.passCycles (s : State) (d : Nat) : State :=
  let mhz := max 1 (s.field (relReg 0x48) 27 16)
  let total := s.frac + 1000 * d
  { s.countBubbles d with front := s.front + d, time := s.time + total / mhz, frac := total % mhz }

/-- Time passes on the whole module, and with it cycles (R18): as many as keep the arithmetic clock level with it. -/
def State.passTime (s : State) (ns : Nat) : State :=
  let mhz := max 1 (s.field (relReg 0x48) 27 16)
  let d := (mhz * ns - s.frac + 999) / 1000
  { s.countBubbles d with front := s.front + d, time := s.time + ns, frac := s.frac + 1000 * d - mhz * ns }

end Sys2Proof.Machine
end

