-- ==== Sys2Proof/Machine/Context.lean ====
section
/-! DEFINITION. Slices and context (R35 to R38, R283, R284, R363, R364, R395 to R397): who holds a quad, when a
partition is quiescent on it, what is saved of it and how it comes back. -/

namespace Sys2Proof.Machine

/-- A launch of partition p is bound to a quad (R22). -/
def State.boundOn (s : State) (p quad : Nat) : Bool :=
  s.launches.any fun (_, l) => match l with | some l => l.part == p && l.quads.contains quad | none => false

/-- The quads that PQ.QUADS.MASK names for partition p, and those removed from it that stay in use (R363). -/
def State.inUse (s : State) (p quad : Nat) : Bool :=
  s.field (partReg p 0) quad quad = 1 || (SMap.get 0 s.heldQuads p).getLsbD quad

/-- The partitions that share a quad in time as the registers stand (R363): scheduled, and owning it. -/
def State.owners (s : State) (quad : Nat) : List Nat :=
  (List.range 64).filter fun p => s.field (partReg p 8) 22 22 = 1 && s.inUse p quad

/-- The partitions that share a quad in time (R363): a change of the registers takes effect at the end of its slice. -/
def State.sharers (s : State) (quad : Nat) : List Nat :=
  match SMap.get none s.slices quad with
  | some _ => SMap.get [] s.sharedBy quad
  | none => s.owners quad

/-- Changes of PQ.QUADS.MASK and PQ.SLICE.EN take effect on some quads (R363). -/
def State.regroup (s : State) (quads : List Nat) : State :=
  { s with sharedBy := quads.foldl (fun m q => SMap.set [] m q (s.owners q)) s.sharedBy }

/-- At the end of a slice on some quads, a removal takes effect where no launch of the partition is bound any more
(R363). -/
def State.releaseMask (s : State) (quads : List Nat) : State :=
  { s with heldQuads := SMap.mapAll 0 (fun p m =>
      quads.foldl (fun m q => if s.boundOn p q then m else m &&& ~~~ BitVec.ofNat 64 (2 ^ q)) m) s.heldQuads }

/-- The quads scheduled together with a quad: those with the same sharers (R363). -/
def State.group (s : State) (quad : Nat) : List Nat :=
  (List.range 64).filter fun q => s.sharers q == s.sharers quad

/-- A task of partition p stands on core n. -/
def State.tasksOn (s : State) (n p : Nat) : List (Nat × Task) :=
  (s.coreAt n).tasks.filter fun (_, t) => t.st != .free && tagPart t.tag == p

/-- A pump channel has a job that can go on. -/
def Pump.works (c : Pump) : Bool := c.code == 0 && !c.jobs.isEmpty

/-- A query of partition p holds a slot for a task of core n: it runs, or is recorded for reissue (R350). -/
def State.queriesOn (s : State) (n p : Nat) (which : Query → Bool) : Bool :=
  s.gse.any fun (_, g) => g.slots.any fun (_, q) => match q with
    | some q => q.part == p && q.core == n && q.running && which q
    | none => false

/-- An engine of core n works for partition p, or holds a volley, a latch or a query of it. (Log 63: DEDUCED) -/
def State.enginesOn (s : State) (n p : Nat) : Bool :=
  let k := s.coreAt n
  let mine := fun (t : Tag) => tagPart t == p
  k.pumps.any (fun (_, c) => c.works && c.jobs.any fun j => mine j.tag) || k.jobs.any (fun j => mine j.tag) ||
  k.tiles.any (fun (_, t) => mine t.tag && (t.st == .draining || (t.st == .filling && !t.volley))) ||
  k.sends.any (fun v => mine v.tag) || k.latches.any (fun l => mine l.tag) || s.queriesOn n p fun _ => true

/-- A saved record holds work: tasks, or engine jobs to be replayed, re-offered or reposted (R38). (Log 63: DEDUCED) -/
def Saved.hasWork (r : Saved) : Bool :=
  !r.tasks.isEmpty || r.pumps.any (fun c => c.pump.works) || !r.sends.isEmpty || !r.latches.isEmpty ||
  r.tiles.any fun (_, _, t) => t.st == .filling && !t.volley

/-- Partition p has work on a group of quads (R363): a task, running, saved or waiting for its context, a packet
ready to begin, or an engine job that a save has stopped and that is to be replayed there (R38). (Log 63: DEDUCED) -/
def State.hasWork (s : State) (p : Nat) (quads : List Nat) : Bool :=
  quads.any (fun q =>
    (List.range 4).any (fun m => !(s.tasksOn (4 * q + m) p).isEmpty) ||
    (match SMap.get none s.saved (64 * p + q) with | some x => x.hasWork | none => false)) ||
  s.launches.any (fun (_, l) => match l with
    | some l => l.part == p && !l.waiting.isEmpty && l.quads.any quads.contains
    | none => false) ||
  !(s.readyQueues p).isEmpty

/-- Partition p may hold slices: it is scheduled, not saved by a SAVE, and no command runs on it (R399). -/
def State.mayRun (s : State) (p : Nat) : Bool :=
  s.field (partReg p 8) 22 22 = 1 && s.field (partReg p 0xD8) 14 14 = 0 && s.field (partReg p 0xD8) 1 0 = 0

/-- The partition whose turn comes next on a quad's group, in ascending partition number (R363). -/
def State.nextTurn (s : State) (quad : Nat) : Option Nat :=
  let g := s.group quad
  let able := (s.sharers quad).filter fun p => s.mayRun p && s.hasWork p g
  let last := SMap.get 64 s.lastTurn quad
  match able.find? fun p => last < p with
  | some p => some p
  | none => able.head?

/-- The length of partition p's slices in ns, and its weight (R353). -/
def State.sliceNs (s : State) (p : Nat) : Nat := s.field (partReg p 8) 13 0 * 1000
def State.weight (s : State) (p : Nat) : Nat := max 1 (s.field (partReg p 8) 21 14)

/-- The policy table is read at a slice start (R364). -/
def State.readPolicy (s : State) (p : Nat) : Tried Unit :=
  let plain := fun (s : State) => ({ s with policy := SMap.set [] s.policy p [] } : State)
  let bad := fun (s : State) => Tried.done ((plain s).setField (partReg p 0x38) 0 0 1) ()
  if s.field (partReg p 0x10) 0 0 = 0 then .done (plain s) ()
  else
    match s.dispRead p (s.field (partReg p 0x10) 63 6 * 64) 256 with
    | .wait t => .wait t
    | .fails _ => bad s
    | .ok s1 bs =>
      let es := (List.range 64).map fun q => ofBytes ((bs.drop (4 * q)).take 4)
      if es.all fun e => e / 4 % 64 = 0 && e / 2 ^ 16 = 0 then
        .done { s1 with policy := SMap.set [] s1.policy p (es.map fun e => (e % 4, e / 2 ^ 8 % 2 ^ 8)) } ()
      else bad s1

/-- The number of items of the map at an address, from its header (R283). -/
def State.mapCount (s : State) (p at_ : Nat) : Tried Nat :=
  match s.dispRead p at_ 8 with
  | .wait t => .wait t
  | .fails _ => .fails
  | .ok s1 bs => if ofBytes bs = 0 || ofBytes bs > 256 then .fails else .done s1 (ofBytes bs)

/-- The address of the i-th map from an address in a live-map table, and its number of items (R283): the maps before it
are walked by their headers. -/
def State.liveMapAt (s : State) (p at_ : Nat) : Nat → Tried (Nat × Nat)
  | 0 =>
    match s.mapCount p at_ with
    | .wait t => .wait t
    | .fails => .fails
    | .done s1 n => .done s1 (at_, n)
  | i + 1 =>
    match s.mapCount p at_ with
    | .wait t => .wait t
    | .fails => .fails
    | .done s1 n => s1.liveMapAt p (at_ + 8 + 8 * n) i

/-- The number of elements of a kind of live-map item (R40, R283). -/
def kindCount : Nat → Nat
  | 1 => 64 | 2 => 32 | 3 => 16 | 4 => 1536 | 5 => 16 | 6 => 16 | 7 => 16 | 8 => 3072 | _ => 0

/-- A live-map item keeps to R283. -/
def liveItemOk (w : Nat) : Bool :=
  let kind := w % 16
  let first := w / 2 ^ 8 % 2 ^ 12
  let last := w / 2 ^ 20 % 2 ^ 12
  let base := w / 2 ^ 8 % 2 ^ 22
  let size := w / 2 ^ 32
  w / 2 ^ 4 % 16 = 0 &&
  (if 1 ≤ kind && kind ≤ 8 then
    size = 0 && first ≤ last && last < kindCount kind && (kind ≠ 7 || first = last)
  else kind = 9 && w / 2 ^ 30 % 4 = 0 && base % 64 = 0 && size ≠ 0 && size % 64 = 0 && base % 2 ^ 20 + size ≤ 0xC_0000)

/-- The items of a task's live map; it fails where the map is malformed or cannot be read (R283). -/
def State.liveMap (s : State) (t : Task) : Tried (List Nat) :=
  match t.stopped, t.launch.bind s.launch with
  | some i, some l =>
    let p := tagPart t.tag
    match s.liveMapAt p (l.base + l.liveOff).toNat i with
    | .wait s1 => .wait s1
    | .fails => .fails
    | .done s1 (a, n) =>
      match s1.dispRead p (a + 8) (8 * n) with
      | .wait s2 => .wait s2
      | .fails _ => .fails
      | .ok s2 xs =>
        let ws := (List.range n).map fun j => ofBytes ((xs.drop (8 * j)).take 8)
        if ws.all liveItemOk then .done s2 ws else .fails
  | _, _ => .fails

/-- The data that a live-map item names on core n for context x, under the tag rule. -/
def State.liveData (s : State) (n x : Nat) (t : Task) (w : Nat) : List Byte :=
  let k := s.coreAt n
  let first := w / 2 ^ 8 % 2 ^ 12
  let last := w / 2 ^ 20 % 2 ^ 12
  let ixs := (List.range (last + 1 - first)).map (first + ·)
  let vec := fun (r : VReg) => toBytes 1024 (if s.readable t.tag r.tag then r.data.toNat else 0)
  match w % 16 with
  | 4 => ixs.flatMap fun i => vec (SMap.get VReg.zero k.v i)
  | 5 => ixs.flatMap fun i => let r := SMap.get XReg.zero k.x i; toBytes 512 (if s.readable t.tag r.tag then r.data.toNat else 0)
  | 6 => ixs.flatMap fun i => vec (((k.task x).results[i]?).getD VReg.zero)
  | 8 => ixs.flatMap fun i => let r := SMap.get AccRow.zero k.acc i; toBytes 256 (if s.readable t.tag r.tag then r.data.toNat else 0)
  | 9 =>
    let base := w / 2 ^ 8 % 2 ^ 22
    s.localBytes t.tag (quadOf n * 4 + base / 2 ^ 20) (base % 2 ^ 20) (w / 2 ^ 32)
  | _ => []

/-- A live-map item as it is saved (R401): kinds 4, 5, 6, 8 and 9; a queue is saved beside them. -/
def State.liveItem (s : State) (n x : Nat) (t : Task) (w : Nat) : Option LiveItem :=
  let kind := w % 16
  if kind = 4 || kind = 5 || kind = 6 || kind = 8 then
    some { kind := kind, core := n, ctx := if kind = 6 then x else 0, first := w / 2 ^ 8 % 2 ^ 12,
           last := w / 2 ^ 20 % 2 ^ 12, size := 0, data := s.liveData n x t w }
  else if kind = 9 then
    some { kind := 9, core := n, ctx := 0, first := w / 2 ^ 8 % 2 ^ 22, last := 0, size := w / 2 ^ 32,
           data := s.liveData n x t w }
  else none

/-- Nothing of partition p on core n keeps it from being saved (R284, R395, R396): its tasks have stopped, their
results have landed, its tile fills, drains, range jobs and posted stores are over, and no pump job stands inside a line. -/
def State.coreQuiet (s : State) (n p : Nat) : Bool :=
  let k := s.coreAt n
  let mine := fun (t : Tag) => tagPart t == p
  (s.tasksOn n p).all (fun (_, t) => t.st == .ready && t.stopped.isSome && t.rstpOut == 0) &&
  (match k.switch with | some w => (k.task w.dest).stopped.isNone | none => true) &&
  k.pend.all (fun e => !mine e.tag) && k.loads.all (fun l => !mine l.tag) && k.jobs.all (fun j => !mine j.tag) &&
  k.tiles.all (fun (_, t) => !(mine t.tag && ((t.st == .filling && !t.volley) || t.st == .draining))) &&
  k.pumps.all (fun (_, c) => c.code != 0 || c.jobs.all fun j => !mine j.tag || !j.started || j.atEdge j.done) &&
  !s.queriesOn n p fun q => 0 < q.written

/-- Partition p is quiescent on a quad: its cores are, and what its tasks have produced into queues has landed (R395). -/
def State.quadQuiet (s : State) (quad p : Nat) : Bool :=
  (List.range 4).all (fun m => s.coreQuiet (4 * quad + m) p) &&
  s.queues.all fun (i, q) => i / 16 != quad || q.landing.all fun e => tagPart e.tag != p

/-- A task as it is saved (R284): CYCLE as it stands, and no return stack (R267). (Log 62: DEDUCED) -/
def Task.packed (t : Task) (clock : Nat) (bad : Bool) : Task :=
  { t with st := .ready, cycle := t.cycle + BitVec.ofNat 64 clock, returns := [], wakeAt := none, passed := 0,
           stall := 0, liveBad := bad }

/-- A queue as an agent under a tag reads it (R37): an entry that the tag rule denies it holds zero. -/
def State.seenQueue (s : State) (tag : Tag) (q : Queue) : Queue :=
  { q with entries := SMap.mapAll VReg.zero (fun _ e => if s.readable tag e.tag then e else { VReg.zero with tag := tag }) q.entries,
           landing := [] }

/-- The record of one core of partition p; a live queue whose last QCFG the tag rule denies p has nothing that p could read,
and is left as it is (R37, R66). (Log 64: DEDUCED) -/
def State.packCore (s : State) (n p : Nat) : Saved :=
  let k := s.coreAt n
  let mine := fun (t : Tag) => tagPart t == p
  let tasks := s.tasksOn n p
  let maps := tasks.map fun (x, t) => (x, t, match s.liveMap t with | .done _ ws => some ws | _ => none)
  let items := maps.flatMap fun (x, t, m) => (m.getD []).filterMap fun w => s.liveItem n x t w
  let qs := maps.flatMap fun (_, _, m) => ((m.getD []).filter fun w => w % 16 = 7).map fun w => w / 2 ^ 8 % 2 ^ 12
  { Saved.empty with
    tasks := maps.map fun (x, t, m) => (n, x, t.packed k.clock m.isNone),
    live := items,
    queues := (qs.eraseDups.filter fun i => s.readable (s.curTag p) (s.queue (quadOf n) i).tag).map fun i =>
      (quadOf n, i, s.seenQueue (s.curTag p) (s.queue (quadOf n) i)),
    tiles := (k.tiles.filter fun (_, t) => mine t.tag && t.st != .empty).map fun (e, t) => (n, e, t),
    stash := (k.stash.filter fun (_, x) => mine x.tag && x.active).map fun (e, x) => (n, e, x),
    pumps := (List.range 8).map fun ch => { core := n, ch := ch, pump := k.pump ch },
    sends := (k.sends.filter fun v => mine v.tag).map fun v => (n, v),
    latches := (k.latches.filter fun l => mine l.tag).map fun l => (n, l),
    bad := maps.any fun (_, _, m) => m.isNone }

/-- Two records joined; a queue that is live on several cores is recorded once (R401). (Log 59: DEDUCED) -/
def Saved.join (a b : Saved) : Saved :=
  { tasks := a.tasks ++ b.tasks, live := a.live ++ b.live,
    queues := a.queues ++ b.queues.filter fun x => a.queues.all fun y => (y.1, y.2.1) != (x.1, x.2.1), tiles := a.tiles ++ b.tiles,
    stash := a.stash ++ b.stash, pumps := a.pumps ++ b.pumps, sends := a.sends ++ b.sends, latches := a.latches ++ b.latches,
    quadBars := a.quadBars ++ b.quadBars, dieBars := a.dieBars ++ b.dieBars, bad := a.bad || b.bad }

/-- What stands on a core of partition p once it has been saved (R27, R396): nothing but core-shared elements,
which keep their tags. -/
def Core.without (k : Core) (p : Nat) : Core :=
  let mine := fun (t : Tag) => tagPart t == p
  { k with
    tasks := k.tasks.filter (fun (_, t) => !mine t.tag),
    tiles := k.tiles.filter (fun (_, t) => !mine t.tag),
    stash := k.stash.filter (fun (_, x) => !mine x.tag),
    pumps := SMap.mapAll Pump.init (fun _ q => q.clear) k.pumps,
    sends := k.sends.filter (fun v => !mine v.tag), latches := k.latches.filter (fun l => !mine l.tag),
    issue := { k.issue with board := [] } }

/-- The queries of partition p on a core stop and are recorded for reissue from the start; their slots stay
(R350, R396). -/
def Gse.stop (g : Gse) (p core : Nat) : Gse :=
  { g with slots := SMap.mapAll none (fun _ q => match q with
      | some q =>
        if q.part = p && q.core = core && q.running then
          some { Query.placed q.part q.tag q.core q.ctx q.launch q.packet q.seq q.order with arrived := false }
        else some q
      | none => none) g.slots }

/-- The quad barriers of partition p on a quad (R396), as quad, number and state. (Log 64: DEDUCED) -/
def State.barriersOn (s : State) (quad p : Nat) : List (Nat × Nat × Barrier) :=
  (s.quadBars.filter fun (i, b) => i / 16 == quad && tagPart b.tag == p && s.lands b.tag).map fun (i, b) => (quad, i % 16, b)

/-- The die barriers granted to partition p that it uses (R152, R353), as die, number and state. (Log 64: DEDUCED) -/
def State.dieBarriersOf (s : State) (p : Nat) : List (Nat × Nat × Barrier) :=
  (s.dieBars.filter fun (i, b) => tagPart b.tag == p &&
    s.field (partReg p (if i / 16 < 4 then 0x28 else 0x30)) (i % 64) (i % 64) = 1).map fun (i, b) => (i / 16, i % 16, b)

/-- What keeps partition p from being saved on a quad now although it is quiescent: a live map whose read has to wait;
and else the quad with every dirty sector of p's stash entries written back (R290, R396). -/
def State.beforeSave (s : State) (quad p : Nat) : Except State State :=
  let ns := (List.range 4).map (4 * quad + ·)
  let s0 := ns.foldl (fun s n => s.catchUp n) s
  match ns.findSome? fun n => (s0.tasksOn n p).findSome? fun (_, t) => match s0.liveMap t with | .wait w => some w | _ => none with
  | some w => .error w
  | none =>
    let mine := ns.flatMap fun n => ((s0.coreAt n).stash.filter fun (_, x) => tagPart x.tag == p).map fun (e, _) => (n, e)
    match mine.foldlM (fun (s : State) (n, e) => s.writebackAll n e) s0 with
    | .ok s1 => .ok s1
    | .error er => .error (s.noteWait p er)

/-- Partition p is saved on a quad and leaves it (R284, R395, R396). (Log 64: DEDUCED) -/
def State.saveQuad (s : State) (quad p : Nat) : State :=
  let ns := (List.range 4).map (4 * quad + ·)
  let rec_ := ns.foldl (fun a n => a.join (s.packCore n p)) { Saved.empty with
    quadBars := s.barriersOn quad p, dieBars := (s.dieBarriersOf p).filter fun (d, _) => d == quad / 8 }
  let s1 := ns.foldl (fun s n => s.setCoreAt n ((s.coreAt n).without p)) s
  let s2 : State := { s1 with
    quadBars := rec_.quadBars.foldl (fun m (_, b, _) => SMap.set Barrier.reset m (16 * quad + b) Barrier.reset) s1.quadBars,
    gse := ns.foldl (fun m n => SMap.mapAll Gse.reset (fun _ g => g.stop p n) m) s1.gse,
    saved := SMap.set none s1.saved (64 * p + quad)
      (some (match SMap.get none s1.saved (64 * p + quad) with | some old => rec_.join old | none => rec_)) }
  let s3 := s2.purgeRequests
  if rec_.bad then s3.setField (partReg p 0xD8) 13 13 1 else s3

/-- Elements of partition p on a core that no live map names keep their value or read zero (R37, R284): which of
the two is a free value, and so is the plane in the foreground (R197). (Log 16: DESIGN CHOICE) -/
def State.forget (s : State) (n p : Nat) : State :=
  let k := s.coreAt n
  let keep := fun (t : Tag) (i : Nat) => tagPart t != p || Config.deadKept (s.fresh + i)
  let lines := s.tags.filter fun (l, t) =>
    !(isLocal (64 * l) && (64 * l - 2 ^ 112) / 2 ^ 20 == n && !keep t (0x4000 + l % 2 ^ 14))
  ({ s with tags := lines, fresh := s.fresh + 0x8000 } : State).setCoreAt n { k with
    v := k.v.filter (fun (i, e) => keep e.tag i), x := k.x.filter (fun (i, e) => keep e.tag (0x1000 + i)),
    acc := k.acc.filter (fun (i, e) => keep e.tag (0x1100 + i)),
    planes := k.planes.filter (fun (i, e) => keep e.tag (0x2200 + i)),
    latch := k.latch.filter (fun (i, e) => keep e.tag (0x2300 + i)),
    fore := k.fore ^^ Config.deadKept (s.fresh + 0x3000) }

/-- The pieces of n bytes of a list. -/
def chunks (n : Nat) (bs : List Byte) (count : Nat) : List Nat :=
  (List.range count).map fun i => ofBytes ((bs.drop (n * i)).take n)

/-- A list of results with entry i replaced; entries before it that are not there hold zero under the tag. -/
def putResultAt (rs : List VReg) (i : Nat) (e : VReg) (tag : Tag) : List VReg :=
  (rs ++ List.replicate (i + 1 - rs.length) ({ data := 0, tag := tag } : VReg)).set i e

/-- A saved item written back under a tag (R404). -/
def State.putLive (s : State) (tag : Tag) (it : LiveItem) : State :=
  let k := s.coreAt it.core
  let count := it.last + 1 - it.first
  match it.kind with
  | 4 => s.setCoreAt it.core ((chunks 1024 it.data count).zipIdx.foldl (fun k (d, i) =>
      { k.heal 2 (it.first + i) with v := SMap.set VReg.zero k.v (it.first + i) { data := BitVec.ofNat 8192 d, tag := tag } }) k)
  | 5 => s.setCoreAt it.core ((chunks 512 it.data count).zipIdx.foldl (fun k (d, i) =>
      { k.heal 4 (it.first + i) with x := SMap.set XReg.zero k.x (it.first + i) { data := BitVec.ofNat 4096 d, tag := tag } }) k)
  | 6 => s.setCoreAt it.core ((chunks 1024 it.data count).zipIdx.foldl (fun k (d, i) =>
      let t := k.task it.ctx
      let e : VReg := { data := BitVec.ofNat 8192 d, tag := tag }
      (k.heal 8 (16 * it.ctx + it.first + i)).setTask it.ctx { t with results := putResultAt t.results (it.first + i) e tag }) k)
  | 8 => s.setCoreAt it.core ((chunks 256 it.data count).zipIdx.foldl (fun k (d, i) =>
      { k.heal 3 (it.first + i) with acc := SMap.set AccRow.zero k.acc (it.first + i) { data := BitVec.ofNat 2048 d, tag := tag } }) k)
  | 9 => s.localPutSpan tag (quadOf it.core * 4 + it.first / 2 ^ 20) (it.first % 2 ^ 20) it.data (it.data.length / 64 + 2)
  | _ => s

/-- A saved tile entry comes back: a fill is raised at its recorded coordinates, or its volley is awaited, with a fill that
waits behind it (R405). -/
def Tile.restored (t : Tile) (tag : Tag) : Tile :=
  { t with st := .filling, tag := tag, queued := if t.volley then t.queued else Option.none }

/-- The recorded queries of a partition on a quad are reissued (R350, R405). -/
def Gse.reissue (g : Gse) (quad p : Nat) (tag : Tag) : Gse :=
  let again := fun (q : Query) => if q.part = p && quadOf q.core = quad && !q.arrived then { q with arrived := true, tag := tag } else q
  { g with slots := SMap.mapAll none (fun _ q => q.map again) g.slots }

/-- The places of partition p's queries of core n among the jobs that its tasks have issued (R313). -/
def State.queryOrders (s : State) (n p : Nat) : List Nat :=
  s.gse.flatMap fun (_, g) => g.slots.filterMap fun (_, q) => match q with
    | some q => if q.part = p && q.core = n && q.running then some q.order else none
    | none => none

/-- The places of a record's engine jobs on core n among those that its tasks have issued (R313). -/
def Saved.orders (r : Saved) (n : Nat) : List Nat :=
  (r.pumps.filter fun c => c.core == n).flatMap (fun c => c.pump.jobs.map (·.order)) ++
  (r.tiles.filter fun x => x.1 == n).map (fun x => x.2.2.order) ++
  (r.sends.filter fun x => x.1 == n).map (fun x => x.2.order) ++ (r.latches.filter fun x => x.1 == n).map fun x => x.2.order

/-- A channel that comes back, its jobs under a tag. -/
def Pump.retag (c : Pump) (tag : Tag) : Pump := { c with jobs := c.jobs.map fun j => { j with tag := tag } }

/-- The engines of core n as a record restores them (R405): stash entries with every sector unfilled, tile fills, channels,
volleys and latches; jobs issued from now on come after them, and after the queries whose places are given. -/
def Core.reload (k : Core) (n : Nat) (r : Saved) (tag : Tag) (queries : List Nat) : Core :=
  let here := fun {α : Type} (xs : List (Nat × α)) => (xs.filter fun x => x.1 == n).map (·.2)
  let k1 := (here r.stash).foldl (fun (k : Core) (e, x) => k.setStash e { x with tag := tag, sectors := [] }) k
  let k2 := (here r.tiles).foldl (fun (k : Core) (e, t) => k.setTile e (t.restored tag)) k1
  let k3 := (r.pumps.filter fun c => c.core == n).foldl (fun (k : Core) c => k.setPump c.ch (c.pump.retag tag)) k2
  { k3 with sends := k3.sends ++ (here r.sends).map (fun v => { v with tag := tag }),
            latches := k3.latches ++ (here r.latches).map (fun l => { l with tag := tag }),
            issuedJobs := (r.orders n ++ queries).foldl (fun m o => max m (o + 1)) k3.issuedJobs }

/-- What a quad's record holds comes back onto it under partition p's current tag (R404, R405); of the die barriers, which
other quads have gone on using, those that another partition has taken since.
(Log 61: DEDUCED; 64: DEDUCED; 71: DEDUCED) -/
def State.loadQuad (s : State) (quad p : Nat) (r : Saved) : State :=
  let ns := (List.range 4).map (4 * quad + ·)
  let tag := s.curTag p
  let s0 := ns.foldl (fun s n => (s.catchUp n).forget n p) s
  let s1 := r.quadBars.foldl (fun (s : State) (q, b, x) =>
    { s with quadBars := SMap.set Barrier.reset s.quadBars (16 * q + b) { x with tag := tag } }) s0
  let retaken := fun (d b : Nat) => tagPart (SMap.get Barrier.reset s.dieBars (16 * d + b)).tag ≠ p
  let s1 := (r.dieBars.filter fun (d, b, _) => retaken d b).foldl (fun (s : State) (d, b, x) =>
    { s with dieBars := SMap.set Barrier.reset s.dieBars (16 * d + b) { x with tag := tag } }) s1
  let retag := fun (q : Queue) => { q with tag := tag, entries := q.entries.map fun (i, e) => (i, { e with tag := tag }) }
  let results := fun (x : Nat) (rs : List VReg) => rs.mapIdx fun i (e : VReg) =>
    ({ data := if Config.deadKept (s0.fresh + 16 * x + i) then e.data else 0, tag := tag } : VReg)
  let s2 := r.queues.foldl (fun (s : State) (q, k, x) => s.setQueue q k (retag x)) s1
  let s3 := ns.foldl (fun s n => s.setCoreAt n ((s.coreAt n).reload n r tag (s.queryOrders n p))) s2
  let s4 := r.tasks.foldl (fun (s : State) (n, x, t) =>
    let k := s.coreAt n
    (s.setCoreAt n ((k.heal 1 x).setTask x { t with
      tag := tag, cycle := t.cycle - BitVec.ofNat 64 k.clock, stopped := none, overran := false,
      results := results x t.results })).challenge n x) s3
  let s5 := r.live.foldl (fun s it => s.putLive tag it) s4
  { s5 with gse := SMap.mapAll Gse.reset (fun _ g => g.reissue quad p tag) s5.gse }

/-- A saved partition's record of a quad is loaded, if there is one. (Log 61: DEDUCED) -/
def State.resumeQuad (s : State) (quad p : Nat) : State :=
  match SMap.get none s.saved (64 * p + quad) with
  | some r => ({ s with saved := SMap.set none s.saved (64 * p + quad) none } : State).loadQuad quad p r
  | none => s

/-- Partition p takes a slice on a quad. (Log 61: DEDUCED) -/
def State.giveSlice (s : State) (quad p left : Nat) : State :=
  { s.regroup [quad] with
    slices := SMap.set none s.slices quad (some { part := p, left := left, endsAt := s.time + s.sliceNs p, quiesce := none }),
    lastTurn := SMap.set 64 s.lastTurn quad p }

/-- Partition p has nothing on a quad: no tasks, no engine work, no barrier state. (Log 104: DEDUCED) -/
def State.nothingOn (s : State) (quad p : Nat) : Bool :=
  (s.barriersOn quad p).isEmpty && (List.range 4).all fun m =>
    let n := 4 * quad + m
    let k := s.coreAt n
    let mine := fun (t : Tag) => tagPart t == p
    (s.tasksOn n p).isEmpty && k.pend.all (fun e => !mine e.tag) && k.loads.all (fun l => !mine l.tag) &&
    k.jobs.all (fun j => !mine j.tag) && k.pumps.all (fun (_, c) => c.jobs.all fun j => !mine j.tag) &&
    k.tiles.all (fun (_, t) => !(mine t.tag && t.st != .empty)) && k.stash.all (fun (_, x) => !mine x.tag) &&
    k.sends.all (fun v => !mine v.tag) && k.latches.all (fun l => !mine l.tag) && !s.queriesOn n p fun q => q.arrived

/-- The partition other than p that still has something on a quad. (Log 104: DEDUCED) -/
def State.leftOn (s : State) (quad p : Nat) : Option Nat :=
  (List.range 64).find? fun o => o != p && !s.nothingOn quad o

/-- Partition p's tasks on a quad changed. -/
def State.updTasks (s : State) (quad p : Nat) (f : Task → Task) : State :=
  (List.range 4).foldl (fun s m =>
    (s.tasksOn (4 * quad + m) p).foldl (fun s (x, t) => s.setTaskAt (4 * quad + m) x (f t)) s) s

/-- A partition is asked to stop on a quad (R395); its tasks are measured anew (R36). -/
def State.quiesce (s : State) (quad p left : Nat) : State :=
  let s1 := s.updTasks quad p fun t => { t with overran := false }
  { s1 with slices := SMap.set none s1.slices quad (some { part := p, left := left, endsAt := s.time, quiesce := some s.time }) }

/-- The quad has no slice. -/
def State.freeQuad (s : State) (quad : Nat) : State := { s with slices := SMap.set none s.slices quad none }

/-- Partition p's slices start, once its policy table is read; where that has to wait, nothing starts. -/
def State.startSlices (s : State) (p : Nat) (start : State → State) : State :=
  match s.readPolicy p with
  | .done s1 _ => start s1
  | .wait t => t
  | .fails => s

/-- SLICE_START (R363, R364, R395): the next partition with work takes its first slice on the quad's group, once what
another has left there is saved. -/
def execSliceStart (quad : Nat) (s : State) : Host.Outcome State Fault Refusal :=
  .next (if (SMap.get none s.slices quad).isSome then s
    else
      match s.nextTurn quad with
      | none => s
      | some p =>
        let g := s.group quad
        let leaving := g.any fun q => match SMap.get none s.slices q with | some y => y.quiesce.isSome | none => false
        let free := g.filter fun q => (SMap.get none s.slices q).isNone
        let left := free.filterMap fun q => (s.leftOn q p).map fun o => (q, o)
        if leaving then s
        else if left.isEmpty then
          s.startSlices p fun s1 => free.foldl (fun s q => (s.resumeQuad q p).giveSlice q p (s.weight p - 1)) s1
        else left.foldl (fun s (q, o) => s.quiesce q o 0) s)

/-- SLICE_END (R35, R363, R395): at its end, or with no work left on the group, a slice is followed by another of the same
partition, or its partition is asked to stop for another, or the quad is free; a change of PQ.SLICE.EN or of the mask
takes effect. (Log 104: DEDUCED) -/
def execSliceEnd (quad : Nat) (s : State) : Host.Outcome State Fault Refusal :=
  .next (match SMap.get none s.slices quad with
    | none => s
    | some x =>
      let p := x.part
      let g := s.group quad
      let mine := g.filter fun q => match SMap.get none s.slices q with
        | some y => y.part == p && y.quiesce.isNone
        | none => false
      let work := s.hasWork p g
      if x.quiesce.isSome || (s.time < x.endsAt && work) then s
      else
        let s1 := (s.releaseMask mine).regroup g
        let again := s1.mayRun p && work && (0 < x.left || s1.nextTurn quad = some p)
        let left := if 0 < x.left then x.left - 1 else s1.weight p - 1
        let leave := fun (s : State) (q : Nat) =>
          if s.nothingOn q p || ((s.nextTurn q).isNone && !work) then s.freeQuad q else s.quiesce q p x.left
        let step := fun (s : State) (q : Nat) => if again && s.inUse p q then (s.resumeQuad q p).giveSlice q p left else leave s q
        if again then s1.startSlices p fun s2 => mine.foldl step s2 else mine.foldl step s1)

/-- CONTEXT_SAVE (R38, R284, R395, R396, R398): a partition that is quiescent on every quad concerned is saved on them and
leaves them, or has to wait; a slice-end save that its area cannot hold leaves it on the whole group for another slice.
(Log 58: DESIGN CHOICE) -/
def execContextSave (quad : Nat) (s : State) : Host.Outcome State Fault Refusal :=
  .next (match SMap.get none s.slices quad with
    | none => s
    | some x =>
      let p := x.part
      let command := s.field (partReg p 0xD8) 1 0 = 1
      let leaves := fun (q : Nat) => match SMap.get none s.slices q with
        | some y => y.part == p && y.quiesce.isSome
        | none => false
      let quads := ((List.range 64).filter leaves).filter fun q => command || (s.group quad).contains q
      if x.quiesce.isNone || !quads.all (fun q => s.quadQuiet q p) then s
      else
        let s1 : State := { s with fresh := s.fresh + 1 }
        if !command && Config.saveUnits s.fresh > s.field (partReg p 0xC8) 23 0 then
          let goOn := fun (s : State) (q : Nat) => (s.updTasks q p fun t => { t with stopped := none }).giveSlice q p 0
          let back := (s.group quad).filter fun q => leaves q || ((SMap.get none s.slices q).isNone && s.inUse p q)
          ((back.foldl goOn s1).setField (partReg p 0xD8) 3 3 1).setField (partReg p 0xD8) 11 4 1
        else
          match quads.foldlM (fun (s : State) q => s.beforeSave q p) s1 with
          | .error t => t
          | .ok s2 => (quads.foldl (fun s q => (s.saveQuad q p).freeQuad q) s2).releaseMask quads)

/-- SPACING_OVERRUN (R36, R397): a task that has not stopped within its kernel's SPACING of the request is
recorded; the first fills CX.OVR. -/
def execSpacingOverrun (core ctx : Nat) (ns : BitVec 48) (s : State) : Host.Outcome State Fault Refusal :=
  let t := s.taskAt core ctx
  let p := tagPart t.tag
  .next (match SMap.get none s.slices (quadOf core), t.launch.bind s.launch with
    | some x, some l =>
      match x.quiesce with
      | none => s
      | some _ =>
        if x.part ≠ p || t.st = .free || t.stopped.isSome || t.overran || ns.toNat ≤ l.spacing then s
        else
          let s1 := s.setTaskAt core ctx { t with overran := true }
          let r := partReg p 0xD8
          if s1.field r 12 12 = 1 then s1
          else
            let parked := match t.st with | .parked _ => 1 | _ => 0
            let ovr := t.coreId.toNat + ctx % 16 * 2 ^ 8 + parked * 2 ^ 12 + ns.toNat * 2 ^ 16
            (s1.setReg (partReg p 0xE0) (BitVec.ofNat 64 ovr)).setField r 12 12 1
    | _, _ => s)

end Sys2Proof.Machine
end

