-- ==== Sys2Proof/Machine/Migrate.lean ====
section
/-! DEFINITION. Shoot-downs (R282, R291, R372, R378) and page migration (R375 to R377). -/

namespace Sys2Proof.Machine

/-- A value of PT.SD names the page of va (R371, R372). -/
def sdNames (v : Word) (page : Nat) : Bool :=
  v.getLsbD 43 || (bits v 38 0 ≤ page && page < bits v 38 0 + 2 ^ bits v 42 39)

/-- A value of PT.SD names a page under the leaf that a TLB entry holds. -/
def sdNamesEntry (v : Word) (t : Tlb) : Bool :=
  let first := t.page / leafSize t.level * leafSize t.level / Config.pageSize
  v.getLsbD 43 || (bits v 38 0 < first + leafSize t.level / Config.pageSize && first < bits v 38 0 + 2 ^ bits v 42 39)

/-- The shoot-downs of the module: that of partition p's PT.SD at p, and the device's own for record rec of
partition p at 64 + 4096 p + rec (R372, R377). -/
def ownShoot (p rec : Nat) : Nat := 64 + 4096 * p + rec

/-- The partition of a shoot-down. -/
def shootPart (key : Nat) : Nat := if key < 64 then key else (key - 64) / 4096

/-- What die d records of a page's backing as it rereads the page's entry (R372, R378): the frame of a cistern entry that
has its home there, what it knew where the page is migrating or the walk has to wait, and else nothing.
(Log 120: DEDUCED) -/
def State.rereadPage (s : State) (d p page : Nat) : Option Backed :=
  let known := (s.die d).backed.find? fun b => b.part == p && b.page == page
  match s.walk p (page * Config.pageSize) with
  | .error .wait => known
  | .error _ => none
  | .ok w =>
    if !s.entryValid p w.level w.entry then none
    else if bits w.entry 9 7 = 4 then known
    else if bits w.entry 9 7 = 1 && bits w.entry 12 10 = d then some { part := p, page := page, frame := entryAddr w.entry }
    else none

/-- The named pages of partition p that die d keeps cistern lines or entries of. -/
def Die.namedPages (x : Die) (p : Nat) (v : Word) : List Nat :=
  (((x.reserved.filter fun r => r.part == p).map (·.page) ++ (x.backed.filter fun b => b.part == p).map (·.page)).eraseDups).filter
    (sdNames v)

/-- The spilled lines of a die whose page now has a frame are written to it, and their entries free (R378). -/
def State.drainSpill (s : State) (d : Nat) : State :=
  (s.die d).spill.foldl (fun s c =>
    match (s.die d).frameOf c.key with
    | some pa =>
      let x := s.die d
      (s.setDie d { x with spill := x.spill.filter fun y => y.key != c.key }).sendFrame (tagPart c.tag) pa c.line
    | none => s) s

/-- CISTERN_REREAD (R378): each die takes up what the entries of the named pages say of their backing. (Log 120: DEDUCED) -/
def State.rereadCisterns (s : State) (p : Nat) (v : Word) : State :=
  s.dies.foldl (fun s (d, x) =>
    let other := x.backed.filter fun b => !(b.part == p && sdNames v b.page)
    let now := (x.namedPages p v).filterMap (s.rereadPage d p)
    (s.setDie d { s.die d with backed := other ++ now }).drainSpill d) s

/-- A shoot-down begins: every core is to acknowledge, and each die rereads the cistern entries. -/
def State.beginShoot (s : State) (key : Nat) (v : Word) : State :=
  let s1 : State := { s with shoots := SMap.set none s.shoots key (some { value := v, cores := List.range Config.cores }) }
  s1.rereadCisterns (shootPart key) v

/-- SHOOTDOWN (R372): a write to PT.SD; while BUSY it only sets SDLOST. -/
def execShootdown (part : Nat) (value : BitVec 64) (s : State) : Host.Outcome State Fault Refusal :=
  let r := partReg part 0x80
  .next (if s.inReset then s
    else if s.field r 44 44 = 1 then s.setField (partReg part 0x88) 2 2 1
    else
      let v := value &&& maskBits 43 0
      (s.setReg r (v ||| maskBits 44 44)).beginShoot part v)

/-- A write through an old entry that holds D = 0: the walker walks again, and marks and logs the entry as it now stands, if
that is one that allows the write (R370, R373). (Log 66: DEDUCED) -/
def State.markOld (s : State) (p va : Nat) : State :=
  match s.walk p va with
  | .error _ => s
  | .ok w =>
    match s.leafCheck p va .write .plain w with
    | .error _ => s
    | .ok () => (s.markEntry p va w true).1

/-- The location of an address that a sector has recorded; a cistern page has its home at the die that holds its
reservation (R301). (Log 66: DEDUCED) -/
def State.recordedLoc (s : State) (a : Nat) : Loc :=
  if isHost a then .host a
  else if isCistern a then
    let p := (a - 2 ^ 104) / 2 ^ 56
    .cistern a (((List.range 8).find? fun d => s.isReserved p (a % 2 ^ 56) d).getD 0) none
  else .frame a none

/-- A dirty sector of stash entry e of core n is written back through the old translation (R291): the one that its core has
cached, else the address recorded when it was filled. A fault is recorded on the entry. (Log 66: DEDUCED) -/
def State.shootSector (s : State) (n e i : Nat) : Except XErr State :=
  let x := (s.coreAt n).stashEntry e
  let ag := stashAgent n x
  let va := x.glob + 16 * i
  let tag := SMap.get nullTag s.tags (s.sectorAddr n e i / 64)
  if !(s.sector n e i).dirty then .ok s
  else if !s.lands tag then .ok ((s.countDrop tag).setSector n e i Sector.none)
  else
    match s.tlbFind ag va, (s.sector n e i).at_ with
    | some w, _ =>
      match (do
        s.leafCheck ag.part va .write .plain w
        (if bits w.entry 3 3 = 1 then s else s.markOld ag.part va).enterLeaf ag va .plain w) with
      | .error (.fault code level _ _) => .ok (s.recordStashFault n e (xlateInfo .write code level true) va)
      | .error err => .error err
      | .ok (s1, l) => s1.writeSector n e i l va
    | none, some a => (s.markOld ag.part va).writeSector n e i (s.recordedLoc a) va
    | none, none => s.writebackSector n e i

/-- The dirty sectors of stash entry e of core n that map named pages are written back; every sector of such a page is then
unfilled (R291). (Log 66: DEDUCED) -/
def State.shootStash (s : State) (n e : Nat) (v : Word) : Except XErr State :=
  let x := (s.coreAt n).stashEntry e
  (x.sectors.filter fun (i, _) => sdNames v ((x.glob + 16 * i) / Config.pageSize)).foldlM (fun (s : State) (i, _) =>
    match s.shootSector n e i with
    | .error err => .error err
    | .ok s1 => .ok (s1.unfill n e i)) s

/-- An update of a WATOMR of partition p that was translated through a named page is still to be made.
(Log 65: DEDUCED) -/
def Core.updatesIn (k : Core) (p : Nat) (v : Word) : Bool :=
  k.jobs.any fun j =>
    match j.what with
    | .reduce _ _ lines _ va =>
      tagPart j.tag == p && (List.range lines.length).any fun i => sdNames v ((va + 64 * i) / Config.pageSize)
    | _ => false

/-- SHOOTDOWN_ACK (R282, R291): the core writes back and unfills its stash sectors of the named pages, drops their
TLB entries, and acknowledges, once no write-back has to wait; the shoot-down is named as in `ownShoot`.
(Log 65: DEDUCED) -/
def execShootdownAck (part core : Nat) (s : State) : Host.Outcome State Fault Refusal :=
  match SMap.get none s.shoots part with
  | none => .next s
  | some x =>
    let p := shootPart part
    let k := s.coreAt core
    if !x.cores.contains core || k.updatesIn p x.value then .next s
    else
      match (k.stash.filter fun (_, y) => tagPart y.tag == p).foldlM (fun (s : State) (e, _) => s.shootStash core e x.value) s with
      | .error (.missing pa) => .fault (.noMemory pa)
      | .error er => .next (s.noteWait p er)
      | .ok s1 =>
        let k1 := s1.coreAt core
        let tlb := k1.tlb.filter fun t => !(t.part == p && sdNamesEntry x.value t)
        let s2 := s1.setCoreAt core { k1 with tlb := tlb }
        .next { s2 with shoots := SMap.set none s2.shoots part (some { x with cores := x.cores.filter (· != core) }) }

/-- SHOOTDOWN_DONE (R372): every agent has acknowledged; BUSY clears and a kind-4 entry is posted. (Log 67: DEDUCED) -/
def execShootdownDone (part : Nat) (s : State) : Host.Outcome State Fault Refusal :=
  .next (match SMap.get none s.shoots part with
    | none => s
    | some x =>
      if part ≥ 64 || !x.cores.isEmpty then s
      else
        match s.post part { page := bits x.value 38 0, die := 0, kind := 4, detail := 0 } with
        | none => s
        | some s1 =>
          ({ s1 with shoots := SMap.set none s1.shoots part none } : State).setField (partReg part 0x80) 44 44 0)

/-- An entry of a migration record keeps to R375: a frame or cistern entry, or for OLD also host memory. -/
def recordEntryOk (e : Word) (old : Bool) : Bool :=
  bits e 63 57 = 0 && bits e 6 6 = 0 &&
  match bits e 9 7 with
  | 0 => bits e 15 10 = 0 && entryAddr e < Config.physLimit
  | 1 => bits e 15 13 = 0 && entryAddr e < Config.physLimit
  | 2 => old && bits e 15 10 = 0
  | _ => false

/-- MIGRATION_START (R376): a write to PT.MIG starts the background pump of a record, or sets MIGBAD. -/
def execMigrationStart (part rec : Nat) (s : State) : Host.Outcome State Fault Refusal :=
  let r := s.recordAddr part rec
  if s.inReset then .next s
  else if r + 256 > Config.physLimit then .fault (.noMemory r)
  else
    let old := s.word64 r
    let new := s.word64 (r + 8)
    let spare := (List.range 12).all fun i => s.word64 (r + 0x20 + 8 * i) == 0
    let ok := bits (s.word64 (r + 0x10)) 1 0 = 0 && recordEntryOk old true && recordEntryOk new false && new.getLsbD 0 && spare
    .next (if ok then { s.putWord (r + 0x10) 1 with moving := s.moving ++ [(part, rec)] } else s.setField (partReg part 0x88) 3 3 1)

/-- The first line of a record that has not moved. -/
def State.nextLine (s : State) (p rec : Nat) : Option Nat := (List.range 1024).find? fun l => !s.lineMoved p rec l

/-- MIGRATION_LINE_MOVE (R376): the background pump moves the lowest line that has not moved. -/
def execMigrationLineMove (part rec : Nat) (s : State) : Host.Outcome State Fault Refusal :=
  let r := s.recordAddr part rec
  if r + 256 > Config.physLimit then .fault (.noMemory r)
  else if bits (s.word64 (r + 0x10)) 1 0 ≠ 1 then .next s
  else
    match s.nextLine part rec with
    | none => .next s
    | some l =>
      match s.moveLine part rec (bits (s.word64 (r + 0x18)) 38 0) l with
      | .ok t => .next t
      | .error (.missing pa) => .fault (.noMemory pa)
      | .error e => .next (s.noteWait part e)

/-- MIGRATION_FINISH (R377): when every line has moved, NEW with the A and D bits of the migrating entry is stored,
and the device shoots the page down. -/
def execMigrationFinish (part rec : Nat) (s : State) : Host.Outcome State Fault Refusal :=
  let r := s.recordAddr part rec
  if r + 256 > Config.physLimit then .fault (.noMemory r)
  else .next (if bits (s.word64 (r + 0x10)) 1 0 ≠ 1 || (s.nextLine part rec).isSome ||
      (SMap.get none s.shoots (ownShoot part rec)).isSome then s
    else
      let page := bits (s.word64 (r + 0x18)) 38 0
      let s1 := match s.walk part (page * Config.pageSize) with
        | .ok w =>
          if bits w.entry 9 7 = 4 && bits w.entry 27 16 = rec then
            s.putWord w.slot (s.word64 (r + 8) ||| (w.entry &&& maskBits 4 3))
          else s
        | .error _ => s
      s1.beginShoot (ownShoot part rec) (BitVec.ofNat 64 page))

/-- MIGRATION_DONE (R377): the device's shoot-down is acknowledged; STATE becomes 2 and kind 3 is posted.
(Log 67: DEDUCED) -/
def execMigrationDone (part rec : Nat) (s : State) : Host.Outcome State Fault Refusal :=
  let r := s.recordAddr part rec
  if r + 256 > Config.physLimit then .fault (.noMemory r)
  else .next (match SMap.get none s.shoots (ownShoot part rec) with
    | none => s
    | some x =>
      if !x.cores.isEmpty then s
      else
        match s.post part { page := bits x.value 38 0, die := 0, kind := 3, detail := rec } with
        | none => s
        | some s1 =>
          let s2 := s1.putWord (r + 0x10) (putBits (s1.word64 (r + 0x10)) 1 0 2)
          { s2 with shoots := SMap.set none s2.shoots (ownShoot part rec) none,
                    moving := s2.moving.filter (· != (part, rec)) })

end Sys2Proof.Machine
end

