-- ==== Sys2Proof/Machine/Sweep.lean ====
section
/-! DEFINITION. The sump sweeper (R391, R392): its passes, and what a visit does to an element. -/

namespace Sys2Proof.Machine

/-- The tag of a memory line as a visit leaves it. -/
def State.sweepLine (s : State) (line : Nat) : State :=
  { s with tags := SMap.set nullTag s.tags line (s.sweepTag (SMap.get nullTag s.tags line)) }

/-- Core n with a function applied. -/
def State.updCore (s : State) (n : Nat) (f : Core → Core) : State := s.setCoreAt n (f (s.coreAt n))

/-- The tag of one element rewritten if it is stale (R391): no data bit, poison, dirty or valid state changes. -/
def State.sweepAt (s : State) (e : SweepElem) : State :=
  let f := s.sweepTag
  match e with
  | .ctx n x => let t := s.taskAt n x; s.setTaskAt n x { t with tag := f t.tag }
  | .result n x i => let t := s.taskAt n x
    s.setTaskAt n x { t with results := t.results.mapIdx fun j r => if j = i then { r with tag := f r.tag } else r }
  | .vreg n i => s.updCore n fun k =>
    let r := SMap.get VReg.zero k.v i
    { k with v := SMap.set VReg.zero k.v i { r with tag := f r.tag } }
  | .accRow n i => s.updCore n fun k =>
    let r := SMap.get AccRow.zero k.acc i
    { k with acc := SMap.set AccRow.zero k.acc i { r with tag := f r.tag } }
  | .scale n i => s.updCore n fun k =>
    let r := SMap.get XReg.zero k.x i
    { k with x := SMap.set XReg.zero k.x i { r with tag := f r.tag } }
  | .plane n i => s.updCore n fun k =>
    let r := SMap.get VReg.zero k.planes i
    { k with planes := SMap.set VReg.zero k.planes i { r with tag := f r.tag } }
  | .latch n i => s.updCore n fun k =>
    let r := SMap.get LatchRow.zero k.latch i
    { k with latch := SMap.set LatchRow.zero k.latch i { r with tag := f r.tag } }
  | .localLine n l => s.sweepLine (localAddr n (64 * l) / 64)
  | .partLine n key => s.updCore n fun k =>
    { k with cachePart := k.cachePart.map fun (l, t) => (l, if l = key then f t else t) }
  | .tile n i => s.updCore n fun k => let t := k.tile i; k.setTile i { t with tag := f t.tag }
  | .stash n i => s.updCore n fun k => let x := k.stashEntry i; k.setStash i { x with tag := f x.tag }
  | .queue q k => let x := s.queue q k; s.setQueue q k { x with tag := f x.tag }
  | .queueEntry q k i =>
    let x := s.queue q k
    let r := SMap.get VReg.zero x.entries i
    s.setQueue q k { x with entries := SMap.set VReg.zero x.entries i { r with tag := f r.tag } }
  | .quadBarrier q b =>
    let x := SMap.get Barrier.reset s.quadBars (16 * q + b)
    { s with quadBars := SMap.set Barrier.reset s.quadBars (16 * q + b) { x with tag := f x.tag } }
  | .dieBarrier d b =>
    let x := SMap.get Barrier.reset s.dieBars (16 * d + b)
    { s with dieBars := SMap.set Barrier.reset s.dieBars (16 * d + b) { x with tag := f x.tag } }
  | .cacheLine d key =>
    let die := s.die d
    s.setDie d { die with lines := die.lines.map fun c => if c.key == key then { c with tag := f c.tag } else c }
  | .spillEntry d key =>
    let die := s.die d
    s.setDie d { die with spill := die.spill.map fun c => if c.key == key then { c with tag := f c.tag } else c }
  | .hbmLine l => s.sweepLine l

/-- SWEEP_PASS_START (R392): a pass is owed and none runs. -/
def execSweepPassStart (s : State) : Host.Outcome State Fault Refusal :=
  .next (if s.sweeper.owed && !s.sweeper.running then s.startPass else s)

/-- SWEEP_ELEMENT (R391): the running pass visits an element that it has not visited. -/
def execSweepElement (e : SweepElem) (s : State) : Host.Outcome State Fault Refusal :=
  .next (if !s.sweeper.running || !s.sweeper.todo.contains e then s
    else
      let s1 := s.sweepAt e
      { s1 with sweeper := { s1.sweeper with todo := s1.sweeper.todo.erase e } })

/-- Every partition's BASE is the generation that it held when the pass began (R392). -/
def State.rebase (s : State) : State :=
  (List.range 64).foldl (fun s p => s.setTen p { s.ten p with base := SMap.get 0 s.sweeper.startGens p }) s

/-- SWEEP_PASS_COMPLETE (R392, R390): after the last element, once no operation under a stale tag is outstanding.
(Log 47: DEDUCED) -/
def execSweepPassComplete (s : State) : Host.Outcome State Fault Refusal :=
  .next (if !s.sweeper.running || !s.sweeper.todo.isEmpty || (List.range 64).any (fun p => s.oldOps p ≠ 0) then s
    else
      let s1 := s.rebase
      let s2 : State := { s1 with sweeper := { s1.sweeper with running := false, passes := s1.sweeper.passes + 1 } }
      (List.range 64).foldl (fun s p => if (s.ten p).closed then s.stepNow p else s) s2)

end Sys2Proof.Machine
end

