-- ==== Sys2Proof/Machine/Graph.lean ====
section
/-! DEFINITION. The graph search engines (R336 to R350): packets, distances and their order, the search in
rounds, forwarded requests, results and completion. -/

namespace Sys2Proof.Machine

/-- What reading a record or another structure of a graph gives: bytes with their home stack, the DETAIL of a
fault (R345), a wait, or memory that does not exist. -/
inductive GRead where
  | ok (s : State) (stack : Nat) (bs : List Byte)
  | bad (detail : Nat)
  | wait
  | missing (pa : Nat)

/-- The agent of a query (R339). -/
def Query.agent (q : Query) : Agent := { part := q.part, tag := q.tag, core := none }

/-- The faults of a record (R345): 3 where its page has no frame, 1 where it has no translation. -/
def XErr.graph : XErr → GRead
  | .fault code _ _ _ => .bad (if code = 4 || code = 6 || code = 5 then 3 else 1)
  | .missing pa => .missing pa
  | _ => .wait

/-- n bytes from va, line by line, each from a page with a frame (R309, R337); the home stack is that of the first. -/
def State.graphLines (s : State) (q : Query) (va n : Nat) : Nat → GRead
  | 0 => .ok s 0 []
  | fuel + 1 =>
    let m := min n (64 - va % 64)
    match s.readAt q.agent va m .read .graph with
    | .error e => e.graph
    | .ok (s1, x, .frame pa k) =>
      if x.poison then .bad 2
      else
        let bs := s1.seenBytes q.agent.tag (.frame pa k) x (va % 64) m
        if n = m then .ok s1 (stackOf pa) bs
        else
          match s1.graphLines q (va + m) (n - m) fuel with
          | .ok s2 _ rest => .ok s2 (stackOf pa) (bs ++ rest)
          | stop => stop
    | .ok _ => .bad 3

/-- n bytes from va under a query's translation and tag, with the home stack of va (R337, R339). -/
def State.graphRead (s : State) (q : Query) (va n : Nat) : GRead := s.graphLines q va n (n / 64 + 2)

/-- A field of a little-endian structure. -/
def fieldAt (bs : List Byte) (off n : Nat) : Nat := ofBytes ((bs.drop off).take n)

def Query.metric (q : Query) : Nat := fieldAt q.packet 8 1
def Query.k (q : Query) : Nat := fieldAt q.packet 0x0A 2
def Query.l (q : Query) : Nat := fieldAt q.packet 0x0C 2
def Query.nentry (q : Query) : Nat := fieldAt q.packet 0x0E 1
def Query.vecAt (q : Query) : Nat := fieldAt q.packet 0x10 8
def Query.result (q : Query) : Nat := fieldAt q.packet 0x18 8
def Query.done (q : Query) : Nat := fieldAt q.packet 0x20 8
def Query.entry (q : Query) (i : Nat) : Nat := fieldAt q.packet (0x28 + 4 * i) 4

/-- The checks of R340 that the packet alone decides: codes 1 to 3. -/
def Query.packetCode (q : Query) : Nat :=
  let spare := (List.range 8).any fun i => min q.nentry 8 ≤ i && q.entry i ≠ 0
  if fieldAt q.packet 9 1 ≠ 0 || fieldAt q.packet 15 1 ≠ 0 || fieldAt q.packet 0x48 184 ≠ 0 || spare then 1
  else if q.metric > 1 || q.k < 1 || q.k > 256 || q.l > 1024 || q.nentry < 1 || q.nentry > 8 || q.k > q.l then 2
  else if fieldAt q.packet 0 8 % 64 ≠ 0 || q.vecAt % 64 ≠ 0 || q.result % 8 ≠ 0 || q.done % 8 ≠ 0 then 3
  else 0

/-- The format of a graph's vectors (R336). -/
def graphFmt : Nat → Option Fmt
  | 0 => some .f32 | 1 => some .bf16 | 2 => some .f16 | 3 => some .e4m3 | 8 => some .i8
  | _ => none

/-- A power of two from 64 to 65,536. -/
def recSizeOk (n : Nat) : Bool := (List.range 11).any fun i => n == 64 * 2 ^ i

/-- A query with the fields of its graph's descriptor; none where the descriptor breaks R336. -/
def Query.withGraph (q : Query) (d : List Byte) : Option Query :=
  match graphFmt (fieldAt d 6 1) with
  | none => none
  | some f =>
    let x : Query := { q with fmt := f, dim := fieldAt d 8 2, deg := fieldAt d 0x0A 2, nvert := fieldAt d 0x0C 4,
                              recBase := fieldAt d 0x10 8, recSize := fieldAt d 0x18 4, nbrOff := fieldAt d 0x1C 4 }
    let ok := fieldAt d 0 4 = 0x52474E47 && fieldAt d 4 2 = 1 && fieldAt d 7 1 = 0 && fieldAt d 0x20 32 = 0 &&
      1 ≤ x.dim && x.dim ≤ 2048 && 1 ≤ x.deg && x.deg ≤ 255 && 1 ≤ x.nvert && x.nvert ≤ 0xFFFFFFFE && recSizeOk x.recSize &&
      x.recBase % x.recSize = 0 && x.nbrOff % 4 = 0 && x.dim * (fmtWidth f / 8) ≤ x.nbrOff && x.nbrOff + 4 + 4 * x.deg ≤ x.recSize
    if ok then some x else none

/-- The elements of a vector of a format from its bytes. -/
def vectorOf (f : Fmt) (dim : Nat) (bs : List Byte) : List Nat :=
  let z := fmtWidth f / 8
  (List.range dim).map fun i => fieldAt bs (z * i) z

/-- One block of up to 32 elements (R341): an exact sum that starts empty. -/
def blockSum (metric : Nat) (f : Fmt) (q x : List Nat) : XVal :=
  xsum .rne ((q.zip x).map fun (a, b) =>
    let u := codeVal f a
    let v := codeVal f b
    if metric = 0 then let d := xadd .rne u (xneg v); xmul d d else xmul u v)

/-- The sum over blocks, each rounded and added under RNE (R341). -/
def distFrom (metric : Nat) (f : Fmt) (acc : Nat) (q x : List Nat) : Nat → Nat
  | 0 => acc
  | n + 1 =>
    if q.isEmpty then acc
    else
      let blk := round .f32 .rne false (blockSum metric f (q.take 32) (x.take 32))
      distFrom metric f (addF32 .rne acc blk) (q.drop 32) (x.drop 32) n

/-- The distance from a query's vector to a vertex's, as FP32 bits (R341). -/
def distance (metric : Nat) (f : Fmt) (q x : List Nat) : Nat :=
  let d := distFrom metric f 0 q x (q.length / 32 + 1)
  if metric = 1 then round .f32 .rne false (xneg (floatVal .f32 d)) else d

/-- The order of candidates (R342). -/
def Cand.before (a b : Cand) : Bool :=
  let x := floatVal .f32 a.dist
  let y := floatVal .f32 b.dist
  if isNaN x then isNaN y && a.id < b.id
  else if isNaN y then true
  else
    match xcmp x y with
    | .lt => true
    | .gt => false
    | .eq => a.id < b.id

/-- A candidate placed in key order. -/
def insertCand (c : Cand) : List Cand → List Cand
  | [] => [c]
  | d :: ds => if c.before d then c :: d :: ds else d :: insertCand c ds

/-- The address of a vertex's record (R337). -/
def Query.record (q : Query) (v : Nat) : Nat := q.recBase + v * q.recSize

def State.setQuery (s : State) (stack slot : Nat) (q : Query) : State :=
  let e := s.engine stack
  s.setEngine stack { e with slots := SMap.set none e.slots slot (some q) }

/-- The query in a slot that is running here. -/
def State.liveQuery (s : State) (stack slot : Nat) : Option Query :=
  match (s.engine stack).query slot with
  | some q => if q.running && q.arrived then some q else none
  | none => none

/-- A class-9 record of a query (R345, R347, R431). (Log 74: DEDUCED) -/
def State.logGraph (s : State) (stack : Nat) (q : Query) (addr status detail extra : Nat) : State :=
  s.logError 9 0 false 3 stack (2 ^ q.part) addr (status + detail * 2 ^ 8 + extra)

/-- The completion word of a query (R347). -/
def Query.word (q : Query) (status detail : Nat) : Nat :=
  let nres := if status = 3 then 0 else min q.k q.cands.length
  let nvis := if status = 3 then 0 else q.visited.length
  status + detail * 2 ^ 8 + nres * 2 ^ 16 + nvis * 2 ^ 32

/-- The completion word is written, or is lost and reported, and the slot is free (R340, R347); where the write has to wait,
it is made again. (Log 74: DEDUCED) -/
def State.finishQuery (s : State) (stack slot : Nat) (q : Query) (status detail : Nat) : State :=
  let a := q.done
  let free := fun (t : State) =>
    t.setQuery stack slot { q with running := false, round := none, ending := none, status := status, detail := detail }
  let lost := fun (t : State) => free (t.logGraph stack q a status detail (2 ^ 16))
  if a % 8 ≠ 0 then lost s
  else
    match s.tryWrite q.agent a (toBytes 8 (q.word status detail)) with
    | .done t _ => if s.poisonedAt q.agent a then lost t else free t
    | .fails => lost s
    | .wait t => t.setQuery stack slot { q with round := none, ending := some (status, detail), written := q.k, lost := false }

/-- The queries of an engine whose packets have come in and are still to be taken up, with their slots, the lowest first. -/
def State.packetSlots (s : State) (stack : Nat) : List (Nat × Query) :=
  (List.range 64).filterMap fun i =>
    match s.liveQuery stack i with
    | some q => if q.dim = 0 && q.ending.isNone then some (i, q) else none
    | none => none

/-- What becomes of a query packet at its home engine (R339, R340): refused with a code, accepted, or to wait. -/
inductive Admission where
  | refuse (code : Nat)
  | accept (s : State) (q : Query)
  | wait
  | missing (pa : Nat)

/-- The descriptor and query vector are read once; the lowest code of R340 decides. -/
def State.takeQuery (s : State) (q : Query) : Admission :=
  if q.packetCode ≠ 0 then .refuse q.packetCode
  else
    match s.graphRead q (fieldAt q.packet 0 8) 64 with
    | .bad _ => .refuse 6
    | .wait => .wait
    | .missing pa => .missing pa
    | .ok s1 _ d =>
      match q.withGraph d with
      | none => .refuse 4
      | some x =>
        if (List.range x.nentry).any fun i => x.entry i ≥ x.nvert then .refuse 5
        else
          match s1.graphRead x x.vecAt (x.dim * (fmtWidth x.fmt / 8)) with
          | .ok s2 _ bs => .accept s2 { x with qvec := vectorOf x.fmt x.dim bs }
          | .bad _ => .refuse 6
          | .missing pa => .missing pa
          | .wait => .wait

/-- A query packet is taken up, unless its reads wait for earlier jobs of its task (R313) or its memory makes it wait. -/
def State.takeUp (s : State) (stack i : Nat) (q : Query) : Option (Host.Outcome State Fault Refusal) :=
  let f := q.footprint
  if s.jobBlocked q.core q.ctx q.order f.reads f.writes then none
  else
    match s.takeQuery q with
    | .refuse c => some (.next (s.finishQuery stack i q 3 c))
    | .accept t x => some (.next (t.setQuery stack i x))
    | .wait => none
    | .missing pa => some (.fault (.noMemory pa))

/-- GSE_QUERY_PACKET (R339, R340): the home engine accepts or refuses the packet in its lowest slot that need not wait. -/
def execGseQueryPacket (stack : Nat) (s : State) : Host.Outcome State Fault Refusal :=
  ((s.packetSlots stack).findSome? fun (i, q) => s.takeUp stack i q).getD (.next s)

/-- A query ends with a status and DETAIL; the round is discarded (R345). -/
def State.endQuery (s : State) (stack slot : Nat) (q : Query) (status detail vertex : Nat) : State :=
  let s1 := s.setQuery stack slot { q with round := none, ending := some (status, detail) }
  if status = 4 then s1.logGraph stack q (q.record vertex) status detail 0 else s1

/-- The neighbour list of a vertex as its record holds it (R337, R344): a count above DEG is fault 4. -/
def State.readList (s : State) (q : Query) (v : Nat) : GRead :=
  match s.graphRead q (q.record v + q.nbrOff) 4 with
  | .ok s1 st bs =>
    let n := ofBytes bs
    if n > q.deg then .bad 4
    else
      match s1.graphRead q (q.record v + q.nbrOff + 4) (4 * n) with
      | .ok s2 _ ids => .ok s2 st ids
      | x => if n = 0 then .ok s1 st [] else x
  | x => x

/-- The vector of a vertex. -/
def State.readVertex (s : State) (q : Query) (v : Nat) : GRead :=
  s.graphRead q (q.record v) (q.dim * (fmtWidth q.fmt / 8))

/-- The home stack of a vertex's record (R337). -/
def State.homeOf (s : State) (q : Query) (v : Nat) : GRead :=
  match s.translate q.agent (q.record v) .read .graph with
  | .error e => e.graph
  | .ok (s1, .frame pa _) => .ok s1 (stackOf pa) []
  | .ok _ => .bad 3

/-- What an engine step gives: a state, nothing yet, or memory that does not exist. -/
abbrev GStep := Except (Option Nat) State

/-- What a request for a vertex brings back to its round: a neighbour list, or the distance at a place. -/
def Round.answer (r : Round) (q : Query) (dist : Bool) (place v : Nat) : GRead → Round
  | .ok _ _ bs =>
    if dist then { r with dists := r.dists ++ [(place, distance q.metric q.fmt q.qvec (vectorOf q.fmt q.dim bs))] }
    else { r with list := some ((List.range (bs.length / 4)).map fun i => fieldAt bs (4 * i) 4) }
  | .bad d => { r with faults := r.faults ++ [(place, d, v)], list := if dist then r.list else some [] }
  | _ => r

/-- A record is asked for: of the engine's own stack it is read now, of another it is forwarded (R337, R339).
(Log 73: DESIGN CHOICE) -/
def State.askFor (s : State) (stack slot : Nat) (q : Query) (r : Round) (dist : Bool) (place v : Nat) :
    Except (Option Nat) (State × Round) :=
  match s.homeOf q v with
  | .wait => .error none
  | .missing pa => .error (some pa)
  | .bad d => .ok (s, r.answer q dist place v (.bad d))
  | .ok s1 home _ =>
    if home ≠ stack then
      let e := s1.engine home
      let req : GReq := { home := stack, slot := slot, vertex := v, dist := dist, place := place }
      .ok (s1.setEngine home { e with requests := e.requests ++ [req] }, { r with waiting := r.waiting + 1 })
    else
      match (if dist then s1.readVertex q v else s1.readList q v) with
      | .wait => .error none
      | .missing pa => .error (some pa)
      | .ok s2 st bs => .ok (s2, r.answer q dist place v (.ok s2 st bs))
      | .bad d => .ok (s1, r.answer q dist place v (.bad d))

/-- The ids of a list that are new (R343), or how the query ends at one of them. -/
def newIds (q : Query) (u : Nat) : List Nat → List Nat → Except (Nat × Nat × Nat) (List Nat)
  | fresh, [] => .ok fresh
  | fresh, n :: ns =>
    if n ≥ q.nvert then .error (4, 5, u)
    else if q.visited.contains n || fresh.contains n then newIds q u fresh ns
    else if q.visited.length + fresh.length = 8192 then .error (2, 0, u)
    else newIds q u (fresh ++ [n]) ns

/-- Every distance of a round is asked for, in order. -/
def State.askDistances (s : State) (stack slot : Nat) (q : Query) (r : Round) (fresh : List Nat) :
    Except (Option Nat) (State × Round) :=
  fresh.zipIdx.foldlM (fun (s, r) (v, i) => State.askFor s stack slot q r true i v) (s, { r with fresh := some fresh })

/-- The fault of a round that the pseudocode meets first. -/
def Round.firstFault (r : Round) : Option (Nat × Nat × Nat) :=
  r.faults.foldl (fun best f => match best with
    | some b => if f.1 < b.1 then some f else some b
    | none => some f) none

/-- A whole round takes effect (R343): u is expanded, the new vertices are visited, and the list is trimmed. -/
def Query.commit (q : Query) (r : Round) (fresh : List Nat) : Query :=
  let marked := match r.u with
    | some u => q.cands.map fun c => if c.id = u then { c with done := true } else c
    | none => q.cands
  let added := fresh.zipIdx.map fun (v, i) =>
    ({ dist := ((r.dists.find? fun d => d.1 == i).map (·.2)).getD 0, id := v, done := false } : Cand)
  { q with visited := q.visited ++ fresh, cands := (added.foldl (fun cs c => insertCand c cs) marked).take q.l, round := none }

/-- A round goes on as far as what has come back lets it (R343, R345). (Log 73: DESIGN CHOICE) -/
def State.advance (s : State) (stack slot : Nat) (q : Query) (r : Round) : GStep := do
  let hold := fun (s : State) (r : Round) => s.setQuery stack slot { q with round := some r }
  if r.waiting ≠ 0 then return hold s r
  match r.fresh, r.list with
  | none, none => return hold s r
  | none, some ids =>
    match r.firstFault with
    | some (_, d, v) => return s.endQuery stack slot q 4 d v
    | none =>
      match newIds q (r.u.getD 0) [] ids with
      | .error (st, d, v) => return s.endQuery stack slot q st d v
      | .ok fresh =>
        let (s1, r1) ← s.askDistances stack slot q r fresh
        if r1.waiting ≠ 0 then return hold s1 r1
        match r1.firstFault with
        | some (_, d, v) => return s1.endQuery stack slot q 4 d v
        | none => return s1.setQuery stack slot (q.commit r1 fresh)
  | some fresh, _ =>
    match r.firstFault with
    | some (_, d, v) => return s.endQuery stack slot q 4 d v
    | none => return s.setQuery stack slot (q.commit r fresh)

def Round.open (u : Option Nat) : Round := { u := u, list := none, fresh := none, dists := [], waiting := 0, faults := [] }

/-- The next round of a query begins: its entry points first, then the first candidate that is not expanded, until
none is left or the K-th is nearer (R343). -/
def State.openRound (s : State) (stack slot : Nat) (q : Query) : GStep :=
  if q.visited.isEmpty then
    let entries := (List.range q.nentry).foldl (fun es i => if es.contains (q.entry i) then es else es ++ [q.entry i]) []
    s.advance stack slot q { Round.open none with list := some entries }
  else
    match q.cands.findIdx? fun c => !c.done with
    | none => .ok (s.endQuery stack slot q 1 0 0)
    | some i =>
      if q.cands.length ≥ q.k && i > q.k - 1 then .ok (s.endQuery stack slot q 1 0 0)
      else
        let u := (q.cands.getD i { dist := 0, id := 0, done := false }).id
        match s.askFor stack slot q (Round.open (some u)) false 0 u with
        | .error e => .error e
        | .ok (s1, r) => s1.advance stack slot q r

/-- A slot's query has a round to begin or to go on with. -/
def State.roundReady (s : State) (stack slot : Nat) : Option Query :=
  match s.liveQuery stack slot with
  | some q =>
    if q.dim = 0 || q.ending.isSome then none
    else match q.round with
      | some r => if r.waiting = 0 then some q else none
      | none => some q
  | none => none

/-- The next thing that a query does with its rounds. -/
def State.graphStep (s : State) (stack slot : Nat) : GStep :=
  match s.roundReady stack slot with
  | none => .error none
  | some q =>
    match q.round with
    | some r => s.advance stack slot q r
    | none => s.openRound stack slot q

/-- The outcome of an engine step; one that is not ready leaves the state. -/
def GStep.run (x : GStep) (s : State) : Host.Outcome State Fault Refusal :=
  match x with
  | .ok t => .next t
  | .error none => .next s
  | .error (some pa) => .fault (.noMemory pa)

/-- GSE_ROUND (R343): the query expands its next candidate, or goes on with the round that waited.
(Log 73: DESIGN CHOICE) -/
def execGseRound (stack slot : Nat) (s : State) : Host.Outcome State Fault Refusal :=
  (s.graphStep stack slot).run s

/-- The oldest forwarded request of an engine is served, and its answer goes back to the query's round (R337,
R339). -/
def State.serveRequest (s : State) (stack : Nat) : GStep :=
  match (s.engine stack).requests with
  | [] => .error none
  | req :: rest =>
    let e := s.engine stack
    match s.liveQuery req.home req.slot with
    | none => .ok (s.setEngine stack { e with requests := rest })
    | some q =>
      match q.round with
      | none => .ok (s.setEngine stack { e with requests := rest })
      | some r =>
        let back := fun (s : State) (x : GRead) =>
          let s1 := s.setEngine stack { (s.engine stack) with requests := rest }
          s1.setQuery req.home req.slot { q with round := some { r.answer q req.dist req.place req.vertex x with waiting := r.waiting - 1 } }
        match (if req.dist then s.readVertex q req.vertex else s.readList q req.vertex) with
        | .wait => .error none
        | .missing pa => .error (some pa)
        | .ok s1 st bs => .ok (back s1 (.ok s1 st bs))
        | .bad d => .ok (back s (.bad d))

/-- GSE_FORWARDED_REQUEST (R337, R339). -/
def execGseForwardedRequest (stack : Nat) (s : State) : Host.Outcome State Fault Refusal := (s.serveRequest stack).run s

/-- Result entry j (R346). -/
def Query.resultEntry (q : Query) (j : Nat) : List Byte :=
  match q.cands[j]? with
  | some c => toBytes 4 c.dist ++ toBytes 4 c.id
  | none => toBytes 4 0x7FC00000 ++ toBytes 4 0xFFFFFFFF

/-- A query that has ended writes its next result entry, each a write of its own; after the last, entries that
were lost are reported and the completion word is written (R346, R347). (Log 74: DEDUCED) -/
def State.writeResult (s : State) (stack slot : Nat) : GStep :=
  match s.liveQuery stack slot with
  | none => .error none
  | some q =>
    match q.ending with
    | none => .error none
    | some (status, detail) =>
      if q.written < q.k then
        let a := q.result + 8 * q.written
        match s.writeSpan q.agent a (q.resultEntry q.written) 2 with
        | .ok t => .ok (t.setQuery stack slot { q with written := q.written + 1, lost := q.lost || s.poisonedAt q.agent a })
        | .error (.fault _ _ _ _) => .ok (s.setQuery stack slot { q with written := q.written + 1, lost := true })
        | .error (.missing pa) => .error (some pa)
        | .error e => .ok (s.noteWait q.part e)
      else
        let s1 := if q.lost then s.logGraph stack q q.result status detail (2 ^ 17) else s
        .ok (s1.finishQuery stack slot q status detail)

/-- GSE_QUERY_COMPLETE (R346, R347): the next write of a query that has ended. -/
def execGseQueryComplete (stack slot : Nat) (s : State) : Host.Outcome State Fault Refusal := (s.writeResult stack slot).run s

end Sys2Proof.Machine
end

