-- ==== Sys2Proof/Machine/Image.lean ====
section
/-! DEFINITION. SAVE and RESTORE (R398 to R405): the saved image in a partition's context area. The spec fixes the
header, the task records and the live state byte by byte; in sections 4 to 7 it names what each record holds, and
here each such value is a word of 8 bytes, in the order named, behind a count. -/

namespace Sys2Proof.Machine

/-- One byte into a CRC-32C, bit by bit. -/
def crcByte (crc b : Nat) : Nat :=
  (List.range 8).foldl (fun c _ => if c % 2 = 1 then (c / 2) ^^^ 0x82F63B78 else c / 2) (crc ^^^ b)

/-- CRC-32C of bytes (R400). -/
def crc32c (bs : List Byte) : Nat := (bs.foldl (fun c b => crcByte c b.toNat) 0xFFFFFFFF) ^^^ 0xFFFFFFFF

/-- A number as a word of 8 bytes. (Log 59: DEDUCED) -/
def w8 (n : Nat) : List Byte := toBytes 8 n

/-- Bytes padded with zeros to a multiple of 64. -/
def pad64 (bs : List Byte) : List Byte := bs ++ List.replicate ((64 - bs.length % 64) % 64) 0

/-- A count and the records that follow it. -/
def listOf {α : Type} (f : α → List Byte) (xs : List α) : List Byte := w8 xs.length ++ xs.flatMap f

def flag (b : Bool) : Nat := if b then 1 else 0

/-- The stack position and S of the LOOP.P level (R402). -/
def Task.pipeline (t : Task) : Nat × Nat :=
  match t.loops.findIdx? fun l => l.stages.isSome with
  | some i => (t.loops.length - 1 - i, ((t.loops[i]?).bind (·.stages)).getD 0)
  | none => (7, 0)

/-- The 2,560 bytes of a task record (R402). (Log 62: DEDUCED) -/
def Task.record (t : Task) (x : Nat) : List Byte :=
  let flags := flag t.overran + 2 * flag t.liveBad + 4 * flag t.rstpFail.isSome
  let head := t.coreId.toNat + x * 2 ^ 8 + t.prio.toNat * 2 ^ 12 + t.eff.toNat * 2 ^ 14 + flags * 2 ^ 16 +
    t.parkThresh.toNat * 2 ^ 24 + t.stopped.getD 0 % 2 ^ 22 * 2 ^ 40
  let (pos, stages) := t.pipeline
  let seen := (List.range 32).foldl (fun m b => m + flag (SMap.get false t.barSeen b) * 2 ^ b) 0
  let phases := (List.range 32).flatMap fun b =>
    toBytes 2 (if SMap.get false t.barSeen b then (SMap.get (0 : BitVec 16) t.barPhase b).toNat else 0)
  let levels := (List.range 6).flatMap fun l =>
    match t.level l with
    | some v => w8 v.count.toNat ++ w8 v.index.toNat ++ w8 v.endAddr.toNat ++ w8 v.body.toNat
    | none => List.replicate 32 0
  let fail := match t.rstpFail with
    | some f => w8 (f.code.toNat + f.node.toNat * 2 ^ 8) ++ w8 f.addr.toNat
    | none => List.replicate 16 0
  w8 head ++ w8 t.pc.toNat ++ w8 t.cycle.toNat ++ w8 (t.loops.length + pos * 2 ^ 3 + stages * 2 ^ 6) ++
    w8 (t.trap.cause.toNat + t.trap.slots.toNat * 2 ^ 8) ++ w8 t.trap.pc.toNat ++ w8 t.trap.addr.toNat ++
    w8 t.trap.info.toNat ++ w8 t.vec.toNat ++ toBytes 4 seen ++ List.replicate 20 0 ++ phases ++ levels ++
    ((List.range 192).flatMap fun i => toBytes 4 (SMap.get (0 : BitVec 32) t.delta i).toNat) ++
    ((List.range 64).flatMap fun i => w8 (t.scalar (.s (BitVec.ofNat 6 i))).toNat) ++
    ((List.range 32).flatMap fun i => w8 (SMap.get (0 : Word) t.a i).toNat) ++
    ((List.range 16).flatMap fun i => toBytes 32 (t.pred (BitVec.ofNat 4 i)).toNat) ++ fail ++
    toBytes 4 t.volleyFault.toNat ++ toBytes 4 (t.vsendLast.toNat + t.vlatchLast.toNat * 2 ^ 8) ++ List.replicate 136 0

/-- A live-state item (R401). -/
def LiveItem.bytes (i : LiveItem) : List Byte :=
  let place := if i.kind = 9 then i.first * 2 ^ 40 else i.first * 2 ^ 16 + i.last * 2 ^ 28
  w8 (i.kind + i.ctx * 2 ^ 4 + i.core * 2 ^ 8 + place) ++ w8 i.size ++ i.data

def queueBytes (r : Nat × Nat × Queue) : List Byte :=
  let (quad, k, q) := r
  w8 quad ++ w8 k ++ w8 q.fill ++ w8 q.formats.toNat ++ w8 q.prod.toNat ++ w8 q.cons.toNat ++
    (List.range q.fill).flatMap fun j => toBytes 1024 (SMap.get VReg.zero q.entries ((q.rd.toNat + j) % 8)).data.toNat

/-- (Log 59: DEDUCED) -/
def tileWords (r : Nat × Nat × Tile) : List Byte :=
  let (n, e, t) := r
  w8 n ++ w8 e ++ w8 t.base ++ w8 t.handle.toNat ++ w8 t.lvl.toNat ++ w8 t.ac.toNat ++ w8 t.n.toNat ++ w8 t.rows ++
    w8 (flag t.pair) ++ w8 (flag t.bound) ++ w8 t.ctx ++ listOf (fun (c : BitVec 32) => w8 c.toNat) t.coords ++
    w8 (flag (t.st == .ready)) ++ w8 (flag t.volley) ++ w8 t.order ++
    match t.queued with
    | some (o, coords) => w8 1 ++ w8 o ++ listOf (fun (c : BitVec 32) => w8 c.toNat) coords
    | none => w8 0

/-- (Log 59: DEDUCED) -/
def stashBytes (r : Nat × Nat × Stash) : List Byte :=
  let (n, e, x) := r
  w8 n ++ w8 e ++ w8 x.base ++ w8 x.size ++ w8 x.glob

def kindCode : PumpKind → Nat
  | .copy => 1 | .transpose => 2 | .reduce => 3

def optBytes (o : Option Word) : List Byte := match o with | some w => w8 1 ++ w8 w.toNat | none => w8 0 ++ w8 0

def jobBytes (j : PumpJob) : List Byte :=
  w8 j.id.toNat ++ w8 (kindCode j.kind) ++ w8 j.ctx ++ w8 j.ccbAddr.toNat ++ w8 (flag j.started) ++ w8 j.position ++ w8 j.order ++
    optBytes j.through ++ lineToBytes j.ccb

/-- (Log 59: DEDUCED) -/
def pumpBytes (c : SavedPump) : List Byte :=
  let p := c.pump
  w8 c.core ++ w8 c.ch ++ w8 p.next.toNat ++ w8 p.below.toNat ++ w8 p.status.toNat ++ w8 p.failId.toNat ++ w8 p.failAddr.toNat ++
    w8 p.failInfo.toNat ++ listOf jobBytes p.jobs

def sendBytes (r : Nat × Send) : List Byte :=
  let (n, v) := r
  w8 n ++ w8 v.ctx ++ w8 v.mask.toNat ++ w8 v.num.toNat ++ w8 v.off ++ w8 v.len ++ w8 v.order

def latchRecord (r : Nat × Latch) : List Byte :=
  let (n, l) := r
  let dest := match l.dest with | .range a => w8 0 ++ w8 a | .tile e => w8 1 ++ w8 e
  w8 n ++ w8 l.ctx ++ dest ++ w8 l.sender.toNat ++ w8 l.num.toNat ++ w8 l.order

def barBytes (r : Nat × Nat × Barrier) : List Byte :=
  let (n, b, x) := r
  w8 n ++ w8 b ++ w8 x.expected ++ w8 x.arrived ++ w8 x.phase.toNat

def Ring.bytes (r : Ring) : List Byte := w8 r.base.toNat ++ w8 r.slot ++ w8 r.cnt

def entryBytes (e : RallyEntry) : List Byte :=
  w8 e.kind ++ w8 e.nin ++ w8 e.nout ++ w8 e.mb ++ w8 e.image.toNat ++ w8 e.arg.toNat

/-- Section 6 (R321, R401). (Log 59: DEDUCED) -/
def Rally.bytes (r : Rally) : List Byte :=
  w8 (flag r.priv) ++ w8 r.st ++ w8 r.head ++ w8 r.stashLim ++ w8 r.dnNode.toNat ++ w8 r.upNode.toNat ++ r.fin.bytes ++
    r.bin.bytes ++ r.dn.bytes ++ r.up.bytes ++ w8 r.trBase.toNat ++ w8 r.trLen ++ w8 r.errRec.toNat ++ w8 r.fillF ++
    w8 r.fillB ++ w8 r.freeDn ++ w8 r.freeUp ++ w8 r.rdF ++ w8 r.rdB ++ w8 r.wrDn ++ w8 r.wrUp ++ w8 r.stash ++
    listOf w8 r.bubbles ++ w8 r.errs.toNat ++ w8 r.errEntry ++ w8 r.traced ++ w8 r.start ++ listOf w8 r.was ++
    listOf entryBytes r.entries

/-- The recorded queries of a partition, as (engine, slot, query). -/
def State.recorded (s : State) (p : Nat) : List (Nat × Nat × Query) :=
  s.gse.flatMap fun (st, g) => g.slots.filterMap fun (i, q) =>
    match q with
    | some q => if q.part = p && q.running && !q.arrived then some (st, i, q) else none
    | none => none

/-- (Log 59: DEDUCED) -/
def queryBytes (coreId : Nat → Nat) (r : Nat × Nat × Query) : List Byte :=
  let (st, i, q) := r
  q.packet ++ w8 (i + st * 2 ^ 6 + q.seq * 2 ^ 11) ++ w8 (coreId q.core) ++ w8 q.ctx ++ w8 q.order

/-- The quads to which logical quads are bound (R22): those of a launch in progress, else those owned. -/
def State.boundQuads (s : State) (p : Nat) : List Nat :=
  match s.launches.findSome? fun (_, l) => match l with | some l => if l.part = p then some l.quads else none | none => none with
  | some qs => qs ++ (s.ownedQuads p).filter fun q => !qs.contains q
  | none => s.ownedQuads p

/-- The logical quad of a physical one. -/
def logicalQuad (qs : List Nat) (quad : Nat) : Nat := (qs.findIdx? (· == quad)).getD quad

/-- CORE.ID of a physical core, and back (R23). -/
def logicalCore (qs : List Nat) (n : Nat) : Nat := 4 * logicalQuad qs (quadOf n) + memberOf n
def physicalCore (qs : List Nat) (id : Nat) : Nat := 4 * (qs.getD (id / 4) (id / 4)) + id % 4

/-- The number by which a record names the barriers of a die (R23, R401): the first logical quad that is bound there, or 64 and
more where none is. (Log 59: DEDUCED) -/
def logicalDie (qs : List Nat) (d : Nat) : Nat := (qs.findIdx? (· / 8 == d)).getD (64 + d)

/-- A record with every core, quad and die renamed. -/
def Saved.rename (r : Saved) (core quad die : Nat → Nat) : Saved :=
  { r with
    tasks := r.tasks.map fun (n, y) => (core n, y),
    live := r.live.map fun i => { i with core := core i.core },
    queues := r.queues.map fun (q, y) => (quad q, y), tiles := r.tiles.map fun (n, y) => (core n, y),
    stash := r.stash.map fun (n, y) => (core n, y), pumps := r.pumps.map fun c => { c with core := core c.core },
    sends := r.sends.map fun (n, v) => (core n, v), latches := r.latches.map fun (n, l) => (core n, l),
    quadBars := r.quadBars.map fun (q, y) => (quad q, y), dieBars := r.dieBars.map fun (d, y) => (die d, y) }

/-- The channels of a quad on which partition p has nothing, as they go on (R236, R401). -/
def State.idleChannels (s : State) (quad : Nat) : List SavedPump :=
  (List.range 4).flatMap fun m => (List.range 8).map fun ch =>
    { core := 4 * quad + m, ch := ch, pump := ((s.coreAt (4 * quad + m)).pump ch).clear }

/-- Everything that is saved of a partition, over its quads, with the channels of those from which nothing is saved. -/
def State.savedAll (s : State) (p : Nat) : Saved :=
  let r := (List.range 64).foldl (fun a q => match SMap.get none s.saved (64 * p + q) with
    | some x => a.join x
    | none => a) Saved.empty
  let live := s.dieBarriersOf p
  let lost := r.dieBars.filter fun (d, b, _) => !live.any fun (e, c, _) => e == d && c == b
  let idle := (s.boundQuads p).filter fun q => (SMap.get none s.saved (64 * p + q)).isNone
  { r with pumps := r.pumps ++ idle.flatMap s.idleChannels, dieBars := lost.foldl (fun (xs : List (Nat × Nat × Barrier)) x =>
      if xs.any fun y => y.1 == x.1 && y.2.1 == x.2.1 then xs else xs ++ [x]) live }

/-- Tasks in ascending CORE.ID and then context. -/
def orderTasks (ts : List (Nat × Nat × Task)) : List (Nat × Nat × Task) :=
  (List.range 256).flatMap fun n => (List.range 16).flatMap fun x => ts.filter fun t => t.2.2.coreId.toNat == n && t.2.1 == x

/-- Everything that is saved of a partition, every core and quad by its logical position (R23). -/
def State.savedLogical (s : State) (p : Nat) : Saved :=
  let qs := s.boundQuads p
  (s.savedAll p).rename (logicalCore qs) (logicalQuad qs) (logicalDie qs)

/-- How many logical quads a record and recorded queries, by their cores, reach (R400). -/
def Saved.quadCount (r : Saved) (queryCores : List Nat) : Nat :=
  let channels := (r.pumps.filter fun c => c.pump != Pump.init).map fun c => c.core
  let cores : List Nat := r.tasks.map (fun x => x.1) ++ r.live.map (fun x => x.core) ++ r.tiles.map (fun x => x.1) ++
    r.stash.map (fun x => x.1) ++ channels ++ r.sends.map (fun x => x.1) ++ r.latches.map (fun x => x.1) ++ queryCores
  let quads : List Nat := cores.map (fun n => n / 4) ++ r.queues.map (fun x => x.1) ++ r.quadBars.map (fun x => x.1)
  quads.foldl (fun m q => max m (q + 1)) 1

/-- The image of a partition (R400, R401). (Log 59: DEDUCED) -/
def State.image (s : State) (p : Nat) : List Byte :=
  let qs := s.boundQuads p
  let r := s.savedLogical p
  let tasks := orderTasks r.tasks
  let queries := s.recorded p
  let bound := s.launches.foldl (fun m (_, l) => match l with | some l => if l.part = p then max m l.quads.length else m | none => m) 1
  let quads := max bound (r.quadCount (queries.map fun (_, _, q) => logicalCore qs q.core))
  let dl := partReg p 0x68
  let sections : List (List Byte) := [
    tasks.flatMap fun t => t.2.2.record t.2.1,
    r.live.flatMap LiveItem.bytes,
    listOf queueBytes r.queues ++ listOf tileWords r.tiles ++ listOf stashBytes r.stash,
    listOf pumpBytes (r.pumps.filter fun c => c.core / 4 < quads) ++ listOf sendBytes r.sends ++ listOf latchRecord r.latches ++
      listOf barBytes r.quadBars ++ listOf barBytes r.dieBars,
    (s.rallyOf p).bytes,
    listOf (queryBytes (logicalCore qs)) queries,
    w8 (s.field dl 31 0) ++ w8 (s.field dl 63 32) ++ w8 (s.field (partReg p 0x88) 0 0)]
  let padded := sections.map pad64
  let offsets := padded.foldl (fun (acc : List Nat × Nat) b => (acc.1 ++ [acc.2], acc.2 + b.length)) ([0], 64)
  let total := offsets.2
  let flags := flag (tasks.any fun t => t.2.2.overran) + 2 * flag r.bad
  let head := toBytes 4 0x58434E47 ++ toBytes 2 0x100 ++ toBytes 1 p ++ toBytes 1 flags ++ toBytes 2 (s.curTag p).toNat ++
    toBytes 2 quads ++ toBytes 4 0 ++ w8 total ++ offsets.1.flatMap (toBytes 4)
  let body := padded.flatten
  head ++ toBytes 4 (crc32c (head ++ body)) ++ toBytes 4 0 ++ body

/-- Bytes that the device writes into memory of its own (R398). (Log 17: DESIGN CHOICE) -/
def State.deviceWrite (s : State) (pa : Nat) (bs : List Byte) : State := s.hostStore pa bs (bs.length / 64 + 2)

/-- The image area of a partition: its base and its bytes (R398). -/
def State.area (s : State) (p : Nat) : Nat × Nat :=
  (s.field (partReg p 0xC0) 56 16 * 2 ^ 16, s.field (partReg p 0xC8) 23 0 * 2 ^ 16)

/-- A command ends (R398): DONE, or ERR with a code. -/
def State.commandDone (s : State) (p : Nat) : State :=
  let r := partReg p 0xD8
  (s.setField r 1 0 0).setField r 2 2 1

def State.commandFailed (s : State) (p code : Nat) : State :=
  let r := partReg p 0xD8
  ((s.setField r 1 0 0).setField r 3 3 1).setField r 11 4 code

/-- Every dirty cistern line of partition p that has a frame is written back (R406). -/
def State.flushCisterns (s : State) (p : Nat) : State :=
  let mine := fun (c : CLine) => isCistern c.key && (c.key - 2 ^ 104) / 2 ^ 56 = p
  s.dies.foldl (fun s (d, x) => ((x.lines ++ x.spill).filter mine).foldl (fun s c => s.cleanLine d c) s) s

/-- No quad is partition p's at the moment. -/
def State.offQuads (s : State) (p : Nat) : Bool :=
  s.slices.all fun (_, x) => match x with | some y => y.part != p | none => true

/-- SAVE's end (R399, R400): the image is written, or does not fit, or cannot be written (R398, R428); what it leaves out of
the launches is kept.
(Log 60: DEDUCED) -/
def State.writeImage (s : State) (p : Nat) : State :=
  let r := partReg p 0xD8
  let s1 := s.flushCisterns p
  let bs := s1.image p
  let (base, size) := s1.area p
  let lines := (List.range ((bs.length + 63) / 64)).map fun i => base + 64 * i
  if bs.length > size then s1.commandFailed p 1
  else if base + bs.length > Config.physLimit || lines.any s1.stackFailed then s1.commandFailed p 6
  else if !lines.all s1.stackReady then s
  else
    let keep := s1.savedLogical p
    let s2 := s1.deviceWrite base bs
    let others := s2.saved.filter fun (k, _) => k / 64 != p
    let s3 : State := { s2 with saved := SMap.set none others (64 * (64 + p)) (some keep) }
    ((s3.setField r 63 32 ((bs.length + 0xFFFF) / 0x10000)).setField r 14 14 1).commandDone p

/-- SAVE (R398, R399): once p is saved on all its quads it is saving, and then its image is written and p stops.
(Log 60: DEDUCED) -/
def execSave (part : Nat) (s : State) : Host.Outcome State Fault Refusal :=
  let r := partReg part 0xD8
  .next (if s.field r 1 0 = 1 && s.offQuads part then s.setField r 1 0 2
    else if s.field r 1 0 = 2 then s.writeImage part
    else s)

/-- A reader of words and bytes. -/
abbrev Reader := StateT (List Byte) Option

def rdBytes (n : Nat) : Reader (List Byte) := do
  let bs ← get
  if bs.length < n then failure
  set (bs.drop n)
  return bs.take n

def rd8 : Reader Nat := do return ofBytes (← rdBytes 8)

def rdN {α : Type} (f : Reader α) : Nat → Reader (List α)
  | 0 => return []
  | n + 1 => do
    let x ← f
    let xs ← rdN f n
    return x :: xs

def rdList {α : Type} (f : Reader α) : Reader (List α) := do rdN f (← rd8)

def rdWord : Reader Word := do return BitVec.ofNat 64 (← rd8)

/-- The loop stack of a record (R402): level 0 first in the record, the innermost first in the model. -/
def levelsOf (bs : List Byte) (depth pos stages : Nat) : List Level :=
  ((List.range depth).map fun l =>
    let at_ := fun (o : Nat) => BitVec.ofNat 64 (ofBytes ((bs.drop (32 * l + 8 * o)).take 8))
    let st := if l = pos then some stages else none
    ({ count := at_ 0, index := at_ 1, endAddr := at_ 2, body := at_ 3, stages := st,
       total := (at_ 0).toNat + (if l = pos then stages - 1 else 0) } : Level)).reverse

/-- The values of n bytes each from an offset, as a map without zeros. -/
def mapOf (w : Nat) (bs : List Byte) (off n count : Nat) : SMap (BitVec w) :=
  (List.range count).foldl (fun m i => SMap.set 0 m i (BitVec.ofNat w (ofBytes ((bs.drop (off + n * i)).take n)))) []

/-- A task record read back (R402, R404), as (CORE.ID, context, task); none where it breaks its layout. -/
def readRecord (bs : List Byte) : Option (Nat × Nat × Task) :=
  let at_ := fun (o n : Nat) => ofBytes ((bs.drop o).take n)
  let h := at_ 0 8
  let lp := at_ 0x18 8
  let depth := lp % 8
  let seen := at_ 0x48 4
  let zero := fun (o n : Nat) => at_ o n = 0
  let ok := h / 2 ^ 62 = 0 && h / 2 ^ 19 % 2 ^ 5 = 0 && lp / 2 ^ 10 = 0 && depth ≤ 6 && at_ 0x20 8 / 2 ^ 16 = 0 && zero 0x4C 20 &&
    at_ 0x960 8 / 2 ^ 18 = 0 && at_ 0x974 4 / 2 ^ 16 = 0 && zero 0x978 136
  let fail := at_ 0x960 8
  let t : Task := { Task.free with
    st := .ready, pc := BitVec.ofNat 64 (at_ 8 8), cycle := BitVec.ofNat 64 (at_ 0x10 8), coreId := BitVec.ofNat 8 h,
    prio := BitVec.ofNat 2 (h / 2 ^ 12), eff := BitVec.ofNat 2 (h / 2 ^ 14), overran := h.testBit 16, liveBad := h.testBit 17,
    parkThresh := BitVec.ofNat 16 (h / 2 ^ 24), stopped := some (h / 2 ^ 40 % 2 ^ 22),
    trap := { cause := BitVec.ofNat 8 (at_ 0x20 1), slots := BitVec.ofNat 8 (at_ 0x21 1), pc := BitVec.ofNat 64 (at_ 0x28 8),
              addr := BitVec.ofNat 64 (at_ 0x30 8), info := BitVec.ofNat 64 (at_ 0x38 8) },
    vec := BitVec.ofNat 64 (at_ 0x40 8),
    barSeen := (List.range 32).foldl (fun m b => SMap.set false m b (seen.testBit b)) [],
    barPhase := mapOf 16 bs 0x60 2 32, loops := levelsOf ((bs.drop 0xA0).take 192) depth (lp / 8 % 8) (lp / 64 % 16),
    delta := mapOf 32 bs 0x160 4 192, s := SMap.set 0 (mapOf 64 bs 0x460 8 64) 0 0, a := mapOf 64 bs 0x660 8 32,
    p := SMap.set 0 (mapOf 256 bs 0x760 32 16) 0 0,
    rstpFail := if fail % 2 ^ 8 = 0 then none
      else some { code := BitVec.ofNat 8 fail, node := BitVec.ofNat 10 (fail / 2 ^ 8), addr := BitVec.ofNat 64 (at_ 0x968 8) },
    volleyFault := BitVec.ofNat 32 (at_ 0x970 4), vsendLast := BitVec.ofNat 8 (at_ 0x974 1),
    vlatchLast := BitVec.ofNat 8 (at_ 0x975 1) }
  if ok then some (h % 2 ^ 8, h / 2 ^ 8 % 2 ^ 4, t) else none

/-- A live-state item keeps to R283 and R401. -/
def liveWordOk (w size : Nat) : Bool :=
  let kind := w % 16
  let first := w / 2 ^ 16 % 2 ^ 12
  let last := w / 2 ^ 28 % 2 ^ 12
  if kind = 9 then w / 2 ^ 4 % 16 = 0 && w / 2 ^ 16 % 2 ^ 24 = 0 && w / 2 ^ 62 = 0 && liveItemOk (9 + w / 2 ^ 40 % 2 ^ 22 * 2 ^ 8 + size * 2 ^ 32)
  else (kind = 4 || kind = 5 || kind = 6 || kind = 8) && (kind = 6 || w / 2 ^ 4 % 16 = 0) && w / 2 ^ 40 = 0 && size = 0 &&
    first ≤ last && last < kindCount kind

def rdLive : Reader LiveItem := do
  let w ← rd8
  let size ← rd8
  if !liveWordOk w size then failure
  let kind := w % 16
  let first := if kind = 9 then w / 2 ^ 40 % 2 ^ 22 else w / 2 ^ 16 % 2 ^ 12
  let last := if kind = 9 then 0 else w / 2 ^ 28 % 2 ^ 12
  let count := last + 1 - first
  let n := match kind with | 4 => 1024 * count | 5 => 512 * count | 6 => 1024 * count | 8 => 256 * count | _ => size
  let data ← rdBytes n
  return { kind := kind, core := w / 2 ^ 8 % 2 ^ 8, ctx := w / 2 ^ 4 % 2 ^ 4, first := first, last := last, size := size, data := data }

/-- The items of section 3: no word of an item is zero, as the bytes behind the last of them are. -/
def rdItems : Nat → Reader (List LiveItem)
  | 0 => return []
  | n + 1 => do
    let bs ← get
    if ofBytes (bs.take 8) = 0 then
      if bs.any (· != 0) then failure
      return []
    let x ← rdLive
    let xs ← rdItems n
    return x :: xs

def rdQueue : Reader (Nat × Nat × Queue) := do
  let quad ← rd8
  let k ← rd8
  let fill ← rd8
  let f ← rd8
  let prod ← rd8
  let cons ← rd8
  let es ← rdN (rdBytes 1024) fill
  let entries := es.zipIdx.foldl (fun m (b, i) =>
    SMap.set VReg.zero m i { data := BitVec.ofNat 8192 (ofBytes b), tag := 1 }) []
  return (quad, k, { Queue.reset with
    fill := fill, prod := BitVec.ofNat 2 prod, cons := BitVec.ofNat 2 cons, fs := Fmt.dec (BitVec.ofNat 4 f),
    fk := Fmt.dec (BitVec.ofNat 4 (f / 2 ^ 4)), rm := RM.dec (BitVec.ofNat 3 (f / 2 ^ 8)), sat := f.testBit 11, entries := entries })

def rdTile : Reader (Nat × Nat × Tile) := do
  let n ← rd8
  let e ← rd8
  let base ← rd8
  let handle ← rd8
  let lvl ← rd8
  let ac ← rd8
  let cnt ← rd8
  let rows ← rd8
  let pair ← rd8
  let bound ← rd8
  let ctx ← rd8
  let coords ← rdList rd8
  let ready ← rd8
  let volley ← rd8
  let order ← rd8
  let waits ← rd8
  let queued ← if waits = 1 then (do
      let o ← rd8
      let cs ← rdList rd8
      return some (o, cs.map (BitVec.ofNat 32))) else pure none
  return (n, e, { Tile.none with
    st := if ready = 1 then .ready else .filling, base := base, handle := BitVec.ofNat 32 handle, lvl := BitVec.ofNat 3 lvl,
    ac := BitVec.ofNat 5 ac, n := BitVec.ofNat 3 cnt, rows := rows, pair := pair = 1, bound := bound = 1, ctx := ctx,
    coords := coords.map (BitVec.ofNat 32), queued := queued, volley := volley = 1, order := order })

def rdStash : Reader (Nat × Nat × Stash) := do
  let n ← rd8
  let e ← rd8
  let base ← rd8
  let size ← rd8
  let glob ← rd8
  return (n, e, { Stash.none with active := true, base := base, size := size, glob := glob })

/-- (Log 71: DEDUCED) -/
def rdJob : Reader PumpJob := do
  let id ← rdWord
  let kind ← rd8
  let ctx ← rd8
  let addr ← rdWord
  let started ← rd8
  let lines ← rd8
  let order ← rd8
  let clears ← rd8
  let through ← rdWord
  let ccb ← rdBytes 64
  let j : PumpJob := {
    id := id, kind := match kind with | 1 => .copy | 2 => .transpose | _ => .reduce, ccbAddr := addr,
    ccb := bytesToLine ccb, tag := 0, ctx := ctx, launch := none, issued := 0, started := started = 1, done := 0, order := order,
    through := if clears = 1 then some through else none }
  return { j with done := j.skipLines 0 lines j.total }

def rdPump : Reader SavedPump := do
  let core ← rd8
  let ch ← rd8
  let next ← rdWord
  let below ← rdWord
  let st ← rd8
  let id ← rdWord
  let addr ← rdWord
  let info ← rdWord
  let jobs ← rdList rdJob
  return { core := core, ch := ch, pump := { next := next, below := below, jobs := jobs, code := BitVec.ofNat 8 (st / 2 ^ 8),
                                              failId := id, failAddr := addr, failInfo := info,
                                              failLaunch := none } }

def rdSend : Reader (Nat × Send) := do
  let n ← rd8
  let ctx ← rd8
  let mask ← rd8
  let num ← rd8
  let off ← rd8
  let len ← rd8
  let order ← rd8
  return (n, { ctx := ctx, mask := BitVec.ofNat 32 mask, off := off, num := BitVec.ofNat 8 num, len := len, tag := 0,
               launch := none, coreId := BitVec.ofNat 8 n, order := order })

def rdLatch : Reader (Nat × Latch) := do
  let n ← rd8
  let ctx ← rd8
  let kind ← rd8
  let at_ ← rd8
  let sender ← rd8
  let num ← rd8
  let order ← rd8
  return (n, { ctx := ctx, sender := BitVec.ofNat 5 sender, num := BitVec.ofNat 8 num, dest := if kind = 0 then .range at_ else .tile at_,
               tag := 0, launch := none, coreId := BitVec.ofNat 8 n, order := order })

def rdBar : Reader (Nat × Nat × Barrier) := do
  let n ← rd8
  let b ← rd8
  let expected ← rd8
  let arrived ← rd8
  let phase ← rd8
  return (n, b, { expected := expected, arrived := arrived, phase := BitVec.ofNat 16 phase, tag := 0 })

def rdRing : Reader Ring := do
  let base ← rdWord
  let slot ← rd8
  let cnt ← rd8
  return { base := base, slot := slot, cnt := cnt }

def rdRallyEntry : Reader RallyEntry := do
  let kind ← rd8
  let nin ← rd8
  let nout ← rd8
  let mb ← rd8
  let image ← rdWord
  let arg ← rdWord
  return { kind := kind, nin := nin, nout := nout, mb := mb, image := image, arg := arg }

def rdRally : Reader Rally := do
  let priv ← rd8
  let st ← rd8
  let head ← rd8
  let lim ← rd8
  let dnNode ← rdWord
  let upNode ← rdWord
  let fin ← rdRing
  let bin ← rdRing
  let dn ← rdRing
  let up ← rdRing
  let trBase ← rdWord
  let trLen ← rd8
  let errRec ← rdWord
  let fillF ← rd8
  let fillB ← rd8
  let freeDn ← rd8
  let freeUp ← rd8
  let rdF ← rd8
  let rdB ← rd8
  let wrDn ← rd8
  let wrUp ← rd8
  let stash ← rd8
  let bubbles ← rdList rd8
  let errs ← rd8
  let errEntry ← rd8
  let traced ← rd8
  let start ← rd8
  let was ← rdList rd8
  let entries ← rdList rdRallyEntry
  return { Rally.none with
    priv := priv = 1, entries := entries, st := st, head := head, stashLim := lim, dnNode := dnNode, upNode := upNode, fin := fin,
    bin := bin, dn := dn, up := up, trBase := trBase, trLen := trLen, errRec := errRec, fillF := fillF, fillB := fillB,
    freeDn := freeDn, freeUp := freeUp, rdF := rdF, rdB := rdB, wrDn := wrDn, wrUp := wrUp, stash := stash, bubbles := bubbles,
    errs := BitVec.ofNat 7 errs, errEntry := errEntry, traced := traced, start := start, was := was }

/-- A recorded query: packet, ticket, CORE.ID, context, and its place among the core's jobs. -/
structure QueryRec where
  packet : List Byte
  ticket : Nat
  core : Nat
  ctx : Nat
  order : Nat

def rdQuery : Reader QueryRec := do
  let packet ← rdBytes 256
  let ticket ← rd8
  let core ← rd8
  let ctx ← rd8
  let order ← rd8
  return { packet := packet, ticket := ticket, core := core, ctx := ctx, order := order }

/-- What an image holds. -/
structure ImageParts where
  saved : Saved
  rally : Rally
  queries : List QueryRec

/-- Records of n bytes each that fill a section. -/
def recordsOf (bs : List Byte) : List (List Byte) :=
  (List.range (bs.length / 2560)).map fun i => (bs.drop (2560 * i)).take 2560

/-- The sections of an image read back (R401). -/
def readParts (sec : Nat → List Byte) : Option ImageParts := do
  if (sec 2).length % 2560 ≠ 0 then failure
  let tasks ← (recordsOf (sec 2)).mapM readRecord
  let (live, _) ← (rdItems ((sec 3).length / 16 + 1)).run (sec 3)
  let ((queues, tiles, stash), _) ← (do
    let a ← rdList rdQueue
    let b ← rdList rdTile
    let c ← rdList rdStash
    return (a, b, c) : Reader _).run (sec 4)
  let ((pumps, sends, latches, qb, db), _) ← (do
    let a ← rdList rdPump
    let b ← rdList rdSend
    let c ← rdList rdLatch
    let d ← rdList rdBar
    let e ← rdList rdBar
    return (a, b, c, d, e) : Reader _).run (sec 5)
  let (rally, _) ← rdRally.run (sec 6)
  let (queries, _) ← (rdList rdQuery).run (sec 7)
  return { saved := { tasks := tasks, live := live, queues := queues, tiles := tiles, stash := stash, pumps := pumps, sends := sends,
                      latches := latches, quadBars := qb, dieBars := db, bad := false },
           rally := rally, queries := queries }

/-- Bytes of device memory as caches and memory hold them; none where a line is poisoned or does not exist. -/
def State.deviceRead (s : State) (pa n : Nat) : Option (List Byte) :=
  if pa + n > Config.physLimit then none
  else
    let lines := (List.range ((n + 63) / 64)).map fun i => s.line (.frame (pa + 64 * i) none)
    if lines.any fun x => x.poison then none else some ((lines.flatMap fun x => lineToBytes x.data).take n)

/-- An image checked (R400, R403): its parts and the logical quads that it names, or the code of the refusal. -/
def State.openImage (s : State) (p : Nat) : Except Nat (ImageParts × Nat) :=
  let (base, size) := s.area p
  match s.deviceRead base 64 with
  | none => .error 6
  | some h =>
    let at_ := fun (o n : Nat) => ofBytes ((h.drop o).take n)
    let total := at_ 0x10 8
    let quads := at_ 0x0A 2
    let sect := fun (i : Nat) => at_ (0x18 + 4 * (i - 1)) 4
    let shape := at_ 0 4 = 0x58434E47 && at_ 4 2 = 0x100 && at_ 7 1 < 4 && at_ 0x0C 4 = 0 && at_ 0x3C 4 = 0 && 1 ≤ quads &&
      quads ≤ 64 && sect 1 = 0 && 64 ≤ sect 2 && (List.range 7).all (fun i => sect (i + 2) % 64 = 0 && sect (i + 1) ≤ sect (i + 2)) &&
      sect 8 ≤ total
    if !shape then .error 2
    else if total > size then .error 6
    else
      match s.deviceRead base total with
      | none => .error 6
      | some bs =>
        if crc32c (bs.take 0x38 ++ bs.drop 0x40) ≠ at_ 0x38 4 then .error 3
        else
          let sec := fun (i : Nat) => (bs.drop (sect i)).take ((if i = 8 then total else sect (i + 1)) - sect i)
          match readParts sec with
          | none => .error 2
          | some parts => .ok (parts, max quads (parts.saved.quadCount (parts.queries.map (·.core))))

/-- Partition p has no task that is not FREE, and no packet begun but those of the launches that a SAVE has
stopped (R363, R399). (Log 60: DEDUCED) -/
def State.idle (s : State) (p : Nat) : Bool :=
  let stopped := s.field (partReg p 0xD8) 14 14 = 1
  s.tasks.all (fun (_, _, t) => t.st == .free || tagPart t.tag != p) && (s.saved.all fun (k, x) => k / 64 != p || (match x with | some r => r.tasks.isEmpty | none => true)) &&
  s.packets.all fun k => !(k.part == p && k.begun) || (stopped && k.launch.isSome && k.outcome.isNone)

/-- The slot that a recorded query's ticket names. -/
def QueryRec.stack (q : QueryRec) : Nat := q.ticket / 2 ^ 6 % 2 ^ 5
def QueryRec.slot (q : QueryRec) : Nat := q.ticket % 2 ^ 6

/-- The slot that a recorded query's ticket names is held by another partition (R405). -/
def State.slotTaken (s : State) (p : Nat) (r : QueryRec) : Bool :=
  match (s.engine r.stack).query r.slot with
  | some q => q.part != p && q.running
  | none => false

/-- The part of a record that stands on one quad. -/
def Saved.onQuad (r : Saved) (quad : Nat) : Saved :=
  let on := fun (n : Nat) => quadOf n == quad
  { r with
    tasks := r.tasks.filter fun (n, _) => on n, live := r.live.filter fun i => on i.core,
    queues := r.queues.filter fun (q, _) => q == quad, tiles := r.tiles.filter fun (n, _) => on n,
    stash := r.stash.filter fun (n, _) => on n, pumps := r.pumps.filter fun c => on c.core,
    sends := r.sends.filter fun (n, _) => on n, latches := r.latches.filter fun (n, _) => on n,
    quadBars := r.quadBars.filter fun (q, _) => q == quad, dieBars := [] }

/-- A channel with the launches of its jobs, and of the job that halted it, as kept of it; `n` for the others.
(Log 60: DEDUCED) -/
def Pump.rejoin (c : Pump) (kept : Option Pump) (n : Nat) : Pump :=
  let old := fun (j : PumpJob) => kept.bind fun k => (k.jobs.find? fun y => y.id == j.id).bind (·.launch)
  let halted := match kept with | some k => if k.code = c.code then k.failLaunch else some n | none => some n
  { c with jobs := c.jobs.map fun j => { j with launch := some ((old j).getD n) },
           failLaunch := if c.code = 0 then none else halted }

/-- An image's records with the launches, rally entries and privilege that a SAVE of this module kept for them; those of
which it kept nothing belong to launch n. (Log 60: DEDUCED) -/
def Saved.rejoin (r : Saved) (kept : Saved) (n : Nat) : Saved :=
  let task := fun (id x : Nat) (t : Task) =>
    match kept.tasks.find? fun (m, y, _) => m == id && y == x with
    | some (_, _, u) => { t with launch := u.launch, rally := u.rally, privileged := u.privileged }
    | none => { t with launch := some n }
  let tile := fun (id e : Nat) => ((kept.tiles.find? fun (m, f, _) => m == id && f == e).bind fun y => y.2.2.launch).getD n
  let send := fun (id o : Nat) => ((kept.sends.find? fun (m, v) => m == id && v.order == o).bind fun y => y.2.launch).getD n
  let latch := fun (id o : Nat) => ((kept.latches.find? fun (m, l) => m == id && l.order == o).bind fun y => y.2.launch).getD n
  { r with
    tasks := r.tasks.map fun (id, x, t) => (id, x, task id x t),
    tiles := r.tiles.map fun (id, e, t) => (id, e, { t with launch := some (tile id e) }),
    pumps := r.pumps.map fun c => { c with pump := c.pump.rejoin ((kept.pumps.find? fun k => k.core == c.core && k.ch == c.ch).map (·.pump)) n },
    sends := r.sends.map fun (id, v) => (id, { v with launch := some (send id v.order) }),
    latches := r.latches.map fun (id, l) => (id, { l with launch := some (latch id l.order) }) }

/-- The launch that the records of another module's image belong to: an image says nothing of it, so that its places are
free values, and no packet waits for it. (Log 60: DEDUCED; 124: DESIGN CHOICE) -/
def State.adopted (s : State) (p : Nat) (quads : List Nat) (entry : Option Nat) : Launch :=
  let free := fun (i : Nat) => Config.adopted (s.fresh + i)
  let word := fun (i : Nat) => BitVec.ofNat 64 (free i)
  { part := p, q := 65, idx := entry.getD 0, signal := 0, sigval := 0, irq := false, base := word 0, codeOff := word 1, codeSize := word 2,
    liveOff := word 3, liveCnt := 2 ^ 22, tensOff := word 4, tensCnt := free 5, spacing := free 6, arg := word 7, err := 0,
    quads := quads, waiting := [], priv := false, halt := none, errors := 0, tag := s.curTag p, rally := entry.isSome, extra := [] }

/-- The recorded queries of partition p in their slots (R405); the one that stood there gives its launch. -/
def State.placeQuery (s : State) (p n : Nat) (qs : List Nat) (r : QueryRec) : State :=
  let e := s.engine r.stack
  let launch := ((e.query r.slot).bind fun q => if q.part = p && q.packet = r.packet then q.launch else none).getD n
  let q := Query.placed p (s.curTag p) (physicalCore qs r.core) r.ctx (some launch) r.packet (r.ticket / 2 ^ 11) r.order
  s.setEngine r.stack { e with slots := SMap.set none e.slots r.slot (some { q with arrived := false }) }

/-- Queries of partition p that are recorded, and that an image does not name, leave their slots. -/
def State.dropRecorded (s : State) (p : Nat) (keep : List QueryRec) : State :=
  (s.recorded p).foldl (fun s (st, i, _) =>
    if keep.any fun r => r.stack == st && r.slot == i then s
    else let e := s.engine st; s.setEngine st { e with slots := SMap.set none e.slots i none }) s

/-- Increments of partition p's rally state that have no answer yet (R335). -/
def State.postedOf (s : State) (p : Nat) : Nat :=
  (s.remotes.filter fun (_, r) => match r with
    | some r => r.tag == s.curTag p && (match r.what with | .increment q _ => q == p | _ => false)
    | none => false).length

/-- Section 6 becomes partition p's rally state (R405): an entry in flight is that of the launch it had on this module, or
of launch n. (Log 60: DEDUCED) -/
def State.loadRally (s : State) (p n : Nat) (r : Rally) : State :=
  let live := if r.st = 2 then some ((s.rallyOf p).live.getD n) else none
  s.setRally p { r with tag := s.curTag p, live := live, posted := s.postedOf p }

/-- The records of an image of some logical quads become partition p's saved state on the first of its quads qs, which its
next slices load; its launches are bound afresh (R363, R404, R405). (Log 59: DEDUCED) -/
def State.takeImage (s : State) (p : Nat) (parts : ImageParts) (qs : List Nat) (quads : Nat) : State :=
  let tag := s.curTag p
  let n := s.nextLaunch
  let kept := (SMap.get none s.saved (64 * (64 + p))).getD Saved.empty
  let all := (parts.saved.rejoin kept n).rename (physicalCore qs) (fun q => qs.getD q q)
    (fun d => (qs[d]?).elim 8 (· / 8))
  let s0 : State := { s with saved := s.saved.filter fun (k, _) => k / 64 != p }
  let s1 := (qs.take quads).foldl (fun (s : State) q =>
    { s with saved := SMap.set none s.saved (64 * p + q) (some (all.onQuad q)) }) s0
  let s2 := (all.dieBars.filter (·.1 < 8)).foldl (fun (s : State) (d, b, x) =>
    { s with dieBars := SMap.set Barrier.reset s.dieBars (16 * d + b) { x with tag := tag } }) s1
  let s3 := parts.queries.foldl (fun s r => s.placeQuery p n qs r) (s2.dropRecorded p parts.queries)
  let s4 := s3.loadRally p n parts.rally
  let s5 : State := { s4 with
    saved := SMap.set none s4.saved (64 * (64 + p)) none, heldQuads := SMap.set 0 s4.heldQuads p 0,
    launches := SMap.mapAll none (fun _ l => l.map fun y =>
      if y.part = p then { y with quads := qs.take y.quads.length, tag := tag } else y) s4.launches }
  let inFlight := (s5.rallyOf p).live = some n
  if inFlight || s5.launchTasks n || s5.launchJobs n || !(s5.haltedBy n).isEmpty then
    let l := s5.adopted p qs (if inFlight then some parts.rally.head else none)
    ({ s5 with nextLaunch := n + 1, fresh := s5.fresh + 8 } : State).setLaunch n (some l)
  else s5

/-- RESTORE (R399, R403 to R405): the image becomes partition p's saved state, which its next slice loads.
(Log 60: DEDUCED) -/
def execRestore (part : Nat) (s : State) : Host.Outcome State Fault Refusal :=
  .next (if s.field (partReg part 0xD8) 1 0 ≠ 3 then s
    else if !s.idle part then s.commandFailed part 4
    else
      match s.openImage part with
      | .error c => s.commandFailed part c
      | .ok (parts, quads) =>
        let qs := s.ownedQuads part
        if quads > qs.length then s.commandFailed part 9
        else if parts.queries.any (s.slotTaken part) then s.commandFailed part 5
        else ((s.takeImage part parts qs quads).setField (partReg part 0xD8) 14 14 0).commandDone part)

end Sys2Proof.Machine
end

