-- ==== Sys2Proof/Machine/Tornel.lean ====
section
/-! DEFINITION. Tornel links (R407 to R418): flits and their control words, the replay buffer, reports and
allowances, packets laid out in flits, training, routes, forwarding and the escape channel. -/

namespace Sys2Proof.Machine

/-- One byte into a CRC-16 with polynomial 0x1021, most significant bit first. (Log 75: DEDUCED) -/
def crc16Byte (crc b : Nat) : Nat :=
  (List.range 8).foldl (fun c _ => if c.testBit 15 then (c * 2 ^^^ 0x1021) % 2 ^ 16 else c * 2 % 2 ^ 16) (crc ^^^ (b * 2 ^ 8))

/-- The CRC of a flit (R407): over the payload and bits [15:0] of the control word. (Log 75: DEDUCED) -/
def flitCrc (payload : BitVec 512) (ctl : Nat) : Nat :=
  (toBytes 64 payload.toNat ++ toBytes 2 ctl).foldl (fun c b => crc16Byte c b.toNat) 0xFFFF

/-- A flit with its sequence number and CRC in place (R407). -/
def Flit.sealed (f : Flit) (seq : Nat) : Flit :=
  let low := seq % 2 ^ 8 + f.ctl.toNat / 2 ^ 8 % 2 ^ 8 * 2 ^ 8
  { f with ctl := BitVec.ofNat 32 (low + flitCrc f.payload low * 2 ^ 16) }

def ctlSeq (c : BitVec 32) : Nat := c.toNat % 2 ^ 8
def ctlVc (c : BitVec 32) : Nat := c.toNat / 2 ^ 8 % 4
/-- (Log 75: DEDUCED) -/
def ctlPos (c : BitVec 32) : Nat := c.toNat / 2 ^ 10 % 4

/-- A flit whose CRC and zero bits are right. -/
def flitOk (payload : BitVec 512) (ctl : BitVec 32) : Bool :=
  ctl.toNat / 2 ^ 12 % 2 ^ 4 = 0 && ctl.toNat / 2 ^ 16 = flitCrc payload (ctl.toNat % 2 ^ 16)

/-- The data flits of a packet. -/
def FPacket.ndata (k : FPacket) : Nat := (k.data.length + 63) / 64

/-- The header payload of a packet (R411). -/
def FPacket.header (k : FPacket) : List Byte :=
  toBytes 2 k.dst ++ toBytes 2 k.src ++ toBytes 2 k.dinc ++ toBytes 2 k.sinc ++ toBytes 1 k.kind ++ toBytes 1 k.ndata ++
    toBytes 2 k.route ++ toBytes 2 k.job ++ toBytes 2 k.pseq ++ toBytes 8 k.addr.toNat ++ toBytes 4 k.rtag ++ toBytes 4 k.opw ++
    toBytes 32 k.imm.toNat

/-- The flits of a packet without sequence number and CRC (R407, R411). -/
def FPacket.toFlits (k : FPacket) : List Flit :=
  let n := k.ndata
  let head : Flit := { payload := BitVec.ofNat 512 (ofBytes k.header), ctl := BitVec.ofNat 32 (k.vc * 2 ^ 8) }
  head :: (List.range n).map fun i =>
    { payload := BitVec.ofNat 512 (ofBytes ((k.data.drop (64 * i)).take 64)),
      ctl := BitVec.ofNat 32 (k.vc * 2 ^ 8 + (if i + 1 = n then 2 else 1) * 2 ^ 10) }

/-- The data flits that a header announces. -/
def headerNdata (f : Flit) : Nat := f.payload.toNat / 2 ^ 72 % 2 ^ 8

/-- A packet read back from its flits, as port n received it at a time (R411). -/
def FPacket.ofFlits (fs : List Flit) (vc n now : Nat) : FPacket :=
  let h := match fs with | f :: _ => f.payload.toNat | [] => 0
  let at_ := fun (off len : Nat) => h / 2 ^ (8 * off) % 2 ^ (8 * len)
  { dst := at_ 0 2 % 2 ^ 10, src := at_ 2 2 % 2 ^ 10, dinc := at_ 4 2, sinc := at_ 6 2, kind := at_ 8 1, route := at_ 0x0A 2,
    job := at_ 0x0C 2, pseq := at_ 0x0E 2, addr := BitVec.ofNat 64 (at_ 0x10 8), rtag := at_ 0x18 4, opw := at_ 0x1C 4,
    imm := BitVec.ofNat 256 (at_ 0x20 32), data := (fs.drop 1).flatMap fun f => toBytes 64 f.payload.toNat,
    vc := vc, port := some n, since := now }

def portStat (n : Nat) : Nat := fabricReg (0x1000 + 0x40 * n)
def portErr (n : Nat) : Nat := fabricReg (0x1008 + 0x40 * n)

/-- Port n carries packets (R413, R421). -/
def State.portUp (s : State) (n : Nat) : Bool := s.field (portStat n) 0 0 = 1

/-- Port n has trained with a peer, so that reports travel on it: packets may, or it is held down, or its node has no
identifier yet (R409, R413, R428). -/
def State.linked (s : State) (n : Nat) : Bool :=
  s.field (resetReg 0x18) n n = 1 && (s.field (portStat n) 1 0 ≠ 0 || s.node ≥ 993)

/-- The receive buffers of a channel in flits (R410). -/
def bufSize : Nat → Nat
  | 0 => 256 | 1 => 256 | 2 => 128 | _ => 64

/-- The sender's allowance on a channel (R410). -/
def Port.allowance (p : Port) (vc : Nat) : Nat :=
  bufSize vc - (SMap.get 0 p.sentOn vc + 2 ^ 32 - SMap.get 0 p.freedBy vc) % 2 ^ 32

/-- The packet whose header a port sends next: of the channel at whose head a packet has its allowance, the
response channel first. (Log 76: DEDUCED) -/
def Port.nextPacket (p : Port) : Option (Nat × FPacket) :=
  [1, 3, 2, 0].findSome? fun vc =>
    match SMap.get [] p.out vc with
    | k :: _ => if k.flits ≤ p.allowance vc then some (vc, k) else none
    | [] => none

/-- The packets left in a queue whose head has gone; the next one waits at the head from now (R417). -/
def afterHead (now : Nat) : List FPacket → List FPacket
  | _ :: k :: ks => { k with since := now } :: ks
  | _ => []

/-- One flit leaves a port and stays in its replay buffer (R408). -/
def Port.push (p : Port) (f : Flit) (rest : List Flit) : Port :=
  let vc := ctlVc f.ctl
  { p with sending := rest, replay := p.replay ++ [f.sealed p.sent], sent := (p.sent + 1) % 2 ^ 32,
           sentOn := SMap.set 0 p.sentOn vc ((SMap.get 0 p.sentOn vc + 1) % 2 ^ 32) }

/-- The next flit of port n: one to be sent again, the rest of a packet, or a header that its channel's allowance
lets through (R408, R410); none while there is nothing to send. -/
def State.nextFlit (s : State) (n : Nat) : Option State :=
  let p := s.port n
  if p.resend > 0 then some (s.setPort n { p with resend := p.resend - 1 })
  else if !s.portUp n || p.replay.length ≥ 512 then none
  else
    match p.sending with
    | f :: rest => some (s.setPort n (p.push f rest))
    | [] =>
      match p.nextPacket with
      | none => none
      | some (vc, k) =>
        let p1 := { p with out := SMap.set [] p.out vc (afterHead s.time (SMap.get [] p.out vc)), sendVc := vc }
        match k.toFlits with
        | f :: rest => some (s.setPort n (p1.push f rest))
        | [] => none

/-- FLIT_SEND (R408, R410). -/
def execFlitSend (port : Nat) (s : State) : Host.Outcome State Fault Refusal := .next ((s.nextFlit port).getD s)

/-- Buffer entries of a channel of port n free (R409). (Log 78: DEDUCED) -/
def State.freeFlits (s : State) (n vc count : Nat) : State :=
  let p := s.port n
  s.setPort n { p with freed := SMap.set 0 p.freed vc ((SMap.get 0 p.freed vc + count) % 2 ^ 32) }

/-- The parts of ROUTE (R411). -/
def routeVia (r : Nat) : Nat := r % 2 ^ 10
def routeHops (r : Nat) : Nat := r / 2 ^ 13

/-- A packet is on its way to an intermediate, which it takes before its destination (R411, R415). -/
def routeToVia (r : Nat) : Bool := r.testBit 10 && !r.testBit 11 && !r.testBit 12

/-- ROUTE with its hop count replaced. -/
def withHops (r h : Nat) : Nat := r % 2 ^ 13 + min h 7 * 2 ^ 13

/-- PACKET_FORWARD (R415, R417): a packet that has come a hop further and is not for this node goes on towards its
intermediate, its destination or along the escape tree, or is dropped after four hops. (Log 79: DEDUCED) -/
def State.forward (s : State) (k : FPacket) : State :=
  let r := k.route
  let escape := r.testBit 12
  let toVia := routeToVia r
  if toVia && routeVia r = s.node then
    s.enqueue (s.minPort k.dst) { k with route := withHops (r + 2 ^ 11) 0 }
  else if routeHops r ≥ 4 then s.count (fabricReg 0x28) 47 32 1
  else if escape then s.enqueue (bits (s.routeEntry k.dst) 56 52) k
  else s.enqueue (s.minPort (if toVia then routeVia r else k.dst)) k

/-- A packet has come in whole at port n: it is kept for this node or goes on, and then its buffer entries free.
(Log 78: DEDUCED; 80: DEDUCED) -/
def State.takeIn (s : State) (n : Nat) (k : FPacket) : State :=
  let r := withHops k.route (routeHops k.route + 1)
  if s.node ≥ 993 then s.freeFlits n k.vc k.flits
  else if k.dst = s.node && !(routeToVia r && routeVia r ≠ s.node) then s.arrive { k with route := r }
  else (s.forward { k with route := r }).freeFlits n k.vc k.flits

/-- The places, modulo 256, that have passed since RCVD once a flit has come in that is not accepted: a flit that cannot be
read counts as the next one (R408). (Log 126: DEDUCED) -/
def Port.placesPassed (p : Port) (ok : Bool) (ctl : BitVec 32) : Nat :=
  let next := match p.passed with | some r => r + 1 | none => 0
  (if ok then ctlSeq ctl + 2 ^ 8 - p.rcvd % 2 ^ 8 else next) % 2 ^ 8

/-- A flit follows RCVD (R408). Once flits are discarded, so is every one that is still on the way, of which there can be 512:
one that goes on from the 255th place after RCVD is the 256th, and not the one sent again. (Log 126: DEDUCED) -/
def Port.follows (p : Port) (ctl : BitVec 32) : Bool :=
  ctlSeq ctl = p.rcvd % 2 ^ 8 && p.passed != some 255

/-- A discarded flit is counted and answered with a report at once, and every later one is discarded too (R408). -/
def State.discardFlit (s : State) (n : Nat) (ok : Bool) (ctl : BitVec 32) : State :=
  let p := s.port n
  (s.setPort n { p with reports := p.reports + 1, passed := some (p.placesPassed ok ctl) }).count (portErr n) 31 0 1

/-- FLIT_RECEIVE (R408, R411): a flit in sequence is accepted, and a packet whose last flit it is has come in; any
other is discarded. A port that is held down carries reports only. (Log 126: DEDUCED) -/
def execFlitReceive (port : Nat) (payload : BitVec 512) (ctl : BitVec 32) (s : State) : Host.Outcome State Fault Refusal :=
  let p := s.port port
  .next (if !s.portUp port || ctlPos ctl = 3 then s
    else if !flitOk payload ctl || !p.follows ctl then s.discardFlit port (flitOk payload ctl) ctl
    else
      let vc := ctlVc ctl
      let f : Flit := { payload := payload, ctl := ctl }
      let fs := if ctlPos ctl = 0 then [f] else SMap.get [] p.bufs vc ++ [f]
      let whole := match fs with
        | h :: _ => ctlPos h.ctl = 0 && fs.length = 1 + headerNdata h
        | [] => false
      let p1 := { p with rcvd := (p.rcvd + 1) % 2 ^ 32, passed := none, bufs := SMap.set [] p.bufs vc (if whole then [] else fs) }
      let s1 := s.setPort port p1
      if whole then s1.takeIn port (FPacket.ofFlits fs vc port s1.time) else s1)

/-- The report that port n sends (R409). -/
def State.report (s : State) (n : Nat) : Flit :=
  let p := s.port n
  let bs := toBytes 2 s.node ++ toBytes 2 s.incarnation ++ toBytes 1 n ++ toBytes 3 0 ++ toBytes 4 p.sent ++ toBytes 4 p.rcvd ++
    ((List.range 4).flatMap fun v => toBytes 4 (SMap.get 0 p.freed v)) ++ List.replicate 32 0
  Flit.sealed { payload := BitVec.ofNat 512 (ofBytes bs), ctl := BitVec.ofNat 32 (3 * 2 ^ 10) } 0

/-- REPORT_TIMER (R409): each end sends a report. (Log 100: DEDUCED) -/
def execReportTimer (port : Nat) (s : State) : Host.Outcome State Fault Refusal :=
  let p := s.port port
  .next (s.setPort port { p with reports := p.reports + 1, reportAt := s.time })

/-- A report taken by a port (R408, R409, R410): the counts of freed entries, the flits that leave the replay
buffer, and what is sent again from RCVD onward. (Log 77: DEDUCED) -/
def Port.takeReport (p : Port) (payload : Nat) : Port × Bool :=
  let at_ := fun (off : Nat) => payload / 2 ^ (8 * off) % 2 ^ 32
  let oldest := (p.sent + 2 ^ 32 - p.replay.length) % 2 ^ 32
  let passed := (at_ 0x0C + 2 ^ 32 - oldest) % 2 ^ 32
  let freed := (List.range 4).foldl (fun m v => SMap.set 0 m v (at_ (0x10 + 4 * v))) []
  let replay := if passed ≤ p.replay.length then p.replay.drop passed else p.replay
  ({ p with freedBy := freed, replay := replay, resend := replay.length }, !replay.isEmpty)

/-- REPORT_RECEIVE (R408, R409): a report with a bad CRC is discarded; one that shows a loss on the way here is
answered with a report, and the flits that have passed count as discarded. (Log 126: DEDUCED) -/
def execReportReceive (port : Nat) (payload : BitVec 512) (ctl : BitVec 32) (s : State) : Host.Outcome State Fault Refusal :=
  let p := s.port port
  .next (if !flitOk payload ctl || ctlPos ctl ≠ 3 then s
    else
      let (p1, again) := p.takeReport payload.toNat
      let sent := payload.toNat / 2 ^ 64 % 2 ^ 32
      let ahead := (sent + 2 ^ 32 - p.rcvd) % 2 ^ 32
      let lost := ahead ≠ 0 && ahead < 2 ^ 31
      let s1 := s.setPort port (if lost then { p1 with reports := p1.reports + 1, passed := some ((ahead - 1) % 2 ^ 8) } else p1)
      if again then s1.count (portErr port) 63 32 1 else s1)

/-- The point of a node (R412). -/
def nodePoint (n : Nat) : Nat × Nat × Nat :=
  if n ≤ 960 then (n / 31, n % 31, 1) else if n ≤ 991 then (n - 961, 1, 0) else (1, 0, 0)

/-- Two nodes are neighbours (R412). -/
def neighbours (u v : Nat) : Bool :=
  let (a, b, c) := nodePoint u
  let (x, y, z) := nodePoint v
  u < 993 && v < 993 && u ≠ v && (a * x + b * y + c * z) % 31 = 0

/-- A node that is its own polar: its port 31 stays down (R412). -/
def selfPolar (u : Nat) : Bool :=
  let (a, b, c) := nodePoint u
  u < 993 && (a * a + b * b + c * c) % 31 = 0

/-- The start group of a port (R426). -/
def portGroup (n : Nat) : Nat := if n ≤ 10 then 29 else if n ≤ 21 then 30 else 31

/-- Start group g has begun (R426). -/
def State.groupBegun (s : State) (g : Nat) : Bool := s.field (resetReg 0x08) 6 2 ≥ g

/-- Every group has begun, and every unit is READY or has failed (R427). (Log 91: DEDUCED) -/
def State.allStarted (s : State) : Bool :=
  let rdy := s.field (resetReg 0x10) 32 1
  let fail := s.field (resetReg 0x20) 31 0
  s.groupBegun 31 && !s.inReset && (List.range 32).all (fun i => rdy.testBit i || fail.testBit i) &&
    s.field (resetReg 0x18) 31 0 = 2 ^ 32 - 1

/-- RS.STAT.DONE as the units now stand (R427). (Log 91: DEDUCED) -/
def State.markDone (s : State) : State := s.setField (resetReg 0x08) 7 7 (if s.allStarted then 1 else 0)

/-- Port n has finished training (R427): once every port has, a node with an identifier announces itself to every other
(R418). (Log 81: DEDUCED) -/
def State.portTrained (s : State) (n : Nat) : State :=
  let s1 := (s.setField (resetReg 0x18) n n 1).markDone
  if s1.node < 993 && s1.field (resetReg 0x18) 31 0 = 2 ^ 32 - 1 then
    { s1 with announces := (List.range 993).filter (· ≠ s1.node) }
  else s1

/-- PORT_TRAINING_DONE (R412, R413, R428): port n has learnt its peer, and comes up or is held down. (Log 80: DEDUCED; 81: DEDUCED) -/
def execPortTrainingDone (port : Nat) (peer : BitVec 10) (pport : BitVec 5) (s : State) : Host.Outcome State Fault Refusal :=
  let r := resetReg 0x18
  .next (if port ≥ 32 || !s.groupBegun (portGroup port) || s.field r port port = 1 then s
    else
      let p := s.port port
      let taken := (List.range 32).any fun m => m ≠ port && s.portUp m && s.field (portStat m) 11 2 = peer.toNat
      let assigned := s.node < 993
      let good := neighbours s.node peer.toNat && !taken
      let up := if assigned && good && !(port = 31 && selfPolar s.node) then 1 else 0
      let mis := if assigned && !good then 2 else 0
      let stat := up + mis + peer.toNat * 2 ^ 2 + pport.toNat * 2 ^ 12
      let s1 := (s.setPort port { Port.reset with out := p.out }).setReg (portStat port) (BitVec.ofNat 64 stat)
      s1.portTrained port)

/-- NODE_ID_WRITE (R412, R413, R428): the identifier is written, and the ports that have trained train again.
(Log 81: DEDUCED) -/
def execNodeIdWrite (value : BitVec 64) (s : State) : Host.Outcome State Fault Refusal :=
  let r := fabricReg 0
  .next (match if s.inReset then none else regRule r with
    | some rule =>
      let s1 := s.setReg r (rule.apply (s.reg r) value)
      let s2 := (List.range 32).foldl (fun s n => s.setReg (portStat n) 0) s1
      { (s2.setField (resetReg 0x18) 31 0 0).markDone with announces := [] }
    | none => s)

/-- The time in ns that a header may wait at the head of a channel (R417, R421). -/
def State.dlr (s : State) : Nat := max 1 (s.field (fabricReg 0x18) 9 0) * 1000

/-- The head of a queue that has waited its time moves to the escape channel (R417). -/
def State.escapeHead (s : State) (n vc : Nat) : Option State :=
  let p := s.port n
  match SMap.get [] p.out vc with
  | k :: ks =>
    if vc < 3 && k.since + s.dlr ≤ s.time then
      let s1 := s.setPort n { p with out := SMap.set [] p.out vc (afterHead s.time (k :: ks)) }
      let r := withHops (k.route % 2 ^ 12 + 2 ^ 12) 0
      some ((s1.enqueue (bits (s.routeEntry k.dst) 56 52) { k with vc := 3, route := r }).count (fabricReg 0x20) 31 0 1)
    else none
  | [] => none

/-- ESCAPE_MOVE (R417). -/
def execEscapeMove (port vc : Nat) (s : State) : Host.Outcome State Fault Refusal := .next ((s.escapeHead port vc).getD s)

end Sys2Proof.Machine
end

