-- ==== Sys2Proof/Machine/Target.lean ====
section
/-! DEFINITION. Packets for this node (R416 to R420, R233, R330): the incarnation checks, remote accesses performed
at the target, responses, stale notices, announces, rally increments, and timeouts. -/

namespace Sys2Proof.Machine

/-- What serving a packet gives: a state, a wait, or memory that does not exist. -/
inductive Served where
  | done (s : State)
  | wait
  /-- It begins to stall on a full spill buffer for partition p, which is reported (R303). -/
  | report (p d page : Nat)
  | missing (pa : Nat)

def Served.run (x : Served) (s : State) : Host.Outcome State Fault Refusal :=
  match x with
  | .done t => .next t
  | .wait => .next s
  | .report p d page => .next (s.spillFull p d page)
  | .missing pa => .fault (.noMemory pa)

/-- An access for partition p that cannot be made now (R303, R376, R428). -/
def State.targetWaits (s : State) (p : Nat) (e : XErr) : Served :=
  match e with
  | .missing pa => .missing pa
  | .spill d page => if (s.die d).spillStall then .wait else .report p d page
  | _ => .wait

/-- A packet is taken from those that have arrived, and its buffer entries free. (Log 78: DEDUCED) -/
def State.takeArrived (s : State) (k : FPacket) : State :=
  let s1 : State := { s with arrived := s.arrived.erase k }
  match k.port with
  | some n => s1.freeFlits n k.vc k.flits
  | none => s1

/-- Packets of the response channel are served ahead of the others (R417). -/
def State.responsesFirst (s : State) : Bool := s.arrived.all fun k => !(k.kind = 5 || k.kind = 6 || k.kind = 7)

/-- The destination incarnation of a packet is this node's (R418). -/
def State.dstFresh (s : State) (k : FPacket) : Bool := k.dinc = s.incarnation

/-- The source incarnation of a packet is the one learned (R418). -/
def State.srcFresh (s : State) (k : FPacket) : Bool := k.sinc = s.peerInc k.src

/-- A packet that fails an incarnation check is discarded and counted; a stale destination is answered with a
stale notice (R418). (Log 84: DEDUCED) -/
def State.discardStale (s : State) (k : FPacket) : State :=
  let s1 := s.count (fabricReg 0x20) 63 32 1
  if !s.dstFresh k && s.srcFresh k && k.kind ≠ 6 then
    s1.sendPacket { s1.packet k.src 6 k.job k.rtag k.addr with dinc := k.sinc }
  else s1

/-- A response (R411). -/
def State.answer (s : State) (k : FPacket) (status : Nat) (imm : BitVec 256) (data : List Byte) : State :=
  s.sendPacket { s.packet k.src 5 k.job k.rtag k.addr with dinc := k.sinc, opw := status, imm := imm, data := data }

/-- A fault at the target (R419): status 2 and a class-11 record. (Log 85: DEDUCED) -/
def State.targetFault (s : State) (p : Nat) (k : FPacket) : State :=
  (s.logError 11 0 false 4 (k.port.getD 0xFF) (2 ^ p) k.addr.toNat (k.src + k.job * 2 ^ 16)).answer k 2 0 []

/-- The bytes that a packet accesses (R232, R411); a vector of 1,024 bytes travels as two packets of 512. -/
def FPacket.size (k : FPacket) : Nat :=
  match k.opw % 8 with
  | 0 => 1 | 1 => 2 | 2 => 4 | 3 => 8 | 4 => 64 | 5 => 512 | _ => 0

/-- The bytes that a packet carries. -/
def FPacket.bytes (k : FPacket) : List Byte := takeBytes k.size (if k.data.isEmpty then toBytes 32 k.imm.toNat else k.data)

/-- The address of a packet suits its size. -/
def FPacket.aligned (k : FPacket) : Bool := k.size ≠ 0 && k.addr.toNat % (min k.size 64) = 0

/-- A read at the target (R419): its bytes, or status 4 where a line is poisoned. -/
def State.targetRead (s : State) (ag : Agent) (k : FPacket) : Served :=
  if !k.aligned then .done (s.targetFault ag.part k)
  else
    match s.readSpan ag k.addr.toNat k.size .plain (k.size / 64 + 2) with
    | .error (.fault _ _ _ _) => .done (s.targetFault ag.part k)
    | .error e => s.targetWaits ag.part e
    | .ok (s1, _, some _) => .done (s1.answer k 4 0 [])
    | .ok (s1, bs, none) =>
      if k.size ≤ 32 then .done (s1.answer k 0 (BitVec.ofNat 256 (ofBytes bs)) []) else .done (s1.answer k 0 0 bs)

/-- A write at the target (R419, R435): status 4 where it covers part of a poisoned line, which drops it. -/
def State.targetWrite (s : State) (ag : Agent) (k : FPacket) : Served :=
  if !k.aligned then .done (s.targetFault ag.part k)
  else
    let drops := match s.translate ag k.addr.toNat .write .plain with
      | .ok (s1, l) => k.size < 64 && (s1.line l).poison
      | .error _ => false
    match s.writeSpan ag k.addr.toNat k.bytes (k.size / 64 + 2) with
    | .error (.fault _ _ _ _) => .done (s.targetFault ag.part k)
    | .error e => s.targetWaits ag.part e
    | .ok s1 => .done (s1.answer k (if drops then 4 else 0) 0 [])

/-- An atomic at the target's home (R227, R233, R307): the old value comes back. -/
def State.targetAtomic (s : State) (ag : Agent) (k : FPacket) : Served :=
  let p := ag.part
  let opc := k.opw / 2 ^ 3 % 8
  let f := Fmt.dec (BitVec.ofNat 4 (k.opw / 2 ^ 6))
  let op := AtomOp.dec (BitVec.ofNat 3 opc)
  let z := fmtWidth f / 8
  if opc = 7 || !Fmt.codeOk (BitVec.ofNat 4 (k.opw / 2 ^ 6)) || !atomOk op f || k.addr.toNat % z ≠ 0 then .done (s.targetFault p k)
  else
    match s.readAt ag k.addr.toNat z .atomic .atomg with
    | .error (.fault _ _ _ _) => .done (s.targetFault p k)
    | .error e => s.targetWaits p e
    | .ok (s1, x, l) =>
      if x.poison then
        .done ((s1.logError 6 1 false 2 l.home (2 ^ p) (lineOf k.addr.toNat) 2).answer k 4 0 [])
      else
        let m := ofBytes (s1.seenBytes ag.tag l x (k.addr.toNat % 64) z)
        let new := atomNew op f m (k.imm.toNat % 2 ^ fmtWidth f) (k.imm.toNat / 2 ^ 64 % 2 ^ fmtWidth f)
        match s1.putPart ag l k.addr.toNat (toBytes z new) with
        | .ok s2 => .done (s2.answer k 0 (BitVec.ofNat 256 m) [])
        | .error e => s.targetWaits p e

/-- The agent of a request: the partition and tag that its binding gave on arrival (R419). -/
def tagAgent (t : Tag) : Agent := { part := tagPart t, tag := t, core := none }

/-- One request packet served (R418, R419): discarded if stale, refused where its binding was unknown on arrival, else
performed under the tag that held then. (Log 85: DEDUCED) -/
def State.serve (s : State) (k : FPacket) (perform : State → Agent → FPacket → Served) : Served :=
  let s1 := s.takeArrived k
  if !s.dstFresh k || !s.srcFresh k then .done (s1.discardStale k)
  else
    match k.bound with
    | none => .done (s1.answer k 1 0 [])
    | some t => perform s1 (tagAgent t) k

/-- Two packets of one access: the halves of a .V access, whose lines take their places in order (R309, R411).
(Log 85: DEDUCED) -/
def FPacket.sameAccess (j k : FPacket) : Bool := j.src == k.src && j.rtag == k.rtag && j.kind == k.kind

/-- The first of some packets that can be served; none goes ahead of a packet of its own access that waits.
(Log 85: DEDUCED) -/
def State.serveOf (s : State) (perform : State → Agent → FPacket → Served) (waiting : List FPacket) : List FPacket → Served
  | [] => .wait
  | k :: ks =>
    if waiting.any k.sameAccess then s.serveOf perform waiting ks
    else
      match s.serve k perform with
      | .wait => s.serveOf perform (k :: waiting) ks
      | x => x

/-- The first arrived packet that can be served of those that pass a test. (Log 85: DEDUCED) -/
def State.serveFirst (s : State) (which : FPacket → Bool) (perform : State → Agent → FPacket → Served) : Served :=
  if !s.responsesFirst then .wait else s.serveOf perform [] (s.arrived.filter which)

def State.serveRead (s : State) : Served := s.serveFirst (fun k => k.kind = 1) State.targetRead
def State.serveWrite (s : State) : Served := s.serveFirst (fun k => k.kind = 2) State.targetWrite
def State.serveAtomic (s : State) : Served := s.serveFirst (fun k => k.kind = 4) State.targetAtomic

/-- FABRIC_READ (R419). -/
def execFabricRead (s : State) : Host.Outcome State Fault Refusal := s.serveRead.run s

/-- FABRIC_WRITE (R419). -/
def execFabricWrite (s : State) : Host.Outcome State Fault Refusal := s.serveWrite.run s

/-- FABRIC_ATOMIC (R419). -/
def execFabricAtomic (s : State) : Host.Outcome State Fault Refusal := s.serveAtomic.run s

/-- How far a posted write lies ahead of the one that its source's sequence performs next (R416). -/
def State.pseqAhead (s : State) (k : FPacket) : Nat := (k.pseq + 2 ^ 16 - SMap.get 0 s.pseqIn k.src) % 2 ^ 16

/-- A posted write performed in its turn: the sequence goes on whatever comes of it. One whose turn has been given
up as lost is dropped. (Log 83: DEDUCED) -/
def State.targetPosted (s : State) (ag : Agent) (k : FPacket) : Served :=
  if s.pseqAhead k ≥ 2 ^ 15 then .done s
  else
    match s.targetWrite ag k with
    | .done t => .done { t with pseqIn := SMap.set 0 t.pseqIn k.src ((k.pseq + 1) % 2 ^ 16) }
    | x => x

/-- A posted write that a refusal ends takes its place in the sequence as well. -/
def State.servePostedOne (s : State) (k : FPacket) : Served :=
  match s.serve k State.targetPosted with
  | .done t =>
    let fresh := s.dstFresh k && s.srcFresh k
    if fresh && s.pseqAhead k = 0 && k.bound.isNone then .done { t with pseqIn := SMap.set 0 t.pseqIn k.src ((k.pseq + 1) % 2 ^ 16) }
    else .done t
  | x => x

/-- The posted writes that may be served: stale ones, those in their turn, and those whose turn has passed. -/
def State.postedReady (s : State) (k : FPacket) : Bool :=
  k.kind = 3 && (!s.dstFresh k || !s.srcFresh k || s.pseqAhead k = 0 || s.pseqAhead k ≥ 2 ^ 15)

def State.servePosted (s : State) : Served :=
  if !s.responsesFirst then .wait
  else
    match (s.arrived.filter s.postedReady).findSome? fun k => match s.servePostedOne k with | .wait => none | x => some x with
    | some x => x
    | none => .wait

/-- FABRIC_POSTED_WRITE (R416). -/
def execFabricPostedWrite (s : State) : Host.Outcome State Fault Refusal := s.servePosted.run s

/-- The posted writes of a source that wait for a predecessor. -/
def State.heldPosted (s : State) (src : Nat) : List FPacket :=
  s.arrived.filter fun k => k.kind = 3 && k.src = src && !s.postedReady k

/-- The gap of a source's sequence that 500 µs have not filled: how many writes are lost, if the first successor has
waited that long (R416). (Log 83: DEDUCED) -/
def State.lostPosted (s : State) (src : Nat) : Nat :=
  let held := s.heldPosted src
  let gap := held.foldl (fun m k => min m (s.pseqAhead k)) (2 ^ 16)
  if held.any fun k => k.since + fabricTimeout ≤ s.time then gap else 0

/-- POSTED_WRITE_GAP_TIMEOUT (R416): the missing predecessors are treated as lost. (Log 83: DEDUCED) -/
def execPostedWriteGapTimeout (src : Nat) (s : State) : Host.Outcome State Fault Refusal :=
  let n := s.lostPosted src
  .next (if n = 0 then s
    else
      let s1 : State := { s with pseqIn := SMap.set 0 s.pseqIn src ((SMap.get 0 s.pseqIn src + n) % 2 ^ 16) }
      s1.count (fabricReg 0x28) 63 48 n)

/-- The task of a remote access is still the one that made it. -/
def State.remoteTask (s : State) (r : Remote) : Option Task :=
  let t := s.taskAt r.core r.ctx
  if t.st ≠ .free && t.tag = r.tag && t.launch = r.launch && t.cycle = r.born then some t else none

/-- A posted store is over (R233): one outstanding less, and a failure recorded against its task. -/
def State.postedOver (s : State) (r : Remote) (code : Nat) : State :=
  match s.remoteTask r with
  | none => s
  | some t =>
    let t1 := { t with rstpOut := t.rstpOut - 1 }
    s.setTaskAt r.core r.ctx (if code = 0 then t1 else t1.rstpFailed code r.node r.ea)

/-- The destination of a remote load takes its bytes (R67, R233). -/
def State.remoteLand (s : State) (r : Remote) (d : RData) (bs : List Byte) : State :=
  match d with
  | .scalar sd => s.setTaskAt r.core r.ctx ((s.taskAt r.core r.ctx).setScalar sd (BitVec.ofNat 64 (ofBytes bs)))
  | .vector n =>
    let k := s.coreAt r.core
    let old := SMap.get VReg.zero k.v n.toNat
    let base := if old.tag = r.tag then old.data else 0
    let new : VReg := { data := withLowBytes base bs, tag := r.tag }
    s.setCoreAt r.core { k.heal 2 n.toNat with v := SMap.set VReg.zero k.v n.toNat new }

/-- The task waits for a remote access: it is parked on it, or is to be once another wait of its bundle is over (R28).
(Log 44: DEDUCED) -/
def Task.waitsRemote (t : Task) (rtag : Nat) : Bool :=
  match t.st with
  | .parked c => c == .remote rtag || t.andThen == some (.remote rtag)
  | _ => false

/-- A parked remote access is over with a trap to come, or none, and its task wakes, or waits on for the other event
that its bundle asked for (R28, R233). (Log 44: DEDUCED) -/
def State.remoteWake (s : State) (r : Remote) (rtag : Nat) (tr : Option Trap) : State :=
  let t := s.taskAt r.core r.ctx
  let t1 := match tr with
    | some x => { t with deferred := t.deferred ++ [(slotL, x)] }
    | none => t
  if t.st = .parked (.remote rtag) then (s.setTaskAt r.core r.ctx t1).wake r.core r.ctx
  else s.setTaskAt r.core r.ctx { t1 with andThen := none }

/-- The POISON trap of a parked remote access (R233). -/
def remotePoison (r : Remote) : Trap := { cause := .poison, addr := r.ea, info := 0, at_ := .address r.link }

/-- A remote access ends with a REMOTE code (R233): a trap of the parked task, a record of a posted store, an
increment that is lost. -/
def State.remoteFails (s : State) (rtag : Nat) (r : Remote) (code : Nat) : State :=
  let s1 : State := { s with remotes := SMap.set none s.remotes rtag none }
  match r.what with
  | .posted => s1.postedOver r code
  | .increment p e => s.incrementOver rtag p e true
  | _ =>
    if (s1.taskAt r.core r.ctx).waitsRemote rtag then s1.remoteWake r rtag (some (remoteTrap code r.node r.ea r.link))
    else s1

/-- A remote access whose last packet has been answered (R233, R385): a load's or atomic's value reaches its
destination, poison reads as zero and traps, and other statuses give their codes. -/
def State.remoteOver (s : State) (rtag : Nat) (r : Remote) : State :=
  let s1 : State := { s with remotes := SMap.set none s.remotes rtag none }
  let waits := (s1.taskAt r.core r.ctx).waitsRemote rtag && s1.lands r.tag
  let code := if r.bad = 4 then 5 else r.bad
  match r.what with
  | .posted => s1.postedOver r code
  | .increment p e => s.incrementOver rtag p e (r.bad ≠ 0)
  | .store =>
    if !waits then s1
    else s1.remoteWake r rtag (if code = 0 then none else some (remoteTrap code r.node r.ea r.link))
  | .load d size =>
    if !waits then s1
    else if r.bad = 0 then
      let bs := (r.got.mergeSort fun a b => a.1 ≤ b.1).flatMap (·.2)
      (s1.remoteLand r d (takeBytes size bs)).remoteWake r rtag none
    else if r.bad = 4 then (s1.remoteLand r d (List.replicate size 0)).remoteWake r rtag (some (remotePoison r))
    else s1.remoteWake r rtag (some (remoteTrap r.bad r.node r.ea r.link))
  | .atomic sd f =>
    if !waits then s1
    else
      let m := match r.got with | (_, bs) :: _ => ofBytes bs % 2 ^ fmtWidth f | [] => 0
      let put := fun (v : Word) => s1.setTaskAt r.core r.ctx ((s1.taskAt r.core r.ctx).setScalar sd v)
      if r.bad = 0 then (put (atomOld f m)).remoteWake r rtag none
      else if r.bad = 4 then (put 0).remoteWake r rtag (some (remotePoison r))
      else s1.remoteWake r rtag (some (remoteTrap r.bad r.node r.ea r.link))

/-- A response taken by the access of its RTAG (R420): late ones are counted, and change nothing (R233, R330). -/
def State.takeResponse (s : State) (k : FPacket) : State :=
  match SMap.get none s.remotes k.rtag with
  | none => s.count (fabricReg 0x28) 31 0 1
  | some r =>
    let a := match r.what with | .increment _ _ => 0 | _ => k.addr.toNat
    if r.node ≠ k.src || !r.parts.contains a || r.deadline ≤ s.time then s.count (fabricReg 0x28) 31 0 1
    else
      let bs := if k.data.isEmpty then toBytes 32 k.imm.toNat else k.data
      let st := k.opw % 8
      let r1 : Remote := { r with parts := r.parts.erase a, got := r.got ++ [(a, bs)], bad := if st = 0 then r.bad else st }
      if r1.parts.isEmpty then s.remoteOver k.rtag r1
      else { s with remotes := SMap.set none s.remotes k.rtag (some r1) }

/-- The first packet of the response channel of a kind. -/
def State.firstOf (s : State) (kind : Nat) : Option FPacket := s.arrived.find? fun k => k.kind = kind

/-- The response channel serves its packets in the order in which they came. -/
def State.responseHead (s : State) : Option FPacket := s.arrived.find? fun k => k.kind = 5 || k.kind = 6 || k.kind = 7

/-- FABRIC_RESPONSE (R233, R418, R420): a stale one is discarded. -/
def execFabricResponse (s : State) : Host.Outcome State Fault Refusal :=
  .next (match s.responseHead with
    | some k =>
      if k.kind ≠ 5 then s
      else
        let s1 := s.takeArrived k
        if !s.dstFresh k || !s.srcFresh k then s1.discardStale k else s1.takeResponse k
    | none => s)

/-- An incarnation is learned (R418): posted writes to and from the node count from 0 again when it has changed.
(Log 82: DEDUCED) -/
def State.learn (s : State) (node inc : Nat) : State :=
  if node ≥ 993 || s.peerInc node = inc then s
  else
    let s1 := s.setField (fabricReg (0x1_0000 + 8 * node)) 15 0 inc
    { s1 with pseqOut := SMap.set 0 s1.pseqOut node 0, pseqIn := SMap.set 0 s1.pseqIn node 0 }

/-- STALE_NOTICE (R418): the incarnation is stored, and the access of the RTAG named fails with code 3. -/
def execStaleNotice (s : State) : Host.Outcome State Fault Refusal :=
  .next (match s.responseHead with
    | some k =>
      if k.kind ≠ 6 then s
      else
        let s1 := s.takeArrived k
        if !s.dstFresh k then s1.discardStale k
        else
          let s2 := s1.learn k.src k.sinc
          match SMap.get none s2.remotes k.rtag with
          | some r => if r.node = k.src then s2.remoteFails k.rtag r 3 else s2
          | none => s2
    | none => s)

/-- ANNOUNCE (R418): the incarnation is stored; if it is new, one announce goes back. -/
def execAnnounce (s : State) : Host.Outcome State Fault Refusal :=
  .next (match s.responseHead with
    | some k =>
      if k.kind ≠ 7 then s
      else
        let s1 := s.takeArrived k
        if k.src = s.node || s1.peerInc k.src = k.sinc then s1
        else
          let s2 := s1.learn k.src k.sinc
          s2.sendPacket (s2.packet k.src 7 0 0 0)
    | none => s)

/-- ANNOUNCE_SEND (R418). -/
def execAnnounceSend (node : Nat) (s : State) : Host.Outcome State Fault Refusal :=
  .next (if s.announces.contains node then
      let s1 : State := { s with announces := s.announces.erase node }
      s1.sendPacket (s1.packet node 7 0 0 0)
    else s)

/-- A count of a rally state grows by an increment, up to its ring (R330). (Log 46: DEDUCED) -/
def Rally.increment (r : Rally) (which n : Nat) : Rally :=
  let clip := fun (v cnt : Nat) => if v > cnt then cnt else v
  let beyond := fun (v cnt : Nat) => v > cnt
  match which with
  | 0 => { (if beyond (r.fillF + n) r.fin.cnt then r.error 1 r.head else r) with fillF := clip (r.fillF + n) r.fin.cnt }
  | 1 => { (if beyond (r.fillB + n) r.bin.cnt then r.error 1 r.head else r) with fillB := clip (r.fillB + n) r.bin.cnt }
  | 2 => { (if beyond (r.freeDn + n) r.dn.cnt then r.error 1 r.head else r) with freeDn := clip (r.freeDn + n) r.dn.cnt }
  | _ => { (if beyond (r.freeUp + n) r.up.cnt then r.error 1 r.head else r) with freeUp := clip (r.freeUp + n) r.up.cnt }

/-- An increment at its target (R330): applied, or answered as not applied where the rally state is unloaded or Land
fails. (Log 46: DEDUCED) -/
def State.targetIncrement (s : State) (ag : Agent) (k : FPacket) : Served :=
  let p := ag.part
  let r := s.rallyOf p
  if !s.lands ag.tag then .done ((s.countDrop ag.tag).answer k 2 0 [])
  else if r.st = 0 || r.tag ≠ ag.tag then .done (s.answer k 2 0 [])
  else
    let v := k.imm.toNat
    .done ((s.setRally p (r.increment (v / 2 ^ 16 % 4) (v % 2 ^ 16))).answer k 0 0 [])

def State.serveIncrement (s : State) : Served := s.serveFirst (fun k => k.kind = 8) State.targetIncrement

/-- RALLY_INCREMENT (R330). -/
def execRallyIncrement (s : State) : Host.Outcome State Fault Refusal := s.serveIncrement.run s

/-- REMOTE_TIMEOUT (R420): no reply within 500 µs. -/
def execRemoteTimeout (rtag : Nat) (s : State) : Host.Outcome State Fault Refusal :=
  .next (match SMap.get none s.remotes rtag with
    | some r =>
      match r.what with
      | .increment _ _ => s
      | _ => if r.deadline ≤ s.time then s.remoteFails rtag r 4 else s
    | none => s)

end Sys2Proof.Machine
end

