-- ==== Sys2Proof/Machine/Reset.lean ====
section
/-! DEFINITION. The three resets and start-up (R422 to R428). -/

namespace Sys2Proof.Machine

/-- The incarnation after one, skipping 0 (R418). -/
def nextIncarnation (n : Nat) : Nat := if n = 65535 then 1 else n + 1

/-- The module at its reset values, beside what no reset of it touches: host memory and HBM, the messages that it
has sent, the inputs still to come and the time. Every tag is null. (Log 86: DEDUCED; 90: DEDUCED) -/
def State.cleared (s : State) (last : Nat) : State :=
  let mem := s.mem.filter fun (a, _) => !isLocal a && !isCistern a
  let poisoned := s.poisoned.filter fun (l, _) => isDevice (64 * l)
  let s1 : State := { State.reset with mem := mem, poisoned := poisoned, msix := s.msix, agenda := s.agenda, fresh := s.fresh, resetAt := s.time, time := s.time, tickAt := s.time }
  (s1.setField (fabricReg 8) 15 0 (nextIncarnation s.incarnation)).setField (resetReg 0x08) 1 0 last

/-- COLD_RESET (R422, R423). The tag pass of a stack is over before the stack is READY, and nothing reads its lines
until then. (Log 86: DEDUCED; 87: DEDUCED) -/
def execColdReset (s : State) : Host.Outcome State Fault Refusal := .next (s.cleared 0)

/-- Every dirty line of a die's cache that has a frame is written to memory, whatever its tag (R424). (Log 88: DEDUCED) -/
def State.flushDies (s : State) : State :=
  s.dies.foldl (fun s (_, d) => d.lines.foldl (fun s c => if c.reserved then s else s.writeBack c) s) s

/-- WARM_RESET (R424, R394): everything stops, dirty lines with a frame are written back, and what survives is the
HBM with its tags, the incarnation, the generations and the sweeper; every partition is then stepped.
(Log 88: DEDUCED) -/
def execWarmReset (s : State) : Host.Outcome State Fault Refusal :=
  let s1 := s.flushDies
  let tags := s1.tags.filter fun (l, _) => isDevice (64 * l)
  let s2 : State := { s1.cleared 1 with tags := tags, tenancy := s1.tenancy, sweeper := s1.sweeper }
  .next ((List.range 64).foldl (fun s p => s.endTenancyOf p) s2)

/-- A register offset of a queue block (R351). -/
def inQueueBlock (off : Nat) : Bool := 0x10_0000 ≤ off && off < 0x10_0000 + 0x100 * 65

/-- FUNCTION_RESET (R425). Packets that have begun stay, apart from those that the cleared queues fetch: their
indices move on by 2³², which a status word does not show. (Log 89: DEDUCED; 90: DEDUCED) -/
def execFunctionReset (s : State) : Host.Outcome State Fault Refusal :=
  let packets := (s.packets.filter fun k => k.begun).map fun k => { k with idx := k.idx + 2 ^ 32 }
  let later := fun (l : Launch) => if l.rally then l else { l with idx := l.idx + 2 ^ 32 }
  let launches := SMap.mapAll none (fun _ l => l.map later) s.launches
  let regs := s.regs.filter fun (off, _) => !inQueueBlock off
  .next (({ s with packets := packets, launches := launches, regs := regs, msixClear := true } : State).setField (resetReg 0x08) 1 0 2)

/-- START_GROUP_BEGIN (R426): group g begins 25 µs × g after the reset, and after the group before it.
(Log 2: DESIGN CHOICE) -/
def execStartGroupBegin (group : Nat) (s : State) : Host.Outcome State Fault Refusal :=
  .next (if group = 0 || group > 31 || s.field (resetReg 0x08) 6 2 ≠ group - 1 || s.time < s.resetAt + 25000 * group then s
    else (s.setField (resetReg 0x08) 6 2 group).markDone)

/-- A stack or die has started, or has failed with a class-12 record (R427, R428, R431): its bits in RS.RDY0 and
RS.FAIL. (Log 92: DEDUCED) -/
def State.unitStarts (s : State) (group rdy fail kind index : Nat) (ok : Bool) : State :=
  if !s.groupBegun group || s.field (resetReg 0x10) rdy rdy = 1 || s.field (resetReg 0x20) fail fail = 1 then s
  else if ok then (s.setField (resetReg 0x10) rdy rdy 1).markDone
  else ((s.setField (resetReg 0x20) fail fail 1).logError 12 2 false kind index 0 0 0).markDone

/-- UNIT_READY (R427, R428). A port that trains reports by PORT_TRAINING_DONE; one that finds no peer has finished
training and stays down. (Log 2: DESIGN CHOICE; 92: DEDUCED) -/
def execUnitReady (u : StartUnit) (ok : Bool) (s : State) : Host.Outcome State Fault Refusal :=
  .next (match u with
    | .host => if ok then (s.setField (resetReg 0x10) 0 0 1).markDone else s
    | .stack n => if n < 24 then s.unitStarts (n + 1) (1 + n) n 3 n ok else s
    | .die n => if n < 8 then s.unitStarts (25 + n / 2) (25 + n) (24 + n) 2 n ok else s
    | .port n =>
      if ok || n ≥ 32 || !s.groupBegun (portGroup n) || s.field (resetReg 0x18) n n = 1 then s
      else s.portTrained n)

end Sys2Proof.Machine
end

