-- ==== Sys2Proof/Machine/Reliability.lean ====
section
/-! DEFINITION. Reliability (R430 to R441): corrected errors, injection, poisoned lines, the shared-tag parity case,
checkpoint intervals and rollback, and the power controller. -/

namespace Sys2Proof.Machine

/-- The unit kinds that raise a class (R431). (Log 103: DEDUCED) -/
def classKinds : Nat → List Nat
  | 1 => [1] | 2 => [1, 2, 3, 6] | 3 => [2] | 4 => [2] | 5 => [3] | 6 => [1, 2, 3] | 7 => [2] | 8 => [5] | 9 => [3]
  | 10 => [5] | 11 => [4] | 12 => [2, 3] | 13 => [3] | 14 => [7] | _ => []

/-- The corrections that a record counts (R429, R432). -/
def State.threshold (s : State) : Nat := max 1 (s.field (relReg 0x08) 47 32)

/-- A unit that has reached the threshold writes a class-2 record and restarts its count (R432). (Log 93: DEDUCED) -/
def State.reportCorrected (s : State) (kind index : Nat) : State :=
  let c := s.corrected kind index
  if c.count < s.threshold then s
  else (s.logError 2 0 false kind index (2 ^ c.part) c.addr.toNat c.count).setCorrected kind index Corrected.zero

/-- CORRECTED_THRESHOLD (R432). -/
def execCorrectedThreshold (kind : UnitKind) (index : Nat) (s : State) : Host.Outcome State Fault Refusal :=
  .next (s.reportCorrected (unitCode kind) index)

/-- CORRECTED_ERROR (R431, R432): a unit corrects an error in an element of a partition; a record that is due is
written before it. (Log 93: DEDUCED) -/
def execCorrectedError (kind : UnitKind) (index : Nat) (addr : BitVec 64) (part : Nat) (s : State) :
    Host.Outcome State Fault Refusal :=
  let k := unitCode kind
  .next (if !(classKinds 2).contains k || index > 255 || part > 63 then s
    else
      let s1 := s.reportCorrected k index
      s1.setCorrected k index { count := (s1.corrected k index).count + 1, addr := addr, part := part })

/-- The die that holds a line, with the line as it holds it. -/
def State.holder (s : State) (key : Nat) : Option (Nat × CLine) :=
  s.dies.findSome? fun (d, x) => (x.find key).map fun c => (d, c)

/-- A held line of die d taken as poisoned, under a tag and a set of doomed partitions, where it stands (R435,
R436). -/
def Die.keepPoisoned (d : Die) (key : Nat) (tag : Tag) (doomed : BitVec 64) : Die :=
  let f := fun (c : CLine) => if c.key == key then { c with poison := true, tag := tag, doomed := doomed } else c
  { d with lines := d.lines.map f, spill := d.spill.map f }

/-- A held line that cannot be trusted goes (R435, R436): clean, it is invalidated; dirty, memory holds it poisoned
under the tag; with no place in memory it stays, poisoned. -/
def State.loseLine (s : State) (d : Nat) (c : CLine) (tag : Tag) (doomed : BitVec 64) : State :=
  if c.dirty = 0 then s.dropLine d c.key
  else
    match s.frameFor d c.key with
    | some pa => (s.dropLine d c.key).putFrame pa { c.overlay (s.rawLine pa) with tag := tag, poison := true }
    | none => s.setDie d ((s.die d).keepPoisoned c.key tag doomed)

/-- ADDR of a record about a line that die d holds; a line without a frame has no physical address. (Log 95: DEDUCED) -/
def State.physicalLine (s : State) (d key : Nat) : Nat := if isHost key then 0 else (s.frameFor d key).getD 0

/-- UNCORRECTABLE_LINE_ERROR (R435): a line, by its number, of a die cache (class 3) or of the HBM (class 5). -/
def execUncorrectableLineError (cache : Bool) (line : Nat) (s : State) : Host.Outcome State Fault Refusal :=
  let key := 64 * line
  .next (if cache then
      match s.holder key with
      | none => s
      | some (d, c) =>
        let dirty := if c.dirty = 0 then 0 else 1
        let pa := s.physicalLine d key
        (s.loseLine d c c.tag c.doomed).logError 3 dirty false 2 d (2 ^ tagPart c.tag) pa (dirty * 2 ^ 4)
    else if !isDevice key then s
    else
      let x := s.rawLine key
      (s.setRawLine key { x with poison := true }).logError 5 1 false 3 (stackOf key) (2 ^ tagPart x.tag) key (line % 64))

/-- TAG_PARITY_ERROR (R436): the tag entry of a line, by its number, of a die's cache. -/
def execTagParityError (die line : Nat) (s : State) : Host.Outcome State Fault Refusal :=
  let key := 64 * line
  .next (match (s.die die).lines.find? fun c => c.key == key with
    | none => s
    | some c =>
      let dirty := if c.dirty = 0 then 0 else 1
      let mask := s.sharing die c.way
      let detail := c.way % 2 ^ 4 + dirty * 2 ^ 4 + lineSet key * 2 ^ 8
      let pa := s.physicalLine die key
      (s.loseLine die c nullTag mask).logError 4 dirty false 2 die mask.toNat pa detail)

/-- The unit that EI.SEL selects, as (kind, index) (R429). -/
def State.selected (s : State) : Nat × Nat := (s.field (relReg 0x20) 10 8, s.field (relReg 0x20) 7 0)

/-- ERROR_INJECT (R434): a write of EI.MASK arms the selected unit's detectors of the set classes that its kind can
raise, and disarms those of the others; the bits of the former are what EI.MASK then reads (R10). (Log 94: DEDUCED) -/
def execErrorInject (value : BitVec 64) (s : State) : Host.Outcome State Fault Refusal :=
  .next (if s.inReset then s
    else
      let (kind, index) := s.selected
      let want := (List.range 16).filter fun c => value.getLsbD c && (classKinds c).contains kind
      let mine := fun (a : Armed) => a.kind == kind && a.index == index
      let kept := (s.armed.filter fun a => !mine a || want.contains a.cls).map fun a => { a with last := mine a }
      let new := want.filter fun c => !(s.armed.any fun a => mine a && a.cls == c)
      let added : List Armed := new.map fun c => { kind := kind, index := index, cls := c, since := s.time, last := true }
      ({ s with armed := kept ++ added } : State).setReg (relReg 0x28) (BitVec.ofNat 64 (want.map (2 ^ ·)).sum))

/-- INJECTED_REPORT (R434): an armed detector makes its next check, or its 1 ms is over; the address and detail are
those that the check has at hand, 0 where it has none. (Log 94: DEDUCED) -/
def execInjectedReport (kind : UnitKind) (index cls : Nat) (addr detail : BitVec 64) (s : State) :
    Host.Outcome State Fault Refusal :=
  .next (s.checked (unitCode kind) index cls addr.toNat detail.toNat)

/-- Every dirty line of partition p in a die cache goes to its place in memory and is clean (R438). -/
def State.flushPart (s : State) (p : Nat) : State :=
  let mine := fun (c : CLine) => tagPart c.tag = p && !s.stale c.tag
  s.dies.foldl (fun s (d, x) => ((x.lines ++ x.spill).filter mine).foldl (fun s c => s.cleanLine d c) s) s

/-- Every dirty sector of partition p's stash entries is written back (R438), or a write-back must wait. -/
def State.flushStash (s : State) (p : Nat) : Except XErr State :=
  let mine := s.cores.flatMap fun (n, k) => (k.stash.filter fun (_, x) => tagPart x.tag == p).map fun (e, _) => (n, e)
  mine.foldlM (fun (s : State) (n, e) => s.writebackAll n e) s

/-- CKPT_CLOSE_DONE (R438): the write-backs of a close are done; the first close that was asked for meanwhile begins.
(Log 98: DEDUCED) -/
def execCkptCloseDone (part : Nat) (s : State) : Host.Outcome State Fault Refusal :=
  let r := partReg part 0xF8
  .next (if s.field r 32 32 = 0 then s
    else match s.flushStash part with
    | .error er => s.noteWait part er
    | .ok s0 =>
      let s1 := s0.flushPart part
      let s2 := ((s1.setField r 31 0 (s1.field r 31 0 + 1)).setField r 33 33 0).setField r 32 32 0
      let s3 : State := { s2 with undo := s2.undo.filter fun u => u.part != part }
      let more := SMap.get 0 s3.ckptNext part
      if more = 0 then s3 else ({ s3 with ckptNext := SMap.set 0 s3.ckptNext part (more - 1) } : State).closeInterval part)

/-- An engine job of partition p runs (R440). -/
def State.jobsRun (s : State) (p : Nat) : Bool :=
  let mine := fun (t : Tag) => tagPart t == p
  s.cores.any (fun (_, k) =>
    k.pumps.any (fun (_, c) => c.jobs.any fun j => mine j.tag) ||
    k.tiles.any (fun (_, t) => mine t.tag && (t.st == .filling || t.st == .draining)) ||
    k.jobs.any (fun j => mine j.tag) || k.sends.any (fun v => mine v.tag) || k.latches.any (fun l => mine l.tag)) ||
  s.gse.any fun (_, g) => g.slots.any fun (_, q) => match q with | some q => q.running && q.part == p | none => false

/-- The code with which a rollback of partition p is refused (R437, R440), 0 where it is not; a task of p that a slice end or
a RESTORE keeps is not FREE. (Log 61: DEDUCED; 96: DEDUCED) -/
def State.rollbackCode (s : State) (p : Nat) : Nat :=
  let kept := s.saved.any fun (k, x) => (k / 64 == p || k / 64 == 64 + p) && x.any fun y => !y.tasks.isEmpty
  if s.tasks.any (fun (_, _, t) => t.st != .free && tagPart t.tag == p) || kept || s.packets.any (fun k => k.part == p && k.begun) ||
      s.jobsRun p then 1
  else if s.field (partReg p 0xF8) 33 33 = 1 then 2
  else if s.field (partReg p 0xE8) 0 0 = 0 then 3
  else 0

/-- ROLLBACK (R437, R440): a write of CK.CMD.ROLLBACK; it is refused, or a rollback begins. -/
def execRollback (part : Nat) (s : State) : Host.Outcome State Fault Refusal :=
  let r := partReg part 0xF8
  .next (if s.inReset || s.field r 34 34 = 1 then s
    else if s.rollbackCode part ≠ 0 then (s.setField r 36 36 1).setField r 39 37 (s.rollbackCode part)
    else s.setField r 34 34 1)

/-- Partition p's dirty lines go without write-back, in the die caches and in its stash ranges (R440).
(Log 97: DEDUCED) -/
def State.dropDirty (s : State) (p : Nat) : State :=
  let goes := fun (c : CLine) => tagPart c.tag == p && c.dirty != 0
  let keys := s.dies.flatMap fun (_, x) => ((x.lines ++ x.spill).filter goes).map (·.key)
  let s0 := s.forgetCopies fun a => keys.contains (lineOf a)
  let s1 := s0.dies.foldl (fun s (d, x) =>
    s.setDie d { x with lines := x.lines.filter (!goes ·), spill := x.spill.filter (!goes ·) }) s0
  let clean := fun (x : Stash) =>
    if tagPart x.tag = p then { x with sectors := SMap.mapAll Sector.none (fun _ c => if c.dirty then Sector.none else c) x.sectors } else x
  s1.cores.foldl (fun s (n, k) => s.setCoreAt n { k with stash := SMap.mapAll Stash.none (fun _ x => clean x) k.stash }) s1

/-- A logged line is written back with its old tag (R440), a stale one as the sweeper leaves it (R393). (Log 18: DESIGN CHOICE; 97: DEDUCED) -/
def State.replayLine (s : State) (u : Undo) : State :=
  let l := Loc.frame u.pa none
  ((s.forgetCopies fun a => lineOf a == u.pa).putFrame u.pa { data := u.data, tag := s.sweepTag u.tag, poison := false }).written l

/-- ROLLBACK_DONE (R440). (Log 97: DEDUCED) -/
def execRollbackDone (part : Nat) (s : State) : Host.Outcome State Fault Refusal :=
  let r := partReg part 0xF8
  .next (if s.field r 34 34 = 0 then s
    else
      let mine := s.undo.filter fun u => u.part == part && u.logged
      let s1 := mine.foldl (fun s u => s.replayLine u) (s.dropDirty part)
      let s2 : State := { s1 with undo := s1.undo.filter fun u => u.part != part }
      (s2.setField r 34 34 0).setField r 35 35 1)

/-- The clock that the controller sets next (R441), in MHz. (Log 99: DEDUCED) -/
def nextClock (watts cap mhz : Nat) : Nat :=
  if watts > cap then max 600 (mhz - 100) else if 100 * watts < 95 * cap then min 2400 (mhz + 100) else mhz

/-- POWER_CONTROL_TICK (R441): once per millisecond, with the power averaged over it; before the millisecond is over nothing
happens. (Log 99: DEDUCED) -/
def execPowerControlTick (watts : BitVec 13) (s0 : State) : Host.Outcome State Fault Refusal :=
  let s : State := { s0 with tickAt := s0.tickAt + 1_000_000 }
  let cap := s.field (relReg 0x40) 12 0
  let mhz := s.field (relReg 0x48) 27 16
  let w := watts.toNat
  let s1 := if mhz < 2400 then s.count (relReg 0x50) 31 0 1 else s
  let next := nextClock w cap mhz
  let s2 := (s1.setField (relReg 0x48) 12 0 w).setField (relReg 0x48) 27 16 next
  let s3 := s2.setField (relReg 0x50) 32 32 (if next < 2400 then 1 else 0)
  .next (if s0.time < s.tickAt then s0 else if mhz ≤ 600 && w > cap then s3.logError 14 0 false 7 0 0 0 (s3.reg (relReg 0x48)).toNat else s3)

end Sys2Proof.Machine
end

