-- ==== Sys2Proof/Machine/Registers.lean ====
section
/-! DEFINITION. Reads and writes of BAR0 (R10, R351, R427). -/

namespace Sys2Proof.Machine

/-- The partition of an offset in a partition block, with the offset within it. -/
def partOffset (off : Nat) : Option (Nat × Nat) :=
  if 0x20_0000 ≤ off && off < 0x20_0000 + 0x1000 * 64 then some ((off - 0x20_0000) / 0x1000, (off - 0x20_0000) % 0x1000) else none

/-- A register of the rally window (R333). -/
def State.rallyReg (s : State) (p off : Nat) : Word :=
  let r := s.rallyOf p
  let cause := if r.st = 1 then r.cause else 0
  match off with
  | 0x00 => BitVec.ofNat 64 (r.head % 2 ^ 9 + r.st * 2 ^ 9 + cause * 2 ^ 11)
  | 0x08 => BitVec.ofNat 64 (r.fillF + r.fillB * 2 ^ 16 + r.freeDn * 2 ^ 32 + r.freeUp * 2 ^ 48)
  | 0x10 => BitVec.ofNat 64 (r.rdF + r.rdB * 2 ^ 16 + r.wrDn * 2 ^ 32 + r.wrUp * 2 ^ 48)
  | 0x18 => BitVec.ofNat 64 (r.stash + r.stashLim * 2 ^ 16)
  | 0x20 => BitVec.ofNat 64 (r.bubbles.getD 0 0)
  | 0x28 => BitVec.ofNat 64 (r.bubbles.getD 1 0)
  | 0x30 => BitVec.ofNat 64 (r.bubbles.getD 2 0)
  | 0x38 => BitVec.ofNat 64 (r.errs.toNat + r.errEntry % 2 ^ 9 * 2 ^ 8)
  | 0x40 => BitVec.ofNat 64 r.traced
  | _ => 0

/-- The removal of a quad from PQ.QUADS.MASK has not taken effect (R353, R363). -/
def State.maskPending (s : State) (p : Nat) : Bool := SMap.get 0 s.heldQuads p != 0

/-- A register of a partition block that the device computes (R353, R383). -/
def State.computed (s : State) (p off : Nat) : Option Word :=
  let t := s.ten p
  match off with
  | 0x38 => some (putBits (s.reg (partReg p 0x38)) 1 1 (if s.maskPending p then 1 else 0))
  | 0xA0 => some (BitVec.ofNat 64 ((s.curTag p).toNat + t.base.toNat * 2 ^ 16 + (if t.closed then 2 ^ 26 else 0)))
  | 0xB0 => some (BitVec.ofNat 64 (min (s.oldOps p) (2 ^ 32 - 1)))
  | 0xB8 => some (BitVec.ofNat 64 (s.sweeper.passes.toNat + s.sweeper.rate.toNat * 2 ^ 32 + (if s.sweeper.running then 2 ^ 36 else 0)))
  | _ => if 0x800 ≤ off then some (s.rallyReg p (off - 0x800)) else none

/-- An aligned 8-byte read of BAR0 (R10, R351, R427). -/
def State.barRead (s : State) (off : Nat) : Word :=
  match regRule off with
  | none => 0
  | some _ =>
    if s.inReset && !(0x70_0000 ≤ off && off < 0x70_0028) then 0
    else
      match partOffset off with
      | some (p, o) => (s.computed p o).getD (s.reg off)
      | none => s.reg off

/-- A write of CX.CMD (R398, R399): SAVE asks partition p's quads to stop; RESTORE begins; a command while one runs
is ignored and reported. -/
def State.contextCommand (s : State) (p op : Nat) : State :=
  let r := partReg p 0xD8
  if op ≠ 1 && op ≠ 2 then s
  else if s.field r 1 0 ≠ 0 then (s.setField r 3 3 1).setField r 11 4 7
  else if op = 2 then s.setField r 1 0 3
  else
    let stops := fun (q : Nat) => match SMap.get none s.slices q with
      | some y => y.part = p && y.quiesce.isNone
      | none => !s.nothingOn q p
    (((List.range 64).filter stops).foldl (fun s q => s.quiesce q p 0) s).setField r 1 0 1

/-- Writing 1 to bits of RLYE clears them (R333). -/
def State.clearRally (s : State) (p : Nat) (v : Word) : State :=
  let r := s.rallyOf p
  s.setRally p { r with errs := r.errs &&& ~~~ (v.setWidth 7) }

/-- A write that only stores (R10). -/
def State.storeReg (s : State) (off : Nat) (v : Word) : State :=
  match regRule off with
  | some rule => s.setReg off (rule.apply (s.reg off) v)
  | none => s

/-- A write of PQ.QUADS.MASK: quads that it removes stay in use while launches are bound to them (R363). -/
def State.writeMask (s : State) (p : Nat) (v : Word) : State :=
  let old := s.reg (partReg p 0) ||| SMap.get 0 s.heldQuads p
  let s1 := s.storeReg (partReg p 0) v
  let bound := (List.range 64).filter fun q => s1.boundOn p q
  let kept := bound.foldl (fun m q => m ||| BitVec.ofNat 64 (2 ^ q)) (0 : Word)
  { s1 with heldQuads := SMap.set 0 s1.heldQuads p (old &&& kept &&& ~~~ s1.reg (partReg p 0)) }

/-- REGISTER_WRITE (R10, R351): an aligned 8-byte write of BAR0. Offsets that hold no register ignore it, and while
a reset is in progress so does every block but the reset block (R427). -/
def execRegisterWrite (offset : Nat) (value : BitVec 64) (s : State) : Host.Outcome State Fault Refusal :=
  if offset = resetReg 0 then (if value.getLsbD 0 then execWarmReset s else .next s)
  else if s.inReset then .next s
  else if offset = fabricReg 0 then execNodeIdWrite value s
  else if offset = relReg 0x28 then execErrorInject value s
  else
    match partOffset offset with
    | none => .next (s.storeReg offset value)
    | some (p, off) =>
      if off = 0 then .next (s.writeMask p value)
      else if off = 0x78 then execMigrationStart p (bits value 11 0) s
      else if off = 0x80 then execShootdown p value s
      else if off = 0xD0 then .next (s.contextCommand p (bits value 1 0))
      else if off = 0x100 then (if value.getLsbD 0 then execRollback p s else .next s)
      else if off = 0x838 then .next (s.clearRally p value)
      else .next (s.storeReg offset value)

end Sys2Proof.Machine
end

