-- ==== Sys2Proof/Machine/Scalar.lean ====
section
/-! DEFINITION. S slot: 64-bit scalar arithmetic, compares, select and FP32 operations (R158 to R164). -/

namespace Sys2Proof.Machine

/-- An S-slot operation with a scalar destination under its guard. -/
def State.scalarOp (s : State) (g : Guard) (sd : SReg) (v : Word) : Host.Outcome State Fault Refusal :=
  s.guarded g fun s => .ok (s.putScalar sd v)

/-- The immediate i = sext(IMM, 64) (R160). -/
def imm15 (imm : BitVec 15) : Word := imm.signExtend 64

/-- The signed value of a word. -/
def sval (a : Word) : Int := a.toInt

/-- DIVU (R159). -/
def divu (a b : Word) : Word := if b = 0 then BitVec.allOnes 64 else a / b

/-- REMU (R159). -/
def remu (a b : Word) : Word := if b = 0 then a else a % b

/-- DIVS, rounding towards zero; -2^63 by -1 wraps (R159). -/
def divs (a b : Word) : Word := if b = 0 then BitVec.allOnes 64 else BitVec.ofInt 64 (a.toInt.tdiv b.toInt)

/-- REMS, with the sign of a (R159). -/
def rems (a b : Word) : Word := if b = 0 then a else BitVec.ofInt 64 (a.toInt.tmod b.toInt)

/-- Leading zeros of a word, 64 for zero. -/
def leadingZeros (a : Word) : Nat := if a = 0 then 64 else 63 - a.toNat.log2

/-- Trailing zeros of a number of n bits, n for zero. -/
def trailingZeros (a : Nat) : Nat → Nat
  | 0 => 0
  | n + 1 => if a % 2 = 1 then 0 else trailingZeros (a / 2) n + 1

/-- The low w bits of a word, sign-extended or zero-extended (R158). -/
def sextBits (a : Word) (w : Nat) : Word := BitVec.ofInt 64 (intVal w (a.toNat % 2 ^ w))
def zextBits (a : Word) (w : Nat) : Word := BitVec.ofNat 64 (a.toNat % 2 ^ w)

/-- An FP32 result in bits [31:0] (R164). -/
def fp32 (c : Nat) : Word := BitVec.ofNat 64 (c % 2 ^ 32)

/-- The FP32 operand in bits [31:0] (R164). -/
def lowF32 (a : Word) : Nat := a.toNat % 2 ^ 32

/-- S NOP. -/
def execSNop (_ : Guard) (s : State) : Host.Outcome State Fault Refusal := .next s

/-- ADD (R158): a + b. -/
def execAdd (g : Guard) (sd sa sb : SReg) (s : State) : Host.Outcome State Fault Refusal :=
  let a := s.scalar sa
  let b := s.scalar sb
  s.scalarOp g sd (a + b)

/-- SUB (R158): a - b. -/
def execSub (g : Guard) (sd sa sb : SReg) (s : State) : Host.Outcome State Fault Refusal :=
  let a := s.scalar sa
  let b := s.scalar sb
  s.scalarOp g sd (a - b)

/-- MUL (R158): the low 64 bits of a x b. -/
def execMul (g : Guard) (sd sa sb : SReg) (s : State) : Host.Outcome State Fault Refusal :=
  let a := s.scalar sa
  let b := s.scalar sb
  s.scalarOp g sd (a * b)

/-- MULHU (R158): bits [127:64] of the unsigned product. -/
def execMulhu (g : Guard) (sd sa sb : SReg) (s : State) : Host.Outcome State Fault Refusal :=
  let a := s.scalar sa
  let b := s.scalar sb
  s.scalarOp g sd (BitVec.ofNat 64 (a.toNat * b.toNat / 2 ^ 64))

/-- MULHS (R158): bits [127:64] of the signed product. -/
def execMulhs (g : Guard) (sd sa sb : SReg) (s : State) : Host.Outcome State Fault Refusal :=
  let a := s.scalar sa
  let b := s.scalar sb
  s.scalarOp g sd (BitVec.ofInt 64 (sval a * sval b / 2 ^ 64))

/-- DIVU (R159). -/
def execDivu (g : Guard) (sd sa sb : SReg) (s : State) : Host.Outcome State Fault Refusal :=
  let a := s.scalar sa
  let b := s.scalar sb
  s.scalarOp g sd (divu a b)

/-- DIVS (R159). -/
def execDivs (g : Guard) (sd sa sb : SReg) (s : State) : Host.Outcome State Fault Refusal :=
  let a := s.scalar sa
  let b := s.scalar sb
  s.scalarOp g sd (divs a b)

/-- REMU (R159). -/
def execRemu (g : Guard) (sd sa sb : SReg) (s : State) : Host.Outcome State Fault Refusal :=
  let a := s.scalar sa
  let b := s.scalar sb
  s.scalarOp g sd (remu a b)

/-- REMS (R159). -/
def execRems (g : Guard) (sd sa sb : SReg) (s : State) : Host.Outcome State Fault Refusal :=
  let a := s.scalar sa
  let b := s.scalar sb
  s.scalarOp g sd (rems a b)

/-- AND (R158). -/
def execAnd (g : Guard) (sd sa sb : SReg) (s : State) : Host.Outcome State Fault Refusal :=
  let a := s.scalar sa
  let b := s.scalar sb
  s.scalarOp g sd (a &&& b)

/-- OR (R158). -/
def execOr (g : Guard) (sd sa sb : SReg) (s : State) : Host.Outcome State Fault Refusal :=
  let a := s.scalar sa
  let b := s.scalar sb
  s.scalarOp g sd (a ||| b)

/-- XOR (R158). -/
def execXor (g : Guard) (sd sa sb : SReg) (s : State) : Host.Outcome State Fault Refusal :=
  let a := s.scalar sa
  let b := s.scalar sb
  s.scalarOp g sd (a ^^^ b)

/-- ANDN (R158): a and not b. -/
def execAndn (g : Guard) (sd sa sb : SReg) (s : State) : Host.Outcome State Fault Refusal :=
  let a := s.scalar sa
  let b := s.scalar sb
  s.scalarOp g sd (a &&& ~~~ b)

/-- SHL (R158): a shifted left by b[5:0]. -/
def execShl (g : Guard) (sd sa sb : SReg) (s : State) : Host.Outcome State Fault Refusal :=
  let a := s.scalar sa
  let b := s.scalar sb
  s.scalarOp g sd (a <<< (b.toNat % 64))

/-- SHR (R158): a shifted right, logical, by b[5:0]. -/
def execShr (g : Guard) (sd sa sb : SReg) (s : State) : Host.Outcome State Fault Refusal :=
  let a := s.scalar sa
  let b := s.scalar sb
  s.scalarOp g sd (a >>> (b.toNat % 64))

/-- SRA (R158): a shifted right, arithmetic, by b[5:0]. -/
def execSra (g : Guard) (sd sa sb : SReg) (s : State) : Host.Outcome State Fault Refusal :=
  let a := s.scalar sa
  let b := s.scalar sb
  s.scalarOp g sd (a.sshiftRight (b.toNat % 64))

/-- ROL (R158): a rotated left by b[5:0]. -/
def execRol (g : Guard) (sd sa sb : SReg) (s : State) : Host.Outcome State Fault Refusal :=
  let a := s.scalar sa
  let b := s.scalar sb
  s.scalarOp g sd (a.rotateLeft (b.toNat % 64))

/-- MIN (R158): the signed minimum. -/
def execMin (g : Guard) (sd sa sb : SReg) (s : State) : Host.Outcome State Fault Refusal :=
  let a := s.scalar sa
  let b := s.scalar sb
  s.scalarOp g sd (if sval b < sval a then b else a)

/-- MAX (R158): the signed maximum. -/
def execMax (g : Guard) (sd sa sb : SReg) (s : State) : Host.Outcome State Fault Refusal :=
  let a := s.scalar sa
  let b := s.scalar sb
  s.scalarOp g sd (if sval a < sval b then b else a)

/-- MINU (R158): the unsigned minimum. -/
def execMinu (g : Guard) (sd sa sb : SReg) (s : State) : Host.Outcome State Fault Refusal :=
  let a := s.scalar sa
  let b := s.scalar sb
  s.scalarOp g sd (if b < a then b else a)

/-- MAXU (R158): the unsigned maximum. -/
def execMaxu (g : Guard) (sd sa sb : SReg) (s : State) : Host.Outcome State Fault Refusal :=
  let a := s.scalar sa
  let b := s.scalar sb
  s.scalarOp g sd (if a < b then b else a)

/-- CLZ (R158). -/
def execClz (g : Guard) (sd sa : SReg) (s : State) : Host.Outcome State Fault Refusal :=
  let a := s.scalar sa
  s.scalarOp g sd (BitVec.ofNat 64 (leadingZeros a))

/-- CTZ (R158). -/
def execCtz (g : Guard) (sd sa : SReg) (s : State) : Host.Outcome State Fault Refusal :=
  let a := s.scalar sa
  s.scalarOp g sd (BitVec.ofNat 64 (trailingZeros a.toNat 64))

/-- POPC (R158). -/
def execPopc (g : Guard) (sd sa : SReg) (s : State) : Host.Outcome State Fault Refusal :=
  let a := s.scalar sa
  s.scalarOp g sd (BitVec.ofNat 64 (popCount a.toNat 64))

/-- SEXT (R158). -/
def execSext (g : Guard) (sd sa : SReg) (w : BitVec 7) (s : State) : Host.Outcome State Fault Refusal :=
  let a := s.scalar sa
  s.scalarOp g sd (sextBits a w.toNat)

/-- ZEXT (R158). -/
def execZext (g : Guard) (sd sa : SReg) (w : BitVec 7) (s : State) : Host.Outcome State Fault Refusal :=
  let a := s.scalar sa
  s.scalarOp g sd (zextBits a w.toNat)

/-- MOV (R158). -/
def execMov (g : Guard) (sd sa : SReg) (s : State) : Host.Outcome State Fault Refusal :=
  let a := s.scalar sa
  s.scalarOp g sd (a)

/-- ADDX (R158): a + (b shifted left by IMM[2:0]). -/
def execAddx (g : Guard) (sd sa sb : SReg) (sh : BitVec 3) (s : State) : Host.Outcome State Fault Refusal :=
  s.scalarOp g sd (s.scalar sa + (s.scalar sb <<< sh.toNat))

/-- ADDI (R160). -/
def execAddi (g : Guard) (sd sa : SReg) (imm : BitVec 15) (s : State) : Host.Outcome State Fault Refusal :=
  let a := s.scalar sa
  s.scalarOp g sd (a + imm15 imm)

/-- ANDI (R160). -/
def execAndi (g : Guard) (sd sa : SReg) (imm : BitVec 15) (s : State) : Host.Outcome State Fault Refusal :=
  let a := s.scalar sa
  s.scalarOp g sd (a &&& imm15 imm)

/-- ORI (R160). -/
def execOri (g : Guard) (sd sa : SReg) (imm : BitVec 15) (s : State) : Host.Outcome State Fault Refusal :=
  let a := s.scalar sa
  s.scalarOp g sd (a ||| imm15 imm)

/-- XORI (R160). -/
def execXori (g : Guard) (sd sa : SReg) (imm : BitVec 15) (s : State) : Host.Outcome State Fault Refusal :=
  let a := s.scalar sa
  s.scalarOp g sd (a ^^^ imm15 imm)

/-- SHLI (R160). -/
def execShli (g : Guard) (sd sa : SReg) (sh : BitVec 6) (s : State) : Host.Outcome State Fault Refusal :=
  let a := s.scalar sa
  s.scalarOp g sd (a <<< sh.toNat)

/-- SHRI (R160). -/
def execShri (g : Guard) (sd sa : SReg) (sh : BitVec 6) (s : State) : Host.Outcome State Fault Refusal :=
  let a := s.scalar sa
  s.scalarOp g sd (a >>> sh.toNat)

/-- SRAI (R160). -/
def execSrai (g : Guard) (sd sa : SReg) (sh : BitVec 6) (s : State) : Host.Outcome State Fault Refusal :=
  let a := s.scalar sa
  s.scalarOp g sd (a.sshiftRight sh.toNat)

/-- LI (R161). -/
def execLi (g : Guard) (sd : SReg) (imm : BitVec 29) (s : State) : Host.Outcome State Fault Refusal := s.scalarOp g sd (imm.signExtend 64)

/-- LIH (R161): the low 29 bits of sD kept, the rest from the immediate. -/
def execLih (g : Guard) (sd : SReg) (imm : BitVec 29) (s : State) : Host.Outcome State Fault Refusal :=
  s.scalarOp g sd ((imm.signExtend 64 <<< 29) ||| (s.scalar sd &&& 0x1FFFFFFF))

/-- CEQ (R162). -/
def execCeq (g : Guard) (pd : BitVec 4) (sa sb : SReg) (s : State) : Host.Outcome State Fault Refusal :=
  let a := s.scalar sa
  let b := s.scalar sb
  s.scalarCompare g pd (a == b)

/-- CNE (R162). -/
def execCne (g : Guard) (pd : BitVec 4) (sa sb : SReg) (s : State) : Host.Outcome State Fault Refusal :=
  let a := s.scalar sa
  let b := s.scalar sb
  s.scalarCompare g pd (a != b)

/-- CLT (R162). -/
def execClt (g : Guard) (pd : BitVec 4) (sa sb : SReg) (s : State) : Host.Outcome State Fault Refusal :=
  let a := s.scalar sa
  let b := s.scalar sb
  s.scalarCompare g pd (sval a < sval b)

/-- CLE (R162). -/
def execCle (g : Guard) (pd : BitVec 4) (sa sb : SReg) (s : State) : Host.Outcome State Fault Refusal :=
  let a := s.scalar sa
  let b := s.scalar sb
  s.scalarCompare g pd (sval a ≤ sval b)

/-- CLTU (R162). -/
def execCltu (g : Guard) (pd : BitVec 4) (sa sb : SReg) (s : State) : Host.Outcome State Fault Refusal :=
  let a := s.scalar sa
  let b := s.scalar sb
  s.scalarCompare g pd (a.toNat < b.toNat)

/-- CLEU (R162). -/
def execCleu (g : Guard) (pd : BitVec 4) (sa sb : SReg) (s : State) : Host.Outcome State Fault Refusal :=
  let a := s.scalar sa
  let b := s.scalar sb
  s.scalarCompare g pd (a.toNat ≤ b.toNat)

/-- CEQI (R162). -/
def execCeqi (g : Guard) (pd : BitVec 4) (sa : SReg) (imm : BitVec 15) (s : State) : Host.Outcome State Fault Refusal :=
  let a := s.scalar sa
  s.scalarCompare g pd (a == imm15 imm)

/-- CLTI (R162). -/
def execClti (g : Guard) (pd : BitVec 4) (sa : SReg) (imm : BitVec 15) (s : State) : Host.Outcome State Fault Refusal :=
  let a := s.scalar sa
  s.scalarCompare g pd (sval a < sval (imm15 imm))

/-- CLTUI (R162). -/
def execCltui (g : Guard) (pd : BitVec 4) (sa : SReg) (imm : BitVec 15) (s : State) : Host.Outcome State Fault Refusal :=
  let a := s.scalar sa
  s.scalarCompare g pd (a.toNat < (imm15 imm).toNat)

/-- SEL (R163): a if lane 0 of pN is true, else b. -/
def execSel (g : Guard) (sd sa sb : SReg) (pn : BitVec 4) (s : State) : Host.Outcome State Fault Refusal :=
  s.scalarOp g sd (if (s.pred pn).getLsbD 0 then s.scalar sa else s.scalar sb)

/-- FADD (R164): rounded in RNE. -/
def execFadd (g : Guard) (sd sa sb : SReg) (s : State) : Host.Outcome State Fault Refusal :=
  let a := s.scalar sa
  let b := s.scalar sb
  s.scalarOp g sd (fp32 (addF32 .rne (lowF32 a) (lowF32 b)))

/-- FMUL (R164): rounded in RNE. -/
def execFmul (g : Guard) (sd sa sb : SReg) (s : State) : Host.Outcome State Fault Refusal :=
  let a := s.scalar sa
  let b := s.scalar sb
  s.scalarOp g sd (fp32 (round .f32 .rne false (xmul (floatVal .f32 (lowF32 a)) (floatVal .f32 (lowF32 b)))))

/-- FMIN (R164). -/
def execFmin (g : Guard) (sd sa sb : SReg) (s : State) : Host.Outcome State Fault Refusal :=
  let a := s.scalar sa
  let b := s.scalar sb
  s.scalarOp g sd (fp32 (fmin .f32 (lowF32 a) (lowF32 b)))

/-- FMAX (R164). -/
def execFmax (g : Guard) (sd sa sb : SReg) (s : State) : Host.Outcome State Fault Refusal :=
  let a := s.scalar sa
  let b := s.scalar sb
  s.scalarOp g sd (fp32 (fmax .f32 (lowF32 a) (lowF32 b)))

/-- FTOI (R164): FP32 to INT64 in RNE. -/
def execFtoi (g : Guard) (sd sa : SReg) (s : State) : Host.Outcome State Fault Refusal :=
  let a := s.scalar sa
  s.scalarOp g sd (BitVec.ofNat 64 (toInt 64 .rne (floatVal .f32 (lowF32 a))))

/-- ITOF (R164): INT64 to FP32 in RNE. -/
def execItof (g : Guard) (sd sa : SReg) (s : State) : Host.Outcome State Fault Refusal :=
  let a := s.scalar sa
  s.scalarOp g sd (fp32 (round .f32 .rne false (ofInt (sval a))))

end Sys2Proof.Machine
end

