-- ==== Sys2Proof/Machine/VecFloat.lean ====
section
/-! DEFINITION. V slot: floating-point lane operations, transcendentals, compares and VROUND (R168, R174 to R177, R184). -/

namespace Sys2Proof.Machine

/-- A finite result or special value in the slot's format and mode: every lane operation rounds once (R169). -/
def roundLane (f : Fmt) (rm : RM) (x : XVal) : Nat := round f rm false x

/-- A NaN code becomes the canonical NaN of R70; any other code passes through the function. -/
def unlessNaN (f : Fmt) (h : Nat → Nat) (c : Nat) : Nat :=
  if isNaN (floatVal f c) then canonicalNaN f false else h c

/-- The sign bit of a format. -/
def signBit (f : Fmt) : Nat := 2 ^ (fmtWidth f - 1)

/-- V NOP (R168): no effect, no push. -/
def execVNop (_ : Guard) (s : State) : Host.Outcome State Fault Refusal := .next s

/-- VADD (R174): a + b. -/
def execVadd (g : Guard) (f : Fmt) (rm : RM) (vd : VDst) (va vb : VSrc) (s : State) : Host.Outcome State Fault Refusal :=
  s.vectorOp g f vd [va, vb] 4 (lanes2 f fun a b => roundLane f rm (xadd rm (floatVal f a) (floatVal f b)))

/-- VSUB (R174): a - b. -/
def execVsub (g : Guard) (f : Fmt) (rm : RM) (vd : VDst) (va vb : VSrc) (s : State) : Host.Outcome State Fault Refusal :=
  s.vectorOp g f vd [va, vb] 4 (lanes2 f fun a b => roundLane f rm (xadd rm (floatVal f a) (xneg (floatVal f b))))

/-- VMUL (R174): a x b. -/
def execVmul (g : Guard) (f : Fmt) (rm : RM) (vd : VDst) (va vb : VSrc) (s : State) : Host.Outcome State Fault Refusal :=
  s.vectorOp g f vd [va, vb] 4 (lanes2 f fun a b => roundLane f rm (xmul (floatVal f a) (floatVal f b)))

/-- VFMA (R174): a x b + c, rounded once. -/
def execVfma (g : Guard) (f : Fmt) (rm : RM) (vd : VDst) (va vb vc : VSrc) (s : State) : Host.Outcome State Fault Refusal :=
  s.vectorOp g f vd [va, vb, vc] 4 (lanes3 f fun a b c =>
    roundLane f rm (xadd rm (xmul (floatVal f a) (floatVal f b)) (floatVal f c)))

/-- VFMS (R174): a x b - c, rounded once. -/
def execVfms (g : Guard) (f : Fmt) (rm : RM) (vd : VDst) (va vb vc : VSrc) (s : State) : Host.Outcome State Fault Refusal :=
  s.vectorOp g f vd [va, vb, vc] 4 (lanes3 f fun a b c =>
    roundLane f rm (xadd rm (xmul (floatVal f a) (floatVal f b)) (xneg (floatVal f c))))

/-- VFNMA (R174): -(a x b) + c, rounded once. -/
def execVfnma (g : Guard) (f : Fmt) (rm : RM) (vd : VDst) (va vb vc : VSrc) (s : State) : Host.Outcome State Fault Refusal :=
  s.vectorOp g f vd [va, vb, vc] 4 (lanes3 f fun a b c =>
    roundLane f rm (xadd rm (xneg (xmul (floatVal f a) (floatVal f b))) (floatVal f c)))

/-- VMIN (R174): the lesser, -0 below +0, canonical NaN if either is NaN. -/
def execVmin (g : Guard) (f : Fmt) (_ : RM) (vd : VDst) (va vb : VSrc) (s : State) : Host.Outcome State Fault Refusal :=
  s.vectorOp g f vd [va, vb] 4 (lanes2 f (fmin f))

/-- VMAX (R174): the greater, -0 below +0, canonical NaN if either is NaN. -/
def execVmax (g : Guard) (f : Fmt) (_ : RM) (vd : VDst) (va vb : VSrc) (s : State) : Host.Outcome State Fault Refusal :=
  s.vectorOp g f vd [va, vb] 4 (lanes2 f (fmax f))

/-- VABS (R174): the sign cleared, canonical NaN for a NaN. -/
def execVabs (g : Guard) (f : Fmt) (_ : RM) (vd : VDst) (va : VSrc) (s : State) : Host.Outcome State Fault Refusal :=
  s.vectorOp g f vd [va] 4 (lanes1 f (unlessNaN f fun a => a % signBit f))

/-- VNEG (R174): the sign inverted, canonical NaN for a NaN. -/
def execVneg (g : Guard) (f : Fmt) (_ : RM) (vd : VDst) (va : VSrc) (s : State) : Host.Outcome State Fault Refusal :=
  s.vectorOp g f vd [va] 4 (lanes1 f (unlessNaN f fun a => (a + signBit f) % 2 ^ fmtWidth f))

/-- VRCP (R175): 1 / a, correctly rounded. -/
def execVrcp (g : Guard) (f : Fmt) (rm : RM) (vd : VDst) (va : VSrc) (s : State) : Host.Outcome State Fault Refusal :=
  s.vectorOp g f vd [va] 8 (lanes1 f fun a => roundLane f rm (xrcp (floatVal f a)))

/-- VRSQ (R175): the reciprocal of the square root, correctly rounded. -/
def execVrsq (g : Guard) (f : Fmt) (rm : RM) (vd : VDst) (va : VSrc) (s : State) : Host.Outcome State Fault Refusal :=
  s.vectorOp g f vd [va] 8 (lanes1 f fun a => roundLane f rm (xrsq (floatVal f a)))

/-- VSQRT (R175): the square root, correctly rounded. -/
def execVsqrt (g : Guard) (f : Fmt) (rm : RM) (vd : VDst) (va : VSrc) (s : State) : Host.Outcome State Fault Refusal :=
  s.vectorOp g f vd [va] 8 (lanes1 f fun a => roundLane f rm (xsqrt (floatVal f a)))

/-- VEXP2 (R175): 2 to the power a, correctly rounded. (Log 9: UNVERIFIED) -/
def execVexp2 (g : Guard) (f : Fmt) (rm : RM) (vd : VDst) (va : VSrc) (s : State) : Host.Outcome State Fault Refusal :=
  s.vectorOp g f vd [va] 8 (lanes1 f fun a => roundLane f rm (xexp2 (floatVal f a)))

/-- VLOG2 (R175): the logarithm to base 2, correctly rounded. (Log 9: UNVERIFIED) -/
def execVlog2 (g : Guard) (f : Fmt) (rm : RM) (vd : VDst) (va : VSrc) (s : State) : Host.Outcome State Fault Refusal :=
  s.vectorOp g f vd [va] 8 (lanes1 f fun a => roundLane f rm (xlog2 (floatVal f a)))

/-- VROUND (R184): the integer-valued element that RM chooses. -/
def execVround (g : Guard) (f : Fmt) (rm : RM) (vd : VDst) (va : VSrc) (s : State) : Host.Outcome State Fault Refusal :=
  s.vectorOp g f vd [va] 4 (lanes1 f (roundToInteger f rm))

/-- VCMPEQ (R176): a = b, false with a NaN. -/
def execVcmpeq (g : Guard) (f : Fmt) (_ : RM) (pd : BitVec 4) (va vb : VSrc) (s : State) : Host.Outcome State Fault Refusal :=
  s.compareOp g f pd [va, vb] fun vs e => floatEq f (elem f (src1 vs) e) (elem f (src2 vs) e)

/-- VCMPLT (R176): a < b, false with a NaN. -/
def execVcmplt (g : Guard) (f : Fmt) (_ : RM) (pd : BitVec 4) (va vb : VSrc) (s : State) : Host.Outcome State Fault Refusal :=
  s.compareOp g f pd [va, vb] fun vs e => floatLt f (elem f (src1 vs) e) (elem f (src2 vs) e)

/-- VCMPLE (R176): a <= b, false with a NaN. -/
def execVcmple (g : Guard) (f : Fmt) (_ : RM) (pd : BitVec 4) (va vb : VSrc) (s : State) : Host.Outcome State Fault Refusal :=
  s.compareOp g f pd [va, vb] fun vs e => floatLt f (elem f (src1 vs) e) (elem f (src2 vs) e) || floatEq f (elem f (src1 vs) e) (elem f (src2 vs) e)

/-- VCMPNE (R176): not a = b, true with a NaN. -/
def execVcmpne (g : Guard) (f : Fmt) (_ : RM) (pd : BitVec 4) (va vb : VSrc) (s : State) : Host.Outcome State Fault Refusal :=
  s.compareOp g f pd [va, vb] fun vs e => !floatEq f (elem f (src1 vs) e) (elem f (src2 vs) e)

/-- VCLASS (R177): the class of the element has its bit set in the mask. -/
def execVclass (g : Guard) (f : Fmt) (_ : RM) (pd : BitVec 4) (va : VSrc) (mask : BitVec 9) (s : State) : Host.Outcome State Fault Refusal :=
  s.compareOp g f pd [va] fun vs e => mask.getLsbD (classOf f (elem f (src1 vs) e))

end Sys2Proof.Machine
end

