-- ==== Sys2Proof/Machine/VecInt.lean ====
section
/-! DEFINITION. V slot: integer and bitwise lane operations and integer compares (R176, R179). -/

namespace Sys2Proof.Machine

/-- VIADD (R179): a + b, wrapping. -/
def execViadd (g : Guard) (f : Fmt) (_ : RM) (vd : VDst) (va vb : VSrc) (s : State) : Host.Outcome State Fault Refusal :=
  s.vectorOp g f vd [va, vb] 4 (lanes2 f fun a b => a + b)

/-- VISUB (R179): a - b, wrapping. -/
def execVisub (g : Guard) (f : Fmt) (_ : RM) (vd : VDst) (va vb : VSrc) (s : State) : Host.Outcome State Fault Refusal :=
  s.vectorOp g f vd [va, vb] 4 (lanes2 f fun a b => a + (2 ^ fmtWidth f - b))

/-- VIMUL (R179): the low bits of a x b. -/
def execVimul (g : Guard) (f : Fmt) (_ : RM) (vd : VDst) (va vb : VSrc) (s : State) : Host.Outcome State Fault Refusal :=
  s.vectorOp g f vd [va, vb] 4 (lanes2 f fun a b => a * b)

/-- VIMIN (R179): the signed minimum. -/
def execVimin (g : Guard) (f : Fmt) (_ : RM) (vd : VDst) (va vb : VSrc) (s : State) : Host.Outcome State Fault Refusal :=
  s.vectorOp g f vd [va, vb] 4 (lanes2 f fun a b => if intVal (fmtWidth f) b < intVal (fmtWidth f) a then b else a)

/-- VIMAX (R179): the signed maximum. -/
def execVimax (g : Guard) (f : Fmt) (_ : RM) (vd : VDst) (va vb : VSrc) (s : State) : Host.Outcome State Fault Refusal :=
  s.vectorOp g f vd [va, vb] 4 (lanes2 f fun a b => if intVal (fmtWidth f) a < intVal (fmtWidth f) b then b else a)

/-- VAND (R179): a and b, bit by bit. -/
def execVand (g : Guard) (f : Fmt) (_ : RM) (vd : VDst) (va vb : VSrc) (s : State) : Host.Outcome State Fault Refusal :=
  s.vectorOp g f vd [va, vb] 4 (lanes2 f fun a b => a &&& b)

/-- VOR (R179): a or b, bit by bit. -/
def execVor (g : Guard) (f : Fmt) (_ : RM) (vd : VDst) (va vb : VSrc) (s : State) : Host.Outcome State Fault Refusal :=
  s.vectorOp g f vd [va, vb] 4 (lanes2 f fun a b => a ||| b)

/-- VXOR (R179): a xor b, bit by bit. -/
def execVxor (g : Guard) (f : Fmt) (_ : RM) (vd : VDst) (va vb : VSrc) (s : State) : Host.Outcome State Fault Refusal :=
  s.vectorOp g f vd [va, vb] 4 (lanes2 f fun a b => a ^^^ b)

/-- VSHL (R179): a shifted left by b mod the width. -/
def execVshl (g : Guard) (f : Fmt) (_ : RM) (vd : VDst) (va vb : VSrc) (s : State) : Host.Outcome State Fault Refusal :=
  s.vectorOp g f vd [va, vb] 4 (lanes2 f fun a b => a * 2 ^ (b % fmtWidth f))

/-- VSHR (R179): a shifted right, logical, by b mod the width. -/
def execVshr (g : Guard) (f : Fmt) (_ : RM) (vd : VDst) (va vb : VSrc) (s : State) : Host.Outcome State Fault Refusal :=
  s.vectorOp g f vd [va, vb] 4 (lanes2 f fun a b => a / 2 ^ (b % fmtWidth f))

/-- VSRA (R179): a shifted right, arithmetic, by b mod the width. -/
def execVsra (g : Guard) (f : Fmt) (_ : RM) (vd : VDst) (va vb : VSrc) (s : State) : Host.Outcome State Fault Refusal :=
  s.vectorOp g f vd [va, vb] 4 (lanes2 f fun a b => intCode (fmtWidth f) (intVal (fmtWidth f) a / 2 ^ (b % fmtWidth f)))

/-- VIABS (R179): the absolute value, the least integer itself. -/
def execViabs (g : Guard) (f : Fmt) (_ : RM) (vd : VDst) (va : VSrc) (s : State) : Host.Outcome State Fault Refusal :=
  s.vectorOp g f vd [va] 4 (lanes1 f fun a => intCode (fmtWidth f) (intVal (fmtWidth f) a).natAbs)

/-- VPOPC (R179): the count of set bits. -/
def execVpopc (g : Guard) (f : Fmt) (_ : RM) (vd : VDst) (va : VSrc) (s : State) : Host.Outcome State Fault Refusal :=
  s.vectorOp g f vd [va] 4 (lanes1 f fun a => popCount a (fmtWidth f))

/-- VICMPEQ (R176): a = b as integers. -/
def execVicmpeq (g : Guard) (f : Fmt) (_ : RM) (pd : BitVec 4) (va vb : VSrc) (s : State) : Host.Outcome State Fault Refusal :=
  s.compareOp g f pd [va, vb] fun vs e => intEq f (elem f (src1 vs) e) (elem f (src2 vs) e)

/-- VICMPLT (R176): signed a < b. -/
def execVicmplt (g : Guard) (f : Fmt) (_ : RM) (pd : BitVec 4) (va vb : VSrc) (s : State) : Host.Outcome State Fault Refusal :=
  s.compareOp g f pd [va, vb] fun vs e => intLt f (elem f (src1 vs) e) (elem f (src2 vs) e)

end Sys2Proof.Machine
end

