-- ==== Sys2Proof/Machine/VecMove.lean ====
section
/-! DEFINITION. V slot: select, conversion, quantisation, decoding and data movement (R178, R180 to R183, R185, R186). -/

namespace Sys2Proof.Machine

/-- VSEL (R178): a where pC selects the element, b elsewhere, bits unchanged. -/
def execVsel (g : Guard) (f : Fmt) (_ : RM) (vd : VDst) (va vb : VSrc) (pc : BitVec 4) (s : State) : Host.Outcome State Fault Refusal :=
  s.vectorOp g f vd [va, vb] 4 fun vs =>
    mkVec f fun e => if selects f (s.pred pc) e then elem f (src1 vs) e else elem f (src2 vs) e

/-- The placement of the output of a conversion from ni to N(fd) elements, part p (R180). -/
def place (fd : Fmt) (ni p : Nat) (conv : Nat → Nat) : VBits :=
  let no := fmtCount fd
  if no < ni then mkVec fd fun e => conv (p * no + e)
  else mkVec fd fun e => if p * ni ≤ e && e < (p + 1) * ni then conv (e - p * ni) else 0

/-- VCVT (R181). -/
def execVcvt (g : Guard) (fd : Fmt) (rm : RM) (vd : VDst) (va : VSrc) (fs : Fmt) (sat : Bool) (part : BitVec 4)
    (s : State) : Host.Outcome State Fault Refusal :=
  s.vectorOp g fd vd [va] 4 fun vs =>
    place fd (fmtCount fs) part.toNat fun i => convert fs fd rm sat (elem fs (src1 vs) i)

/-- The NaN result of a quantisation: the canonical NaN, the E2M1 codes of R182, or integer 0. -/
def quantNaN (fd : Fmt) (sat : Bool) : Nat :=
  match fd with
  | .i8 => 0
  | .e2m1 => if sat then 0 else 8
  | _ => canonicalNaN fd false

/-- VQNT (R182): each block of 32 inputs is scaled by its byte of vC and rounded once. -/
def execVqnt (g : Guard) (fd : Fmt) (rm : RM) (vd : VDst) (va vc : VSrc) (fs : Fmt) (sat : Bool) (part : BitVec 4)
    (s : State) : Host.Outcome State Fault Refusal :=
  s.vectorOp g fd vd [va, vc] 4 fun vs =>
    place fd (fmtCount fs) part.toNat fun i =>
      let b := elem .i8 (src2 vs) (i / 32)
      if b = 0xFF then quantNaN fd sat
      else
        let x := xscale (127 - (b : Int)) (floatVal fs (elem fs (src1 vs) i))
        if fd == .i8 then toInt 8 rm x else round fd rm sat x

/-- VCBDEC (R183): component c of index p m + j, decoded by R81. -/
def execVcbdec (g : Guard) (fd : Fmt) (rm : RM) (vd : VDst) (va : VSrc) (part : BitVec 4) (s : State) :
    Host.Outcome State Fault Refusal :=
  s.vectorOp g fd vd [va] 4 fun vs =>
    let m := fmtCount fd / 8
    mkVec fd fun e => round fd rm false (vq2Val (elem .i16 (src1 vs) (part.toNat * m + e / 8)) (e % 8))

/-- VMOV (R185): the elements of a. -/
def execVmov (g : Guard) (f : Fmt) (_ : RM) (vd : VDst) (va : VSrc) (s : State) : Host.Outcome State Fault Refusal :=
  s.vectorOp g f vd [va] 4 fun vs => mkVec f fun e => elem f (src1 vs) e

/-- VBCST (R185): element n of a everywhere. -/
def execVbcst (g : Guard) (f : Fmt) (_ : RM) (vd : VDst) (va : VSrc) (n : BitVec 11) (s : State) : Host.Outcome State Fault Refusal :=
  s.vectorOp g f vd [va] 4 fun vs => mkVec f fun _ => elem f (src1 vs) n.toNat

/-- VPERM (R185): the element of a that b names. -/
def execVperm (g : Guard) (f : Fmt) (_ : RM) (vd : VDst) (va vb : VSrc) (s : State) : Host.Outcome State Fault Refusal :=
  s.vectorOp g f vd [va, vb] 4 fun vs => mkVec f fun e => elem f (src1 vs) (elem f (src2 vs) e % fmtCount f)

/-- VROTL (R185): each element n places towards element 0. -/
def execVrotl (g : Guard) (f : Fmt) (_ : RM) (vd : VDst) (va : VSrc) (n : BitVec 11) (s : State) : Host.Outcome State Fault Refusal :=
  s.vectorOp g f vd [va] 4 fun vs => mkVec f fun e => elem f (src1 vs) ((e + n.toNat) % fmtCount f)

/-- VEXTR (R185): a from element n, then b. -/
def execVextr (g : Guard) (f : Fmt) (_ : RM) (vd : VDst) (va vb : VSrc) (n : BitVec 11) (s : State) : Host.Outcome State Fault Refusal :=
  s.vectorOp g f vd [va, vb] 4 fun vs => 
    let c := fmtCount f
    mkVec f fun e => if e + n.toNat < c then elem f (src1 vs) (e + n.toNat) else elem f (src2 vs) (e + n.toNat - c)

/-- VINS (R185): a with element n replaced by element 0 of b. -/
def execVins (g : Guard) (f : Fmt) (_ : RM) (vd : VDst) (va vb : VSrc) (n : BitVec 11) (s : State) : Host.Outcome State Fault Refusal :=
  s.vectorOp g f vd [va, vb] 4 fun vs => 
    mkVec f fun e => if e = n.toNat then elem f (src2 vs) 0 else elem f (src1 vs) e

/-- VZIP (R185): half h of a and b, interleaved. -/
def execVzip (g : Guard) (f : Fmt) (_ : RM) (vd : VDst) (va vb : VSrc) (h : Bool) (s : State) : Host.Outcome State Fault Refusal :=
  s.vectorOp g f vd [va, vb] 4 fun vs => 
    let from_ := if h then fmtCount f / 2 else 0
    mkVec f fun e => if e % 2 = 0 then elem f (src1 vs) (e / 2 + from_) else elem f (src2 vs) (e / 2 + from_)

/-- VUNZIP (R185): every second element of a followed by b, from element o. -/
def execVunzip (g : Guard) (f : Fmt) (_ : RM) (vd : VDst) (va vb : VSrc) (o : Bool) (s : State) : Host.Outcome State Fault Refusal :=
  s.vectorOp g f vd [va, vb] 4 fun vs => 
    let c := fmtCount f
    mkVec f fun e =>
      let i := 2 * e + (if o then 1 else 0)
      if i < c then elem f (src1 vs) i else elem f (src2 vs) (i - c)

/-- VIOTA (R185): e in every element e, as an integer or rounded. -/
def execViota (g : Guard) (f : Fmt) (rm : RM) (vd : VDst) (s : State) : Host.Outcome State Fault Refusal :=
  s.vectorOp g f vd [] 4 fun _ =>
    mkVec f fun e => if fmtInt f then e else round f rm false (ofInt e)

/-- How many of the elements below e are selected. -/
def selectedBelow (f : Fmt) (p : Lanes) (e : Nat) : Nat := ((List.range e).filter fun i => selects f p i).length

/-- The indices of the selected elements, ascending. -/
def selectedList (f : Fmt) (p : Lanes) : List Nat := (List.range (fmtCount f)).filter fun i => selects f p i

/-- VCOMPR (R186): the selected elements moved together, then zeros. -/
def execVcompr (g : Guard) (f : Fmt) (_ : RM) (vd : VDst) (va : VSrc) (pc : BitVec 4) (s : State) : Host.Outcome State Fault Refusal :=
  s.vectorOp g f vd [va] 4 fun vs => 
    let xs := selectedList f (s.pred pc)
    mkVec f fun e =>
      match xs[e]? with
      | some i => elem f (src1 vs) i
      | none => 0

/-- VEXPND (R186): successive elements of a spread over the selected ones, zeros elsewhere. -/
def execVexpnd (g : Guard) (f : Fmt) (_ : RM) (vd : VDst) (va : VSrc) (pc : BitVec 4) (s : State) : Host.Outcome State Fault Refusal :=
  s.vectorOp g f vd [va] 4 fun vs => 
    mkVec f fun e =>
      if selects f (s.pred pc) e then elem f (src1 vs) (selectedBelow f (s.pred pc) e) else 0

end Sys2Proof.Machine
end

