-- ==== Sys2Proof/Machine/VecReduce.lean ====
section
/-! DEFINITION. V slot: reductions, scans, dot products and arg-max (R86 to R88, R187, R188). -/

namespace Sys2Proof.Machine

/-- One level of the pairwise tree (R86). -/
def pairUp (op : Nat → Nat → Nat) : List Nat → List Nat
  | a :: b :: rest => op a b :: pairUp op rest
  | xs => xs

/-- The pairwise tree by index (R86): as many levels as the fuel says. -/
def tree (op : Nat → Nat → Nat) (d : Nat) : Nat → List Nat → Nat
  | 0, xs => xs.headD d
  | n + 1, xs => tree op d n (pairUp op xs)

/-- The levels of a tree over n elements, n a power of two. -/
def levels (n : Nat) : Nat := n.log2

/-- The format of a reduction's result: FP32 for a float, its own for an integer (R187). -/
def resultFmt (f : Fmt) : Fmt := if fmtInt f then f else .f32

/-- The elements that take part, each exact in the result's format, and the identity for the others. -/
def taking (f : Fmt) (p : Lanes) (v : VBits) (identity : Nat) : List Nat :=
  (List.range (fmtCount f)).map fun e =>
    if selects f p e then (if fmtInt f then elem f v e else widen f (elem f v e)) else identity

/-- A result in element 0 of its format, zero elsewhere (R187). -/
def single (f : Fmt) (r : Nat) : VBits := mkVec (resultFmt f) fun e => if e = 0 then r else 0

/-- Addition in the result's format: wrapping, or rounded once in RM (R86). -/
def sumOp (f : Fmt) (rm : RM) (a b : Nat) : Nat := if fmtInt f then (a + b) % 2 ^ fmtWidth f else addF32 rm a b

/-- The identity of a sum: integer 0, or -0 (R187). -/
def sumIdentity (f : Fmt) : Nat := if fmtInt f then 0 else 0x80000000

/-- A reduction by the pairwise tree. -/
def reduce (f : Fmt) (p : Lanes) (v : VBits) (identity : Nat) (op : Nat → Nat → Nat) : VBits :=
  single f (tree op identity (levels (fmtCount f)) (taking f p v identity))

/-- VRSUM (R187). (Log 22: DEDUCED) -/
def execVrsum (g : Guard) (f : Fmt) (rm : RM) (vd : VDst) (va : VSrc) (pc : BitVec 4) (s : State) : Host.Outcome State Fault Refusal :=
  s.vectorOp g f vd [va] 8 fun vs => reduce f (s.pred pc) (src1 vs) (sumIdentity f) (sumOp f rm)

/-- VRMAX (R187): identity minus infinity, or the least integer. -/
def execVrmax (g : Guard) (f : Fmt) (_ : RM) (vd : VDst) (va : VSrc) (pc : BitVec 4) (s : State) : Host.Outcome State Fault Refusal :=
  s.vectorOp g f vd [va] 8 fun vs =>
    reduce f (s.pred pc) (src1 vs) (if fmtInt f then 2 ^ (fmtWidth f - 1) else 0xFF800000)
      (if fmtInt f then fun a b => if intVal (fmtWidth f) a < intVal (fmtWidth f) b then b else a else fmax .f32)

/-- VRMIN (R187): identity infinity, or the greatest integer. -/
def execVrmin (g : Guard) (f : Fmt) (_ : RM) (vd : VDst) (va : VSrc) (pc : BitVec 4) (s : State) : Host.Outcome State Fault Refusal :=
  s.vectorOp g f vd [va] 8 fun vs =>
    reduce f (s.pred pc) (src1 vs) (if fmtInt f then 2 ^ (fmtWidth f - 1) - 1 else 0x7F800000)
      (if fmtInt f then fun a b => if intVal (fmtWidth f) b < intVal (fmtWidth f) a then b else a else fmin .f32)

/-- The inclusive prefix in ascending order (R88): each output is the one before it combined with the next
input. -/
def scanFrom (op : Nat → Nat → Nat) : Nat → List Nat → List Nat
  | _, [] => []
  | acc, x :: xs => op acc x :: scanFrom op (op acc x) xs

/-- The inclusive prefix: the first element as it is, then R88's chain. -/
def scanList (op : Nat → Nat → Nat) : List Nat → List Nat
  | [] => []
  | x :: xs => x :: scanFrom op x xs

/-- VSCAN (R88, R187). -/
def execVscan (g : Guard) (f : Fmt) (rm : RM) (vd : VDst) (va : VSrc) (pc : BitVec 4) (s : State) : Host.Outcome State Fault Refusal :=
  s.vectorOp g f vd [va] 8 fun vs =>
    let xs := scanList (sumOp f rm) (taking f (s.pred pc) (src1 vs) (sumIdentity f))
    BitVec.ofNat 8192 (xs.foldr (fun x acc => acc * 2 ^ fmtWidth f + x) 0)

/-- The products of a dot product, exact; those not selected are zero (R87, R187). -/
def products (f : Fmt) (p : Lanes) (a b : VBits) : List XVal :=
  (List.range (fmtCount f)).map fun e =>
    if selects f p e then xmul (codeVal f (elem f a e)) (codeVal f (elem f b e)) else ofInt 0

/-- Groups of 32 (R87). -/
def groups32 (xs : List XVal) : Nat → List (List XVal)
  | 0 => []
  | n + 1 => xs.take 32 :: groups32 (xs.drop 32) n

/-- The dot product: each group of 32 exact products summed exactly and rounded once, then the tree; in
integers the exact sum modulo 2^32 (R87, R187). -/
def dot (f : Fmt) (rm : RM) (p : Lanes) (a b : VBits) : Nat :=
  if fmtInt f then
    intCode 32 (((List.range (fmtCount f)).map fun e =>
      if selects f p e then intVal (fmtWidth f) (elem f a e) * intVal (fmtWidth f) (elem f b e) else 0).foldl (· + ·) 0)
  else
    let n := fmtCount f / 32
    let sums := (groups32 (products f p a b) n).map fun xs => round .f32 rm false (xsum rm xs)
    tree (addF32 rm) 0 (levels n) sums

/-- VDOT (R187): an FP32 or I32 element 0. -/
def execVdot (g : Guard) (f : Fmt) (rm : RM) (vd : VDst) (va vb : VSrc) (pc : BitVec 4) (s : State) : Host.Outcome State Fault Refusal :=
  s.vectorOp g f vd [va, vb] 8 fun vs =>
    mkVec .f32 fun e => if e = 0 then dot f rm (s.pred pc) (src1 vs) (src2 vs) else 0

/-- One more candidate for the largest element: a NaN beats every number, and ties go to the lower index
(R188). -/
def better (f : Fmt) (best : Option (Nat × Nat)) (e c : Nat) : Option (Nat × Nat) :=
  match best with
  | none => some (e, c)
  | some (i, b) =>
    if fmtInt f then (if intVal (fmtWidth f) b < intVal (fmtWidth f) c then some (e, c) else some (i, b))
    else if isNaN (floatVal f b) then some (i, b)
    else if isNaN (floatVal f c) || xbelow (floatVal f b) (floatVal f c) then some (e, c)
    else some (i, b)

/-- VARGMX (R188): the index in element 0, the value in element 1. -/
def execVargmx (g : Guard) (f : Fmt) (_ : RM) (vd : VDst) (va : VSrc) (pc : BitVec 4) (s : State) : Host.Outcome State Fault Refusal :=
  s.vectorOp g f vd [va] 8 fun vs =>
    let best := (selectedList f (s.pred pc)).foldl (fun b e => better f b e (elem f (src1 vs) e)) none
    let (i, v) := match best with
      | none => (0xFFFFFFFF, 0)
      | some (i, c) => (i, if fmtInt f then intCode 32 (intVal (fmtWidth f) c) else widen f c)
    mkVec .i32 fun e => if e = 0 then i else if e = 1 then v else 0

end Sys2Proof.Machine
end

