-- ==== Sys2Proof/Machine/Dispatch.lean ====
section
/-! DEFINITION. The meaning of every instruction: one arm for each constructor of Instr. -/

namespace Sys2Proof.Machine

def exec (i : Instr) (s : State) : Host.Outcome State Fault Refusal :=
  match i with
  -- C slot (R122)
  | .cNop g => Sys2Proof.Machine.execCNop g s
  | .br g disp => Sys2Proof.Machine.execBr g disp s
  | .brl g disp => Sys2Proof.Machine.execBrl g disp s
  | .jmp g sa disp => Sys2Proof.Machine.execJmp g sa disp s
  | .jmpl g sa disp => Sys2Proof.Machine.execJmpl g sa disp s
  | .ret g => Sys2Proof.Machine.execRet g s
  | .loop g sa imm => Sys2Proof.Machine.execLoop g sa imm s
  | .loopi g count imm => Sys2Proof.Machine.execLoopi g count imm s
  | .loopP g sa stages imm => Sys2Proof.Machine.execLoopP g sa stages imm s
  | .lbrk g => Sys2Proof.Machine.execLbrk g s
  | .lcont g => Sys2Proof.Machine.execLcont g s
  | .ldelta g r d sa => Sys2Proof.Machine.execLdelta g r d sa s
  | .sync g mask land => Sys2Proof.Machine.execSync g mask land s
  | .safe g map => Sys2Proof.Machine.execSafe g map s
  | .waitx g ch sa => Sys2Proof.Machine.execWaitx g ch sa s
  | .parkYield g => Sys2Proof.Machine.execParkYield g s
  | .parkTime g sa => Sys2Proof.Machine.execParkTime g sa s
  | .parkWord g sa sb => Sys2Proof.Machine.execParkWord g sa sb s
  | .parkQueue g k => Sys2Proof.Machine.execParkQueue g k s
  | .tspawn g ctx prio sa sb => Sys2Proof.Machine.execTspawn g ctx prio sa sb s
  | .texit g => Sys2Proof.Machine.execTexit g s
  | .halt g code => Sys2Proof.Machine.execHalt g code s
  | .barq g b sa => Sys2Proof.Machine.execBarq g b sa s
  | .bard g b sa => Sys2Proof.Machine.execBard g b sa s
  | .bara g b die => Sys2Proof.Machine.execBara g b die s
  | .barw g b die => Sys2Proof.Machine.execBarw g b die s
  | .pgwait g sa => Sys2Proof.Machine.execPgwait g sa s
  | .trap g n => Sys2Proof.Machine.execTrap g n s
  | .eret g => Sys2Proof.Machine.execEret g s
  | .mfs g sd num => Sys2Proof.Machine.execMfs g sd num s
  | .mts g num sa => Sys2Proof.Machine.execMts g num sa s
  | .geninc g sd sp => Sys2Proof.Machine.execGeninc g sd sp s
  | .genrd g sd sp => Sys2Proof.Machine.execGenrd g sd sp s
  | .sweep g sa start rate => Sys2Proof.Machine.execSweep g sa start rate s
  | .ckpt g sp => Sys2Proof.Machine.execCkpt g sp s
  -- S slot (R124)
  | .sNop g => Sys2Proof.Machine.execSNop g s
  | .add g sd sa sb => Sys2Proof.Machine.execAdd g sd sa sb s
  | .sub g sd sa sb => Sys2Proof.Machine.execSub g sd sa sb s
  | .mul g sd sa sb => Sys2Proof.Machine.execMul g sd sa sb s
  | .mulhu g sd sa sb => Sys2Proof.Machine.execMulhu g sd sa sb s
  | .mulhs g sd sa sb => Sys2Proof.Machine.execMulhs g sd sa sb s
  | .divu g sd sa sb => Sys2Proof.Machine.execDivu g sd sa sb s
  | .divs g sd sa sb => Sys2Proof.Machine.execDivs g sd sa sb s
  | .remu g sd sa sb => Sys2Proof.Machine.execRemu g sd sa sb s
  | .rems g sd sa sb => Sys2Proof.Machine.execRems g sd sa sb s
  | .and g sd sa sb => Sys2Proof.Machine.execAnd g sd sa sb s
  | .or g sd sa sb => Sys2Proof.Machine.execOr g sd sa sb s
  | .xor g sd sa sb => Sys2Proof.Machine.execXor g sd sa sb s
  | .andn g sd sa sb => Sys2Proof.Machine.execAndn g sd sa sb s
  | .shl g sd sa sb => Sys2Proof.Machine.execShl g sd sa sb s
  | .shr g sd sa sb => Sys2Proof.Machine.execShr g sd sa sb s
  | .sra g sd sa sb => Sys2Proof.Machine.execSra g sd sa sb s
  | .rol g sd sa sb => Sys2Proof.Machine.execRol g sd sa sb s
  | .min g sd sa sb => Sys2Proof.Machine.execMin g sd sa sb s
  | .max g sd sa sb => Sys2Proof.Machine.execMax g sd sa sb s
  | .minu g sd sa sb => Sys2Proof.Machine.execMinu g sd sa sb s
  | .maxu g sd sa sb => Sys2Proof.Machine.execMaxu g sd sa sb s
  | .clz g sd sa => Sys2Proof.Machine.execClz g sd sa s
  | .ctz g sd sa => Sys2Proof.Machine.execCtz g sd sa s
  | .popc g sd sa => Sys2Proof.Machine.execPopc g sd sa s
  | .sext g sd sa w => Sys2Proof.Machine.execSext g sd sa w s
  | .zext g sd sa w => Sys2Proof.Machine.execZext g sd sa w s
  | .mov g sd sa => Sys2Proof.Machine.execMov g sd sa s
  | .addx g sd sa sb sh => Sys2Proof.Machine.execAddx g sd sa sb sh s
  | .addi g sd sa imm => Sys2Proof.Machine.execAddi g sd sa imm s
  | .andi g sd sa imm => Sys2Proof.Machine.execAndi g sd sa imm s
  | .ori g sd sa imm => Sys2Proof.Machine.execOri g sd sa imm s
  | .xori g sd sa imm => Sys2Proof.Machine.execXori g sd sa imm s
  | .shli g sd sa sh => Sys2Proof.Machine.execShli g sd sa sh s
  | .shri g sd sa sh => Sys2Proof.Machine.execShri g sd sa sh s
  | .srai g sd sa sh => Sys2Proof.Machine.execSrai g sd sa sh s
  | .li g sd imm => Sys2Proof.Machine.execLi g sd imm s
  | .lih g sd imm => Sys2Proof.Machine.execLih g sd imm s
  | .ceq g pd sa sb => Sys2Proof.Machine.execCeq g pd sa sb s
  | .cne g pd sa sb => Sys2Proof.Machine.execCne g pd sa sb s
  | .clt g pd sa sb => Sys2Proof.Machine.execClt g pd sa sb s
  | .cle g pd sa sb => Sys2Proof.Machine.execCle g pd sa sb s
  | .cltu g pd sa sb => Sys2Proof.Machine.execCltu g pd sa sb s
  | .cleu g pd sa sb => Sys2Proof.Machine.execCleu g pd sa sb s
  | .ceqi g pd sa imm => Sys2Proof.Machine.execCeqi g pd sa imm s
  | .clti g pd sa imm => Sys2Proof.Machine.execClti g pd sa imm s
  | .cltui g pd sa imm => Sys2Proof.Machine.execCltui g pd sa imm s
  | .sel g sd sa sb pn => Sys2Proof.Machine.execSel g sd sa sb pn s
  | .fadd g sd sa sb => Sys2Proof.Machine.execFadd g sd sa sb s
  | .fmul g sd sa sb => Sys2Proof.Machine.execFmul g sd sa sb s
  | .fmin g sd sa sb => Sys2Proof.Machine.execFmin g sd sa sb s
  | .fmax g sd sa sb => Sys2Proof.Machine.execFmax g sd sa sb s
  | .ftoi g sd sa => Sys2Proof.Machine.execFtoi g sd sa s
  | .itof g sd sa => Sys2Proof.Machine.execItof g sd sa s
  -- P slot (R125)
  | .pNop g => Sys2Proof.Machine.execPNop g s
  | .pand g pd pa pb => Sys2Proof.Machine.execPand g pd pa pb s
  | .por g pd pa pb => Sys2Proof.Machine.execPor g pd pa pb s
  | .pxor g pd pa pb => Sys2Proof.Machine.execPxor g pd pa pb s
  | .pandn g pd pa pb => Sys2Proof.Machine.execPandn g pd pa pb s
  | .pnot g pd pa => Sys2Proof.Machine.execPnot g pd pa s
  | .pseti g pd n => Sys2Proof.Machine.execPseti g pd n s
  | .planes g pd pa n => Sys2Proof.Machine.execPlanes g pd pa n s
  | .pbcst g pd pa n => Sys2Proof.Machine.execPbcst g pd pa n s
  | .pany g pd pa => Sys2Proof.Machine.execPany g pd pa s
  | .pall g pd pa => Sys2Proof.Machine.execPall g pd pa s
  | .prot g pd pa n => Sys2Proof.Machine.execProt g pd pa n s
  | .xld g xd ab off => Sys2Proof.Machine.execXld g xd ab off s
  | .xset g xd n => Sys2Proof.Machine.execXset g xd n s
  | .xmov g xd xa => Sys2Proof.Machine.execXmov g xd xa s
  | .qfmt g k fs fk rm sat => Sys2Proof.Machine.execQfmt g k fs fk rm sat s
  -- V slots (R126)
  | .vNop g => Sys2Proof.Machine.execVNop g s
  | .vadd g f rm vd va vb => Sys2Proof.Machine.execVadd g f rm vd va vb s
  | .vsub g f rm vd va vb => Sys2Proof.Machine.execVsub g f rm vd va vb s
  | .vmul g f rm vd va vb => Sys2Proof.Machine.execVmul g f rm vd va vb s
  | .vfma g f rm vd va vb vc => Sys2Proof.Machine.execVfma g f rm vd va vb vc s
  | .vfms g f rm vd va vb vc => Sys2Proof.Machine.execVfms g f rm vd va vb vc s
  | .vfnma g f rm vd va vb vc => Sys2Proof.Machine.execVfnma g f rm vd va vb vc s
  | .vmin g f rm vd va vb => Sys2Proof.Machine.execVmin g f rm vd va vb s
  | .vmax g f rm vd va vb => Sys2Proof.Machine.execVmax g f rm vd va vb s
  | .vabs g f rm vd va => Sys2Proof.Machine.execVabs g f rm vd va s
  | .vneg g f rm vd va => Sys2Proof.Machine.execVneg g f rm vd va s
  | .vrcp g f rm vd va => Sys2Proof.Machine.execVrcp g f rm vd va s
  | .vrsq g f rm vd va => Sys2Proof.Machine.execVrsq g f rm vd va s
  | .vsqrt g f rm vd va => Sys2Proof.Machine.execVsqrt g f rm vd va s
  | .vexp2 g f rm vd va => Sys2Proof.Machine.execVexp2 g f rm vd va s
  | .vlog2 g f rm vd va => Sys2Proof.Machine.execVlog2 g f rm vd va s
  | .vcmpeq g f rm pd va vb => Sys2Proof.Machine.execVcmpeq g f rm pd va vb s
  | .vcmplt g f rm pd va vb => Sys2Proof.Machine.execVcmplt g f rm pd va vb s
  | .vcmple g f rm pd va vb => Sys2Proof.Machine.execVcmple g f rm pd va vb s
  | .vcmpne g f rm pd va vb => Sys2Proof.Machine.execVcmpne g f rm pd va vb s
  | .vclass g f rm pd va mask => Sys2Proof.Machine.execVclass g f rm pd va mask s
  | .vsel g f rm vd va vb pc => Sys2Proof.Machine.execVsel g f rm vd va vb pc s
  | .vcvt g fd rm vd va fs sat part => Sys2Proof.Machine.execVcvt g fd rm vd va fs sat part s
  | .vqnt g fd rm vd va vc fs sat part => Sys2Proof.Machine.execVqnt g fd rm vd va vc fs sat part s
  | .vcbdec g fd rm vd va part => Sys2Proof.Machine.execVcbdec g fd rm vd va part s
  | .vround g f rm vd va => Sys2Proof.Machine.execVround g f rm vd va s
  | .viadd g f rm vd va vb => Sys2Proof.Machine.execViadd g f rm vd va vb s
  | .visub g f rm vd va vb => Sys2Proof.Machine.execVisub g f rm vd va vb s
  | .vimul g f rm vd va vb => Sys2Proof.Machine.execVimul g f rm vd va vb s
  | .vimin g f rm vd va vb => Sys2Proof.Machine.execVimin g f rm vd va vb s
  | .vimax g f rm vd va vb => Sys2Proof.Machine.execVimax g f rm vd va vb s
  | .vand g f rm vd va vb => Sys2Proof.Machine.execVand g f rm vd va vb s
  | .vor g f rm vd va vb => Sys2Proof.Machine.execVor g f rm vd va vb s
  | .vxor g f rm vd va vb => Sys2Proof.Machine.execVxor g f rm vd va vb s
  | .vshl g f rm vd va vb => Sys2Proof.Machine.execVshl g f rm vd va vb s
  | .vshr g f rm vd va vb => Sys2Proof.Machine.execVshr g f rm vd va vb s
  | .vsra g f rm vd va vb => Sys2Proof.Machine.execVsra g f rm vd va vb s
  | .vicmpeq g f rm pd va vb => Sys2Proof.Machine.execVicmpeq g f rm pd va vb s
  | .vicmplt g f rm pd va vb => Sys2Proof.Machine.execVicmplt g f rm pd va vb s
  | .viabs g f rm vd va => Sys2Proof.Machine.execViabs g f rm vd va s
  | .vpopc g f rm vd va => Sys2Proof.Machine.execVpopc g f rm vd va s
  | .vmov g f rm vd va => Sys2Proof.Machine.execVmov g f rm vd va s
  | .vbcst g f rm vd va n => Sys2Proof.Machine.execVbcst g f rm vd va n s
  | .vperm g f rm vd va vb => Sys2Proof.Machine.execVperm g f rm vd va vb s
  | .vrotl g f rm vd va n => Sys2Proof.Machine.execVrotl g f rm vd va n s
  | .vextr g f rm vd va vb n => Sys2Proof.Machine.execVextr g f rm vd va vb n s
  | .vins g f rm vd va vb n => Sys2Proof.Machine.execVins g f rm vd va vb n s
  | .vzip g f rm vd va vb h => Sys2Proof.Machine.execVzip g f rm vd va vb h s
  | .vunzip g f rm vd va vb o => Sys2Proof.Machine.execVunzip g f rm vd va vb o s
  | .viota g f rm vd => Sys2Proof.Machine.execViota g f rm vd s
  | .vcompr g f rm vd va pc => Sys2Proof.Machine.execVcompr g f rm vd va pc s
  | .vexpnd g f rm vd va pc => Sys2Proof.Machine.execVexpnd g f rm vd va pc s
  | .vrsum g f rm vd va pc => Sys2Proof.Machine.execVrsum g f rm vd va pc s
  | .vrmax g f rm vd va pc => Sys2Proof.Machine.execVrmax g f rm vd va pc s
  | .vrmin g f rm vd va pc => Sys2Proof.Machine.execVrmin g f rm vd va pc s
  | .vscan g f rm vd va pc => Sys2Proof.Machine.execVscan g f rm vd va pc s
  | .vdot g f rm vd va vb pc => Sys2Proof.Machine.execVdot g f rm vd va vb pc s
  | .vargmx g f rm vd va pc => Sys2Proof.Machine.execVargmx g f rm vd va pc s
  -- M slot (R127)
  | .mNop g => Sys2Proof.Machine.execMNop g s
  | .mpush g f vs row => Sys2Proof.Machine.execMpush g f vs row s
  | .mpusht g f e row => Sys2Proof.Machine.execMpusht g f e row s
  | .mshift g f acc vs row xa xb ovr => Sys2Proof.Machine.execMshift g f acc vs row xa xb ovr s
  | .mshiftl g f acc row xa xb ovr => Sys2Proof.Machine.execMshiftl g f acc row xa xb ovr s
  | .mshiftt g f acc e row xa xb ovr => Sys2Proof.Machine.execMshiftt g f acc e row xa xb ovr s
  | .mflip g => Sys2Proof.Machine.execMflip g s
  | .mdrain g f acc vd row rm sat => Sys2Proof.Machine.execMdrain g f acc vd row rm sat s
  | .mzero g acc => Sys2Proof.Machine.execMzero g acc s
  | .maddv g f acc vs row ovr => Sys2Proof.Machine.execMaddv g f acc vs row ovr s
  | .mdrainz g f acc vd row rm sat => Sys2Proof.Machine.execMdrainz g f acc vd row rm sat s
  -- L slot (R128)
  | .lNop g => Sys2Proof.Machine.execLNop g s
  | .lds g w sx sd ab sa off => Sys2Proof.Machine.execLds g w sx sd ab sa off s
  | .sts g w sv ab sa off => Sys2Proof.Machine.execSts g w sv ab sa off s
  | .vld g len vd ab sa off => Sys2Proof.Machine.execVld g len vd ab sa off s
  | .vst g len vd ab sa off => Sys2Proof.Machine.execVst g len vd ab sa off s
  | .vlds g w vd ab off sa => Sys2Proof.Machine.execVlds g w vd ab off sa s
  | .vsts g w vd ab off sa => Sys2Proof.Machine.execVsts g w vd ab off sa s
  | .vldx g w vd ab sa vx => Sys2Proof.Machine.execVldx g w vd ab sa vx s
  | .vstx g w vd ab sa vx => Sys2Proof.Machine.execVstx g w vd ab sa vx s
  | .gathr g glob res vx ab sa f cnt pr => Sys2Proof.Machine.execGathr g glob res vx ab sa f cnt pr s
  | .atoml g op f sd ab sa off => Sys2Proof.Machine.execAtoml g op f sd ab sa off s
  | .ldg g w sx sd ab sa off pr => Sys2Proof.Machine.execLdg g w sx sd ab sa off pr s
  | .stg g w sv ab sa off => Sys2Proof.Machine.execStg g w sv ab sa off s
  | .vldg g len vd ab sa off pr => Sys2Proof.Machine.execVldg g len vd ab sa off pr s
  | .vstg g len vd ab sa off => Sys2Proof.Machine.execVstg g len vd ab sa off s
  | .atomg g op f sd ab sa off => Sys2Proof.Machine.execAtomg g op f sd ab sa off s
  | .watom g op f sd ab sa off => Sys2Proof.Machine.execWatom g op f sd ab sa off s
  | .watomr g op f vd ab sa off => Sys2Proof.Machine.execWatomr g op f vd ab sa off s
  | .pgreq g wr ab sa off => Sys2Proof.Machine.execPgreq g wr ab sa off s
  | .cdisc g ab off sa => Sys2Proof.Machine.execCdisc g ab off sa s
  | .cflush g inv ab off sa => Sys2Proof.Machine.execCflush g inv ab off sa s
  | .smap g e ab off sg sz => Sys2Proof.Machine.execSmap g e ab off sg sz s
  | .sunmap g e => Sys2Proof.Machine.execSunmap g e s
  | .sflush g e => Sys2Proof.Machine.execSflush g e s
  | .sdisc g e => Sys2Proof.Machine.execSdisc g e s
  | .rldg g wd d ab off sa => Sys2Proof.Machine.execRldg g wd d ab off sa s
  | .rstg g wd d ab off sa => Sys2Proof.Machine.execRstg g wd d ab off sa s
  | .rstp g wd d ab off sa => Sys2Proof.Machine.execRstp g wd d ab off sa s
  | .ratom g op f sd ab off sa => Sys2Proof.Machine.execRatom g op f sd ab off sa s
  | .rfence g => Sys2Proof.Machine.execRfence g s
  -- E slot (R129)
  | .eNop g => Sys2Proof.Machine.execENop g s
  | .pcopy g ch ab off sd => Sys2Proof.Machine.execPcopy g ch ab off sd s
  | .pcopyt g ch ab off sd => Sys2Proof.Machine.execPcopyt g ch ab off sd s
  | .pcopyr g ch ab off sd => Sys2Proof.Machine.execPcopyr g ch ab off sd s
  | .pstat g ch sd => Sys2Proof.Machine.execPstat g ch sd s
  | .pstatErr g ch sd => Sys2Proof.Machine.execPstatErr g ch sd s
  | .pstatClr g ch sd => Sys2Proof.Machine.execPstatClr g ch sd s
  | .tbind g e lvl ab sa ac n rows pair => Sys2Proof.Machine.execTbind g e lvl ab sa ac n rows pair s
  | .tfill g e => Sys2Proof.Machine.execTfill g e s
  | .tdrain g e => Sys2Proof.Machine.execTdrain g e s
  | .tfree g e => Sys2Proof.Machine.execTfree g e s
  | .tstate g e sd => Sys2Proof.Machine.execTstate g e sd s
  | .vsend g sa ab off num len => Sys2Proof.Machine.execVsend g sa ab off num len s
  | .vlatch g t sender num => Sys2Proof.Machine.execVlatch g t sender num s
  | .vstat g sd => Sys2Proof.Machine.execVstat g sd s
  | .qpush g k ab off => Sys2Proof.Machine.execQpush g k ab off s
  | .qadv g k n => Sys2Proof.Machine.execQadv g k n s
  | .qcfg g k prod cons => Sys2Proof.Machine.execQcfg g k prod cons s
  | .qrst g k => Sys2Proof.Machine.execQrst g k s
  | .gsrch g ab off sd => Sys2Proof.Machine.execGsrch g ab off sd s
  | .gstat g sd sa => Sys2Proof.Machine.execGstat g sd sa s
  | .rlydone g n => Sys2Proof.Machine.execRlydone g n s
  | .rlyfree g n => Sys2Proof.Machine.execRlyfree g n s
  | .rlystash g n => Sys2Proof.Machine.execRlystash g n s
  | .rlypop g n => Sys2Proof.Machine.execRlypop g n s
  | .cres g sd ab sa => Sys2Proof.Machine.execCres g sd ab sa s
  | .crel g ab sa => Sys2Proof.Machine.execCrel g ab sa s
  | .split g n => Sys2Proof.Machine.execSplit g n s
  -- Events of the device (spec/95)
  | .splitOccupancyEnd core => Sys2Proof.Machine.execSplitOccupancyEnd core s
  | .bundleFetch core => Sys2Proof.Machine.execBundleFetch core s
  | .resultDelivery core => Sys2Proof.Machine.execResultDelivery core s
  | .loadDataReturn core => Sys2Proof.Machine.execLoadDataReturn core s
  | .xldLanding core => Sys2Proof.Machine.execXldLanding core s
  | .contributionLanding core => Sys2Proof.Machine.execContributionLanding core s
  | .pushLanding core => Sys2Proof.Machine.execPushLanding core s
  | .queueProducerLanding quad k => Sys2Proof.Machine.execQueueProducerLanding quad k s
  | .stallPark core ctx => Sys2Proof.Machine.execStallPark core ctx s
  | .taskWake core ctx => Sys2Proof.Machine.execTaskWake core ctx s
  | .priorityPromotion core ctx => Sys2Proof.Machine.execPriorityPromotion core ctx s
  | .turnEnd core => Sys2Proof.Machine.execTurnEnd core s
  | .switchBegin core => Sys2Proof.Machine.execSwitchBegin core s
  | .switchEnd core => Sys2Proof.Machine.execSwitchEnd core s
  | .placementStart launch entry => Sys2Proof.Machine.execPlacementStart launch entry s
  | .stashFill core e sector => Sys2Proof.Machine.execStashFill core e sector s
  | .tileFillComplete core e => Sys2Proof.Machine.execTileFillComplete core e s
  | .tileDrainComplete core e => Sys2Proof.Machine.execTileDrainComplete core e s
  | .pumpJobStart core ch => Sys2Proof.Machine.execPumpJobStart core ch s
  | .pumpJobComplete core ch => Sys2Proof.Machine.execPumpJobComplete core ch s
  | .pumpJobHalt core ch => Sys2Proof.Machine.execPumpJobHalt core ch s
  | .engineRangeJobComplete core => Sys2Proof.Machine.execEngineRangeJobComplete core s
  | .wellheadUpdate core => Sys2Proof.Machine.execWellheadUpdate core s
  | .volleyDrive core ctx => Sys2Proof.Machine.execVolleyDrive core ctx s
  | .spillStallRelease die => Sys2Proof.Machine.execSpillStallRelease die s
  | .heldPostingRelease part => Sys2Proof.Machine.execHeldPostingRelease part s
  | .notifyWrite offset width value => Sys2Proof.Machine.execNotifyWrite offset width value s
  | .packetFetch q => Sys2Proof.Machine.execPacketFetch q s
  | .launch q idx => Sys2Proof.Machine.execLaunch q idx s
  | .launchComplete launch => Sys2Proof.Machine.execLaunchComplete launch s
  | .copy q idx => Sys2Proof.Machine.execCopy q idx s
  | .rallyLoad q idx => Sys2Proof.Machine.execRallyLoad q idx s
  | .gen q idx => Sys2Proof.Machine.execGen q idx s
  | .barrier q idx => Sys2Proof.Machine.execBarrier q idx s
  | .barrierConditionMet q idx => Sys2Proof.Machine.execBarrierConditionMet q idx s
  | .fence q idx => Sys2Proof.Machine.execFence q idx s
  | .hostWordPoll w => Sys2Proof.Machine.execHostWordPoll w s
  | .sliceEnd quad => Sys2Proof.Machine.execSliceEnd quad s
  | .sliceStart quad => Sys2Proof.Machine.execSliceStart quad s
  | .spacingOverrun core ctx ns => Sys2Proof.Machine.execSpacingOverrun core ctx ns s
  | .contextSave quad => Sys2Proof.Machine.execContextSave quad s
  | .save part => Sys2Proof.Machine.execSave part s
  | .restore part => Sys2Proof.Machine.execRestore part s
  | .shootdown part value => Sys2Proof.Machine.execShootdown part value s
  | .shootdownAck part core => Sys2Proof.Machine.execShootdownAck part core s
  | .shootdownDone part => Sys2Proof.Machine.execShootdownDone part s
  | .migrationStart part rec => Sys2Proof.Machine.execMigrationStart part rec s
  | .migrationLineMove part rec => Sys2Proof.Machine.execMigrationLineMove part rec s
  | .migrationFinish part rec => Sys2Proof.Machine.execMigrationFinish part rec s
  | .migrationDone part rec => Sys2Proof.Machine.execMigrationDone part rec s
  | .sweepPassStart => Sys2Proof.Machine.execSweepPassStart s
  | .sweepElement e => Sys2Proof.Machine.execSweepElement e s
  | .sweepPassComplete => Sys2Proof.Machine.execSweepPassComplete s
  | .rallyEntryStart part => Sys2Proof.Machine.execRallyEntryStart part s
  | .rallyEntryComplete part => Sys2Proof.Machine.execRallyEntryComplete part s
  | .rallyIncrementTimeout rtag => Sys2Proof.Machine.execRallyIncrementTimeout rtag s
  | .gseQueryPacket stack => Sys2Proof.Machine.execGseQueryPacket stack s
  | .gseRound stack slot => Sys2Proof.Machine.execGseRound stack slot s
  | .gseForwardedRequest stack => Sys2Proof.Machine.execGseForwardedRequest stack s
  | .gseQueryComplete stack slot => Sys2Proof.Machine.execGseQueryComplete stack slot s
  | .flitSend port => Sys2Proof.Machine.execFlitSend port s
  | .flitReceive port payload ctl => Sys2Proof.Machine.execFlitReceive port payload ctl s
  | .reportTimer port => Sys2Proof.Machine.execReportTimer port s
  | .reportReceive port payload ctl => Sys2Proof.Machine.execReportReceive port payload ctl s
  | .fabricRead => Sys2Proof.Machine.execFabricRead s
  | .fabricWrite => Sys2Proof.Machine.execFabricWrite s
  | .fabricPostedWrite => Sys2Proof.Machine.execFabricPostedWrite s
  | .fabricAtomic => Sys2Proof.Machine.execFabricAtomic s
  | .fabricResponse => Sys2Proof.Machine.execFabricResponse s
  | .staleNotice => Sys2Proof.Machine.execStaleNotice s
  | .announce => Sys2Proof.Machine.execAnnounce s
  | .announceSend node => Sys2Proof.Machine.execAnnounceSend node s
  | .rallyIncrement => Sys2Proof.Machine.execRallyIncrement s
  | .postedWriteGapTimeout src => Sys2Proof.Machine.execPostedWriteGapTimeout src s
  | .escapeMove port vc => Sys2Proof.Machine.execEscapeMove port vc s
  | .remoteTimeout rtag => Sys2Proof.Machine.execRemoteTimeout rtag s
  | .portTrainingDone port peer pport => Sys2Proof.Machine.execPortTrainingDone port peer pport s
  | .nodeIdWrite value => Sys2Proof.Machine.execNodeIdWrite value s
  | .coldReset => Sys2Proof.Machine.execColdReset s
  | .warmReset => Sys2Proof.Machine.execWarmReset s
  | .functionReset => Sys2Proof.Machine.execFunctionReset s
  | .startGroupBegin group => Sys2Proof.Machine.execStartGroupBegin group s
  | .unitReady u ok => Sys2Proof.Machine.execUnitReady u ok s
  | .correctedError kind index addr part => Sys2Proof.Machine.execCorrectedError kind index addr part s
  | .correctedThreshold kind index => Sys2Proof.Machine.execCorrectedThreshold kind index s
  | .uncorrectableLineError cache line => Sys2Proof.Machine.execUncorrectableLineError cache line s
  | .tagParityError die line => Sys2Proof.Machine.execTagParityError die line s
  | .errorInject value => Sys2Proof.Machine.execErrorInject value s
  | .injectedReport kind index cls addr detail => Sys2Proof.Machine.execInjectedReport kind index cls addr detail s
  | .ckptCloseDone part => Sys2Proof.Machine.execCkptCloseDone part s
  | .rollback part => Sys2Proof.Machine.execRollback part s
  | .rollbackDone part => Sys2Proof.Machine.execRollbackDone part s
  | .powerControlTick watts => Sys2Proof.Machine.execPowerControlTick watts s
  | .registerWrite offset value => Sys2Proof.Machine.execRegisterWrite offset value s
  | .tlbWalkComplete core => Sys2Proof.Machine.execTlbWalkComplete core s

end Sys2Proof.Machine
end

