-- ==== Sys2Proof/Machine/Notice.lean ====
section
/-! DEFINITION. The checks that detectors make in a step of the module, apart from those of the accesses themselves
(R431, R434). -/

namespace Sys2Proof.Machine

/-- A check: unit kind, unit index, class, and the address and detail at hand. -/
structure Check where
  kind : Nat
  index : Nat
  cls : Nat
  addr : Nat
  detail : Nat
  deriving DecidableEq, Repr

/-- The checks of core n, whose state is k: of its state elements, by its pumps and tile fills, and by its wellheads' updates. -/
def Core.checks (n : Nat) (k : Core) : List Check :=
  let line := fun (p : PumpJob) => lineOf (p.moveAt p.done).src
  [{ kind := 1, index := n, cls := 1, addr := 0, detail := 0 }, { kind := 1, index := n, cls := 2, addr := 0, detail := 0 }] ++
  (k.pumps.filterMap fun (_, c) => match c.jobs with
    | j :: _ => if j.started then some { kind := 1, index := n, cls := 6, addr := line j, detail := 4 } else none
    | [] => none) ++
  (k.tiles.filterMap fun (_, t) =>
    if t.st == .filling then some { kind := 1, index := n, cls := 6, addr := 0, detail := 5 } else none) ++
  k.jobs.filterMap fun j => match j.what with
    | .reduce _ _ (.frame pa _ :: _) _ va => some { kind := 3, index := stackOf pa, cls := 6, addr := lineOf va, detail := 3 }
    | _ => none

/-- The checks of a graph search engine for a query that goes on: of the record that it reads, or the word that it writes. -/
def Query.checks (stack : Nat) (q : Query) : List Check :=
  match q.ending with
  | some (status, detail) =>
    let at_ := if q.written < q.k then q.result + 8 * q.written else q.done
    [{ kind := 3, index := stack, cls := 9, addr := at_, detail := status + detail * 2 ^ 8 }]
  | none => [{ kind := 3, index := stack, cls := 9, addr := 0, detail := 0 }]

/-- The checks of a step from s to t: of the units that did something in it. (Log 142: DEDUCED) -/
def State.checks (s t : State) : List Check :=
  (t.cores.flatMap fun (n, k) => if s.coreAt n == k then [] else (s.coreAt n).checks n) ++
  (s.gse.flatMap fun (g, e) => e.slots.flatMap fun (i, x) => match x with
    | some q => if (t.engine g).query i == x then [] else q.checks g
    | none => []) ++
  ((List.range 64).flatMap fun p =>
    if s.ten p == t.ten p then []
    else [{ kind := 5, index := 0, cls := 8, addr := 0, detail := (mkTag p (nextGen (s.ten p).gen).toNat).toNat : Check }]) ++
  (s.rally.flatMap fun (p, r) =>
    if (t.rallyOf p).traced = r.traced then []
    else [{ kind := 5, index := 0, cls := 10, addr := (r.trBase + BitVec.ofNat 64 (64 * (r.traced % r.trLen))).toNat, detail := r.head : Check }]) ++
  ((s.arrived.filter fun k => (k.kind ≤ 4 || k.kind = 8) && !t.arrived.contains k).map fun k =>
    ({ kind := 4, index := k.port.getD 0xFF, cls := 11, addr := k.addr.toNat, detail := k.src + k.job * 2 ^ 16 } : Check)) ++
  ((List.range 32).flatMap fun i =>
    if s.field (resetReg 0x10) (i + 1) (i + 1) = t.field (resetReg 0x10) (i + 1) (i + 1) &&
        s.field (resetReg 0x20) i i = t.field (resetReg 0x20) i i then []
    else [{ kind := if i < 24 then 3 else 2, index := if i < 24 then i else i - 24, cls := 12, addr := 0, detail := 0 : Check }]) ++
  (if s.tickAt = t.tickAt then [] else [{ kind := 7, index := 0, cls := 14, addr := 0, detail := (t.reg (relReg 0x48)).toNat : Check }])

/-- The detectors that checked something in a step report what an injection asked of them (R434). (Log 142: DEDUCED) -/
def State.notice (s : State) : Host.Outcome State Fault Refusal → Host.Outcome State Fault Refusal
  | .next t =>
    .next (if s.armed.isEmpty || t.armed.isEmpty then t
      else (s.checks t).foldl (fun t c => t.checked c.kind c.index c.cls c.addr c.detail) t)
  | x => x

end Sys2Proof.Machine
end

