-- ==== Sys2Proof/Machine/Run.lean ====
section
/-! DEFINITION. What happens next: the event that the module performs by itself, the core that takes a turn, inputs
from outside, and time. -/

namespace Sys2Proof.Machine

/-- The events that the module performs by itself. -/
inductive Event where
  | splitOccupancyEnd (core : Nat)
  | resultDelivery (core : Nat)
  | loadDataReturn (core : Nat)
  | xldLanding (core : Nat)
  | contributionLanding (core : Nat)
  | pushLanding (core : Nat)
  | queueProducerLanding (quad k : Nat)
  | stallPark (core ctx : Nat)
  | taskWake (core ctx : Nat)
  | priorityPromotion (core ctx : Nat)
  | turnEnd (core : Nat)
  | switchBegin (core : Nat)
  | switchEnd (core : Nat)
  | placementStart (launch entry : Nat)
  | tileFillComplete (core e : Nat)
  | tileDrainComplete (core e : Nat)
  | pumpJobStart (core ch : Nat)
  | pumpJobComplete (core ch : Nat)
  | pumpJobHalt (core ch : Nat)
  | engineRangeJobComplete (core : Nat)
  | wellheadUpdate (core : Nat)
  | volleyDrive (core ctx : Nat)
  | spillStallRelease (die : Nat)
  | heldPostingRelease (part : Nat)
  | packetFetch (q : Nat)
  | launch (q idx : Nat)
  | launchComplete (launch : Nat)
  | copy (q idx : Nat)
  | rallyLoad (q idx : Nat)
  | gen (q idx : Nat)
  | barrier (q idx : Nat)
  | barrierConditionMet (q idx : Nat)
  | fence (q idx : Nat)
  | hostWordPoll (w : Waiter)
  | sliceEnd (quad : Nat)
  | sliceStart (quad : Nat)
  | spacingOverrun (core ctx : Nat) (ns : BitVec 48)
  | contextSave (quad : Nat)
  | save (part : Nat)
  | restore (part : Nat)
  | shootdownAck (part core : Nat)
  | shootdownDone (part : Nat)
  | migrationLineMove (part rec : Nat)
  | migrationFinish (part rec : Nat)
  | migrationDone (part rec : Nat)
  | sweepPassStart
  | sweepElement (e : SweepElem)
  | sweepPassComplete
  | rallyEntryStart (part : Nat)
  | rallyEntryComplete (part : Nat)
  | rallyIncrementTimeout (rtag : Nat)
  | gseQueryPacket (stack : Nat)
  | gseRound (stack slot : Nat)
  | gseForwardedRequest (stack : Nat)
  | gseQueryComplete (stack slot : Nat)
  | flitSend (port : Nat)
  | reportTimer (port : Nat)
  | fabricRead
  | fabricWrite
  | fabricPostedWrite
  | fabricAtomic
  | fabricResponse
  | staleNotice
  | announce
  | announceSend (node : Nat)
  | rallyIncrement
  | postedWriteGapTimeout (src : Nat)
  | escapeMove (port vc : Nat)
  | remoteTimeout (rtag : Nat)
  | startGroupBegin (group : Nat)
  | correctedThreshold (kind : UnitKind) (index : Nat)
  | injectedReport (kind : UnitKind) (index cls : Nat) (addr detail : BitVec 64)
  | ckptCloseDone (part : Nat)
  | rollbackDone (part : Nat)
  | tlbWalkComplete (core : Nat)
  /-- The power controller's tick, with the power that the module draws (R441). -/
  | powerTick (watts : BitVec 13)
  /-- A hand-off behind its own bundle's access is posted once that is performed (R331). -/
  | handoff (core ctx : Nat)
  /-- Error records and completion signals whose writes had to wait are written (R360, R361). -/
  | owedWrites
  deriving DecidableEq, Repr

/-- A hand-off that a bundle has left to be done is posted, whatever its task waits for, once everything before it is
performed (R330, R331). (Log 121: DEDUCED) -/
def State.postHandoff (s : State) (n x : Nat) : Host.Outcome State Fault Refusal :=
  match SMap.get none s.later (16 * n + x) with
  | some f =>
    match f.ops with
    | [(7, i)] =>
      if isHandoff i then
        match exec i { s.turnTo n x with slot := 7, now := (s.coreAt n).clock, frame := some f } with
        | .next t =>
          if t.frame.any fun g => !g.holds.isEmpty then .next s
          else .next (({ t with frame := none } : State).setLater n x f.waiting)
        | o => o
      else .next s
    | _ => .next s
  | none => .next s

/-- An event happens. -/
def Event.run (e : Event) (s : State) : Host.Outcome State Fault Refusal :=
  match e with
  | .splitOccupancyEnd core => execSplitOccupancyEnd core s
  | .resultDelivery core => execResultDelivery core s
  | .loadDataReturn core => execLoadDataReturn core s
  | .xldLanding core => execXldLanding core s
  | .contributionLanding core => execContributionLanding core s
  | .pushLanding core => execPushLanding core s
  | .queueProducerLanding quad k => execQueueProducerLanding quad k s
  | .stallPark core ctx => execStallPark core ctx s
  | .taskWake core ctx => execTaskWake core ctx s
  | .priorityPromotion core ctx => execPriorityPromotion core ctx s
  | .turnEnd core => execTurnEnd core s
  | .switchBegin core => execSwitchBegin core s
  | .switchEnd core => execSwitchEnd core s
  | .placementStart l entry => execPlacementStart l entry s
  | .tileFillComplete core e => execTileFillComplete core e s
  | .tileDrainComplete core e => execTileDrainComplete core e s
  | .pumpJobStart core ch => execPumpJobStart core ch s
  | .pumpJobComplete core ch => execPumpJobComplete core ch s
  | .pumpJobHalt core ch => execPumpJobHalt core ch s
  | .engineRangeJobComplete core => execEngineRangeJobComplete core s
  | .wellheadUpdate core => execWellheadUpdate core s
  | .volleyDrive core ctx => execVolleyDrive core ctx s
  | .spillStallRelease die => execSpillStallRelease die s
  | .heldPostingRelease part => execHeldPostingRelease part s
  | .packetFetch q => execPacketFetch q s
  | .launch q idx => execLaunch q idx s
  | .launchComplete l => execLaunchComplete l s
  | .copy q idx => execCopy q idx s
  | .rallyLoad q idx => execRallyLoad q idx s
  | .gen q idx => execGen q idx s
  | .barrier q idx => execBarrier q idx s
  | .barrierConditionMet q idx => execBarrierConditionMet q idx s
  | .fence q idx => execFence q idx s
  | .hostWordPoll w => execHostWordPoll w s
  | .sliceEnd quad => execSliceEnd quad s
  | .sliceStart quad => execSliceStart quad s
  | .spacingOverrun core ctx ns => execSpacingOverrun core ctx ns s
  | .contextSave quad => execContextSave quad s
  | .save part => execSave part s
  | .restore part => execRestore part s
  | .shootdownAck part core => execShootdownAck part core s
  | .shootdownDone part => execShootdownDone part s
  | .migrationLineMove part rec => execMigrationLineMove part rec s
  | .migrationFinish part rec => execMigrationFinish part rec s
  | .migrationDone part rec => execMigrationDone part rec s
  | .sweepPassStart => execSweepPassStart s
  | .sweepElement e => execSweepElement e s
  | .sweepPassComplete => execSweepPassComplete s
  | .rallyEntryStart part => execRallyEntryStart part s
  | .rallyEntryComplete part => execRallyEntryComplete part s
  | .rallyIncrementTimeout rtag => execRallyIncrementTimeout rtag s
  | .gseQueryPacket stack => execGseQueryPacket stack s
  | .gseRound stack slot => execGseRound stack slot s
  | .gseForwardedRequest stack => execGseForwardedRequest stack s
  | .gseQueryComplete stack slot => execGseQueryComplete stack slot s
  | .flitSend port => execFlitSend port s
  | .reportTimer port => execReportTimer port s
  | .fabricRead => execFabricRead s
  | .fabricWrite => execFabricWrite s
  | .fabricPostedWrite => execFabricPostedWrite s
  | .fabricAtomic => execFabricAtomic s
  | .fabricResponse => execFabricResponse s
  | .staleNotice => execStaleNotice s
  | .announce => execAnnounce s
  | .announceSend node => execAnnounceSend node s
  | .rallyIncrement => execRallyIncrement s
  | .postedWriteGapTimeout src => execPostedWriteGapTimeout src s
  | .escapeMove port vc => execEscapeMove port vc s
  | .remoteTimeout rtag => execRemoteTimeout rtag s
  | .startGroupBegin group => execStartGroupBegin group s
  | .correctedThreshold kind index => execCorrectedThreshold kind index s
  | .injectedReport kind index cls addr detail => execInjectedReport kind index cls addr detail s
  | .ckptCloseDone part => execCkptCloseDone part s
  | .rollbackDone part => execRollbackDone part s
  | .tlbWalkComplete core => execTlbWalkComplete core s
  | .handoff core ctx => s.postHandoff core ctx
  | .powerTick watts => execPowerControlTick watts s
  | .owedWrites => .next s.payOwed

/-- Events of a core's arrivals, its picker and its engines that may be due. -/
def Core.events (n : Nat) (k : Core) : List Event :=
  (if k.loads.isEmpty then [] else [Event.loadDataReturn n]) ++
  (if k.pend.isEmpty then [] else [Event.xldLanding n, Event.contributionLanding n, Event.pushLanding n]) ++
  (if k.issue.board.isEmpty then [] else [Event.resultDelivery n]) ++
  (if k.splitBusy then [Event.splitOccupancyEnd n] else []) ++
  (if k.walk.isSome then [Event.tlbWalkComplete n] else []) ++
  (k.tiles.flatMap fun (e, t) => match t.st with
    | .filling => [Event.tileFillComplete n e]
    | .draining => [Event.tileDrainComplete n e]
    | _ => []) ++
  (k.pumps.flatMap fun (ch, p) => if p.jobs.isEmpty then [] else [Event.pumpJobStart n ch, Event.pumpJobComplete n ch, Event.pumpJobHalt n ch]) ++
  (if k.jobs.isEmpty then [] else [Event.engineRangeJobComplete n, Event.wellheadUpdate n]) ++
  k.sends.map (fun v => Event.volleyDrive n v.ctx) ++
  (k.tasks.flatMap fun (x, t) => match t.st with
    | .parked _ => [Event.taskWake n x]
    | .issuing => if t.stallOn.isSome then [Event.stallPark n x] else []
    | .ready => if t.passed ≥ 4096 then [Event.priorityPromotion n x] else []
    | .free => []) ++
  (if k.issuing.isSome && !k.leaving && k.clock - k.turnStart ≥ 2048 then [Event.turnEnd n] else []) ++
  (if k.switch.isSome then [Event.switchEnd n]
   else if k.leaving || (k.issuing.isNone && !k.candidates.isEmpty) then [Event.switchBegin n] else [])

/-- Steps of the packets that the dispatcher holds. -/
def Packet.events (k : Packet) : List Event :=
  match k.copy with
  | some _ => [Event.pumpJobComplete (256 + k.q) k.idx, Event.pumpJobHalt (256 + k.q) k.idx]
  | none =>
    match k.type with
    | 2 => [Event.copy k.q k.idx]
    | 3 => [Event.rallyLoad k.q k.idx]
    | 4 => [Event.gen k.q k.idx]
    | 5 => [Event.barrier k.q k.idx]
    | 6 => [Event.fence k.q k.idx]
    | _ => [Event.launch k.q k.idx]

/-- A BARRIER of which a read has met the condition (R358). -/
def Packet.barrierDue (k : Packet) : Bool := k.isBarrier && k.met && k.outcome.isNone

/-- Something that the dispatcher is to write has had to wait (R360, R361). -/
def State.owes (s : State) : Bool :=
  s.packets.any (fun k => k.outcome.isSome) ||
  s.launches.any fun (_, l) => match l with | some l => !l.unwritten.isEmpty | none => false

/-- The partitions that are scheduled (R363). -/
def State.scheduled (s : State) : List Nat := (List.range 64).filter fun p => s.field (partReg p 8) 22 22 = 1

/-- Events of the dispatcher, launches, slices and rally tables. -/
def State.dispatchEvents (s : State) : List Event :=
  ((List.range 65).filter s.mayFetch).map (fun q => Event.packetFetch q) ++ s.packets.flatMap Packet.events ++
  (s.packets.filter Packet.barrierDue).map (fun k => Event.barrierConditionMet k.q k.idx) ++
  (if s.owes then [Event.owedWrites] else []) ++
  (s.launches.flatMap fun (n, l) => match l with
    | some l => (List.range l.waiting.length).map (fun i => Event.placementStart n i) ++ [Event.launchComplete n]
    | none => []) ++
  (s.slices.flatMap fun (q, x) => match x with
    | some y => match y.quiesce with
      | some t0 => Event.contextSave q :: ((List.range 4).flatMap fun m =>
          (s.tasksOn (4 * q + m) y.part).map fun (x, _) => Event.spacingOverrun (4 * q + m) x (BitVec.ofNat 48 (s.time - t0)))
      | none => [Event.sliceEnd q]
    | none => []) ++
  (s.scheduled.flatMap fun p => ((List.range 64).filter fun q =>
    s.inUse p q && (SMap.get none s.slices q).isNone).map fun q => Event.sliceStart q) ++
  ((List.range 64).flatMap fun p =>
    match s.field (partReg p 0xD8) 1 0 with
    | 1 => [Event.save p]
    | 2 => [Event.save p]
    | 3 => [Event.restore p]
    | _ => []) ++
  s.rally.flatMap fun (p, r) => if r.st = 1 then [Event.rallyEntryStart p] else if r.st = 2 then [Event.rallyEntryComplete p] else []

/-- The hand-offs that bundles have left to be done. -/
def State.handoffs (s : State) : List Event :=
  s.later.filterMap fun (i, f) => if f.any fun f => f.ops.any fun o => isHandoff o.2 then some (.handoff (i / 16) (i % 16)) else none

/-- Events of memory: shoot-downs, migrations, the sweeper, checkpoints, postings and stalls. -/
def State.memoryEvents (s : State) : List Event :=
  (s.dies.filter fun (_, d) => d.spillStall).map (fun (d, _) => Event.spillStallRelease d) ++
  ((s.held.map (fun x => x.1) ++ s.dies.flatMap fun (_, d) => d.unposted.map fun x => x.1).eraseDups).map
    (fun p => Event.heldPostingRelease p) ++
  (s.shoots.flatMap fun (key, x) => match x with
    | some y => match y.cores with
      | [] => if key < 64 then [Event.shootdownDone key] else [Event.migrationDone (shootPart key) ((key - 64) % 4096)]
      | cs => cs.map fun c => Event.shootdownAck key c
    | none => []) ++
  (s.moving.flatMap fun (p, r) => [Event.migrationLineMove p r, Event.migrationFinish p r]) ++
  (if s.sweeper.running then (match s.sweeper.todo with | e :: _ => [Event.sweepElement e] | [] => [Event.sweepPassComplete])
   else if s.sweeper.owed then [Event.sweepPassStart] else []) ++
  (List.range 64).flatMap fun p =>
    (if s.field (partReg p 0xF8) 32 32 = 1 then [Event.ckptCloseDone p] else []) ++
    (if s.field (partReg p 0xF8) 34 34 = 1 then [Event.rollbackDone p] else [])

/-- Events of the graph search engines and of the fabric. -/
def State.fabricEvents (s : State) : List Event :=
  (s.gse.flatMap fun (g, e) => Event.gseQueryPacket g :: Event.gseForwardedRequest g ::
    e.slots.flatMap fun (i, _) => [Event.gseRound g i, Event.gseQueryComplete g i]) ++
  (if s.arrived.isEmpty then [] else
    [Event.fabricResponse, Event.staleNotice, Event.announce, Event.fabricRead, Event.fabricWrite, Event.fabricPostedWrite, Event.fabricAtomic, Event.rallyIncrement] ++
    s.arrived.map fun k => Event.postedWriteGapTimeout k.src) ++
  (s.remotes.flatMap fun (t, _) => [Event.remoteTimeout t, Event.rallyIncrementTimeout t]) ++
  s.announces.map (fun n => Event.announceSend n) ++
  (s.ports.flatMap fun (n, _) => Event.flitSend n :: (List.range 3).map (fun vc => Event.escapeMove n vc)) ++
  ((List.range 32).filter fun n => s.linked n && (s.port n).reportAt + 256 ≤ s.time).map fun n => Event.reportTimer n

def unitOf : Nat → UnitKind
  | 1 => .core | 2 => .dieCache | 3 => .wellhead | 4 => .port | 5 => .dispatcher | 6 => .walker | _ => .power

/-- Events of start-up, of the error log and of the power controller: a start group whose time has come, thresholds, injections
whose 1 ms is over, and the tick of a millisecond (R426, R432, R434, R441). -/
def State.otherEvents (s : State) : List Event :=
  (let g := s.field (resetReg 0x08) 6 2 + 1
   if g ≤ 31 && s.resetAt + 25000 * g ≤ s.time then [Event.startGroupBegin g] else []) ++
  s.corrections.map (fun (u, _) => Event.correctedThreshold (unitOf (u / 256)) (u % 256)) ++
  (s.armed.filter fun a => a.since + 1_000_000 ≤ s.time).map (fun a => Event.injectedReport (unitOf a.kind) a.index a.cls 0 0) ++
  (if s.tickAt + 1_000_000 ≤ s.time then [.powerTick (Config.power s.tickAt)] else [])

/-- An address lies in host memory as an agent's translation now stands. -/
def State.onHost (s : State) (ag : Agent) (va : Nat) : Bool :=
  match s.locate ag va with
  | some (.host _) => true
  | _ => false

/-- The waits on words of host memory, of tasks and of BARRIERs (R443). -/
def State.hostWaits (s : State) : List Event :=
  (s.tasks.filterMap fun (n, x, t) => match t.st with
    | .parked (.word va _) =>
      if t.wakeAt.isNone && s.onHost { part := tagPart t.tag, tag := t.tag, core := some n } va.toNat then
        some (.hostWordPoll (.task n x))
      else none
    | _ => none) ++
  s.packets.filterMap fun k =>
    if k.isBarrier && k.outcome.isNone && s.onHost (s.partAgent k.part) (k.word 3).toNat then some (.hostWordPoll (.packet k.q k.idx))
    else none

/-- The events that may be due, the first to be performed first: those of one source before those of the next.
(Log 3: DESIGN CHOICE) -/
def State.dueEvents (s : State) : List Event :=
  (s.cores.flatMap fun (n, k) => k.events n) ++ s.queues.map (fun (i, _) => Event.queueProducerLanding (i / 16) (i % 16)) ++
    s.handoffs ++ s.memoryEvents ++ s.dispatchEvents ++ s.fabricEvents ++ s.otherEvents ++ s.hostWaits

/-- An event does something here. (Log 106: DESIGN CHOICE) -/
def State.enabled (s : State) (e : Event) : Bool :=
  match e.run s with
  | .next t => t != s
  | _ => true

/-- The event that the module performs next by itself. (Log 3: DESIGN CHOICE; 106: DESIGN CHOICE) -/
def State.nextEvent (s : State) : Option Event := s.dueEvents.find? s.enabled

/-- A core whose clock something waits for. -/
def State.activeCore (s : State) (n : Nat) (k : Core) : Bool :=
  k.issuing.isSome || k.switch.isSome || !k.candidates.isEmpty || !k.pend.isEmpty || !k.loads.isEmpty || k.splitBusy ||
  k.pumps.any (fun (_, p) => p.code == 0 && !p.jobs.isEmpty) ||
  k.tasks.any (fun (_, t) => match t.st with | .parked (.time _) => true | _ => false) ||
  s.queues.any fun (i, q) => i / 16 == quadOf n && !q.landing.isEmpty

/-- The active cores, with their clocks. -/
def State.activeClocks (s : State) : List (Nat × Nat) :=
  (s.cores.filter fun (n, k) => s.activeCore n k).map fun (n, k) => (n, k.clock)

/-- The first of these cores whose clock is least. (Log 3: DESIGN CHOICE) -/
def leastClock : List (Nat × Nat) → Option (Nat × Nat)
  | [] => none
  | c :: cs => match leastClock cs with
    | some d => if c.2 ≤ d.2 then some c else some d
    | none => some c

/-- Once every active core has passed a cycle, the module has. (Log 3: DESIGN CHOICE) -/
def State.moveFront (s : State) : State :=
  match leastClock s.activeClocks with
  | some (_, t) => if s.front < t then s.passCycles (t - s.front) else s
  | none => s

/-- A cycle passes on a core that fetches nothing in it; with no task ISSUING it reaches the module's cycle.
(Log 3: DESIGN CHOICE) -/
def State.idleTurn (s : State) (n : Nat) : State :=
  let k := s.coreAt n
  if k.issuing.isNone && k.switch.isNone then s.tick n (max (k.clock + 1) s.front) else s.tick n (k.clock + 1)

/-- Core n fetches a bundle in its turn. -/
def Core.fetches (k : Core) : Bool := k.issuing.isSome && k.switch.isNone && (!k.leaving || k.issue.owed)

/-- The bundle that has been dispatched, if any, issues. -/
def State.issueNow (s : State) : Host.Outcome State Fault Refusal := s.issueBundle exec

/-- What follows a step of a core. -/
def settleFront : Host.Outcome State Fault Refusal → Host.Outcome State Fault Refusal
  | .next t => .next t.moveFront
  | x => x

/-- The turn of core n: the next bundle of its ISSUING task is fetched and issues, or a cycle passes. -/
def State.coreTurn (s : State) (n : Nat) : Host.Outcome State Fault Refusal :=
  if (s.coreAt n).fetches then
    match execBundleFetch n s with
    | .next t => settleFront t.issueNow
    | x => x
  else .next (s.idleTurn n).moveFront

/-- An input takes effect: an event or a core's turn, a store of the host, a passing of time, an error
of an element, or the programming of the MSI-X table. (Log 1: DESIGN CHOICE; 90: DEDUCED) -/
def State.takeInput (s : State) (i : Input) : Host.Outcome State Fault Refusal :=
  match i with
  | .event e => exec e s
  | .core n => s.coreTurn n
  | .hostStore pasid addr bytes => .next (s.setRaw (hostAddr pasid addr) bytes)
  | .deviceStore pa bytes =>
    if pa + bytes.length ≤ Config.physLimit then .next (s.hostStore pa bytes (bytes.length / 64 + 2))
    else .fault (.noMemory pa)
  | .elapse ns => .next (s.passTime ns)
  | .elementError core kind index =>
    let k := s.coreAt core
    .next (if k.bad.contains (kind, index) then s else s.setCoreAt core { k with bad := (kind, index) :: k.bad })
  | .msixProgram => .next { s with msixClear := false }

/-- With no input waiting: the next event; else the core whose clock is least; else a cycle passes.
(Log 3: DESIGN CHOICE) -/
def State.selfStep (s : State) : Host.Outcome State Fault Refusal :=
  match s.nextEvent with
  | some e => e.run s
  | none =>
    match leastClock s.activeClocks with
    | some (n, _) => s.coreTurn n
    | none => .next (s.passCycles 1)

/-- What a step does: a bundle that has been dispatched issues; else the oldest input takes effect; else the module goes on
by itself. -/
def State.moveOn (s : State) : Host.Outcome State Fault Refusal :=
  if s.frame.isSome then settleFront s.issueNow
  else
    match s.agenda with
    | i :: rest => ({ s with agenda := rest } : State).takeInput i
    | [] => s.selfStep

/-- One step, with the reports of the detectors that checked something in it (R434). -/
def State.advanceOnce (s : State) : Host.Outcome State Fault Refusal := s.notice s.moveOn

end Sys2Proof.Machine
end

