-- ==== Sys2Proof/Machine/Place.lean ====
section
/-! DEFINITION. A module with one instruction placed where its next step fetches: partition 0 runs one task on core 0,
whose code lies in a frame of stack 0 behind a three-level table. -/

namespace Sys2Proof.Machine

/-- The frames of the placed tables, levels 1 to 3, and of the placed code. -/
def placedTable (level : Nat) : Nat := 0x1_0000 * level
def placedCode : Nat := 0x4_0000

/-- A line of device memory written beside the caches. -/
def State.putLine (s : State) (pa : Nat) (bs : List Byte) (tag : Tag) : State :=
  (s.dropLine (dieOf pa) pa).setRawLine pa { data := bytesToLine bs, tag := tag, poison := false }

/-- The first line of a table whose entry 0 is this. -/
def tableLine (e : Nat) : List Byte := toBytes 8 e ++ List.replicate 56 0

/-- The line of a bundle that holds one word in one slot, before a bundle of a NOP in the C slot. -/
def codeLineOf (slot w : Nat) : List Byte :=
  let bundle := toBytes 1 (2 ^ slot) ++ toBytes 1 0 ++ toBytes (slotSize slot) w
  takeBytes 64 (bundle ++ [1, 0, 0, 0, 0, 0, 0, 0])

/-- The slot of a table row's word. -/
def tableSlot (nbits w : Nat) : Nat :=
  match tableWord nbits w with
  | some x => x.slot
  | none => if nbits = 32 then 2 else if nbits = 48 then 0 else 3

/-- The module with the placed task running; its code line is fetched by the next step, which is core 0's turn.
(Log 2: DESIGN CHOICE) -/
def State.placed (s : State) (slot w : Nat) : State :=
  let t := s.ten 0
  let s1 := (s.setTen 0 { t with closed := false }).setReg (resetReg 0x10) (maskBits 32 0)
  let s2 := s1.setReg (partReg 0 0x40) (BitVec.ofNat 64 (placedTable 1 + 1))
  let s3 := s2.putLine (placedTable 1) (tableLine (placedTable 2 + 1)) nullTag
  let s4 := s3.putLine (placedTable 2) (tableLine (placedTable 3 + 1)) nullTag
  let s5 := s4.putLine (placedTable 3) (tableLine (placedCode + 0x15)) nullTag
  let s6 := s5.putLine placedCode (codeLineOf slot w) (s.curTag 0)
  let task := { Task.start 0 0 0 0 3 (s.curTag 0) false 0 none none with st := .issuing }
  let core := { Core.reset with tasks := SMap.set Task.free [] 0 task, issuing := some 0 }
  { s6.setCoreAt 0 core with agenda := [.core 0], frame := none, later := SMap.set none s6.later 0 none }

end Sys2Proof.Machine
end

