-- ==== Sys2Proof/Machine/Step.lean ====
section
/-! DEFINITION. One step of the module. -/

namespace Sys2Proof.Machine

/-- One step: a bundle that has been dispatched issues; else an input takes effect; else the module's next event, the
next bundle of a core, or the passing of a cycle. -/
def step (s : State) : Host.Outcome State Fault Refusal := s.advanceOnce

/-- The module with an instruction of the opcode table placed where `step` fetches next, whatever else is under way:
a task of partition 0 runs it on core 0. (Log 2: DESIGN CHOICE) -/
def State.withFetchWord (s : State) (nbits w : Nat) : State := s.placed (tableSlot nbits w) w

end Sys2Proof.Machine
end

