-- ==== Sys2Proof/Safety.lean ====
section
/-! DEFINITION. The terms of the claims: a safe run, the canonical form of memory, what a part of the machine leaves
unchanged, and what it means that an instruction completes with a result. -/

namespace Sys2Proof

open Machine

/-- A step that neither stops with a fault nor is refused. -/
def goesOn (s : State) : Prop := ∃ t, step s = .next t

/-- The canonical form of memory (bytes, tags and poison marks). -/
def memoryOk (s : State) : Prop :=
  Memory.wf s.mem ∧ SMap.wf nullTag s.tags = true ∧ SMap.wf false s.poisoned = true

/-- The guard fields of a slot word (R115). -/
def SlotWord.guard : SlotWord → Guard
  | .c w => w.g
  | .s w => w.g
  | .p w => w.g
  | .v w => w.g
  | .m w => w.g
  | .l w => w.g
  | .e w => w.g

/-- A slot word with another guard. -/
def SlotWord.withGuard : SlotWord → Guard → SlotWord
  | .c w, g => .c { w with g := g }
  | .s w, g => .s { w with g := g }
  | .p w, g => .p { w with g := g }
  | .v w, g => .v { w with g := g }
  | .m w, g => .m { w with g := g }
  | .l w, g => .l { w with g := g }
  | .e w, g => .e { w with g := g }

/-- The instruction completes in a state of which this holds. -/
def Completes (i : Instr) (s : State) (q : State → Prop) : Prop := ∃ t, exec i s = .next t ∧ q t

/-- A trap that is precise at its own bundle (R272). -/
def preciseTrap (c : Cause) (addr info : Word) : Trap := { cause := c, addr := addr, info := info, at_ := .bundle }

/-- A value that is neither a NaN nor an infinity. -/
def Finite (x : XVal) : Prop := ∃ neg m e, x = .fin neg m e

/-- A finite value as a multiple of 2^q, for a q that is at most its exponent. -/
def units (q : Int) : XVal → Int
  | .fin neg m e => (if neg then -1 else 1) * ((m * 2 ^ (e - q).toNat : Nat) : Int)
  | _ => 0

/-- What sums, products and comparisons of finite values are (R74, R82): exact. -/
def ExactArithmetic : Prop :=
  ∀ (rm : RM) (p q : Int) (a b : Bool) (m n : Nat) (e d : Int), p ≤ e → q ≤ d →
    let x := XVal.fin a m e
    let y := XVal.fin b n d
    Finite (xadd rm x y) ∧ Finite (xmul x y) ∧ units (p + q) (xmul x y) = units p x * units q y ∧
    (q ≤ e → units q (xadd rm x y) = units q x + units q y ∧ xcmp x y = compare (units q x) (units q y))

/-- What rounding to a format gives (R74 to R77): the code of a value that the format has, but that E2M1 has no minus zero;
of any other, where it does not overflow, the code next below, next above or next towards zero in a directed mode, and a
nearest one in RNE and RNA, a tie going to the even code or away from zero. -/
def RoundsRight (f : Fmt) : Prop :=
  (∀ rm c, c < 2 ^ fmtWidth f → isNaN (floatVal f c) = false → (f = .e2m1 → c ≠ 8) → round f rm false (floatVal f c) = c) ∧
  ∀ (rm : RM) (neg : Bool) (m : Nat) (e q : Int), q ≤ -149 → q ≤ e →
    let x := units q (.fin neg m e)
    let code := round f rm false (.fin neg m e)
    let val := fun c => units q (floatVal f c)
    let r := val code
    Finite (floatVal f code) → (f = .e2m1 → code ≠ 8) →
    (rm = .rdn → r ≤ x) ∧ (rm = .rup → x ≤ r) ∧ (rm = .rtz → r.natAbs ≤ x.natAbs) ∧
    ∀ c, c < 2 ^ fmtWidth f → Finite (floatVal f c) →
      (rm = .rdn → val c ≤ x → val c ≤ r) ∧ (rm = .rup → x ≤ val c → r ≤ val c) ∧
      (rm = .rtz → (val c).natAbs ≤ x.natAbs → (val c).natAbs ≤ r.natAbs) ∧
      (rm = .rne ∨ rm = .rna → (r - x).natAbs ≤ (val c - x).natAbs) ∧
      ((val c - x).natAbs = (r - x).natAbs → val c ≠ r → (rm = .rne → code % 2 = 0) ∧ (rm = .rna → x.natAbs ≤ r.natAbs))

/-- Nothing outside core n has changed: memory, every device register, every other core and unit. -/
def OnlyCore (s t : State) (n : Nat) : Prop := t = { s with cores := t.cores } ∧ ∀ m, m ≠ n → t.coreAt m = s.coreAt m

/-- Nothing outside the executing core has changed, and of that core only context x. -/
def OnlyTask (s t : State) : Prop :=
  OnlyCore s t s.c ∧ t.core = { s.core with tasks := t.core.tasks } ∧ ∀ y, y ≠ s.x → t.core.task y = s.core.task y

/-- Only scalar register r of the executing task has changed: no other register, no predicate, not the pc, no trap
register, no memory. -/
def OnlyScalar (s t : State) (r : SReg) : Prop :=
  OnlyTask s t ∧ t.task = { s.task with s := t.task.s, a := t.task.a } ∧ ∀ q, q ≠ r → t.task.scalar q = s.task.scalar q

/-- Only predicate register n of the executing task has changed. -/
def OnlyPred (s t : State) (n : BitVec 4) : Prop :=
  OnlyTask s t ∧ t.task = { s.task with p := t.task.p } ∧ ∀ m, m ≠ n → t.task.pred m = s.task.pred m

/-- What a scalar destination reads after a write of v, where it read `old` before: s0 discards the write and reads
zero (R41), and an index register is no destination (R43). -/
def afterWrite (sd : SReg) (v old : Word) : Word :=
  match sd with
  | .s n => if n = 0 then 0 else v
  | .a _ => v
  | .i _ => old

/-- The instruction completes with v in its scalar destination and nothing else changed. -/
def WritesScalar (i : Instr) (s : State) (sd : SReg) (v : Word) : Prop :=
  Completes i s fun t => t.task.scalar sd = afterWrite sd v (s.task.scalar sd) ∧ OnlyScalar s t sd

/-- The instruction completes with every lane n of its predicate destination at `lane n`, and nothing else changed; p0
discards the write and reads all-true (R41). -/
def WritesPred (i : Instr) (s : State) (pd : BitVec 4) (lane : Nat → Bool) : Prop :=
  Completes i s fun t =>
    (∀ n, n < 256 → (t.task.pred pd).getLsbD n = (decide (pd = 0) || lane n)) ∧ OnlyPred s t pd

/-- An exposed result of the executing task leaves, to land n cycles after the slot's issue (R201, R264). -/
def withPending (s : State) (n : Nat) (what : PendWhat) : State :=
  s.setCore { s.core with pend := s.core.pend ++ [{ due := s.now + n, ctx := s.x, tag := s.task.tag, what := what }] }

/-- No tile entry of the executing core fills, drains or has a fill to come. -/
def QuietTiles (s : State) : Prop := ∀ e, e ∈ s.core.tiles → e.2.st ≠ .filling ∧ e.2.st ≠ .draining ∧ e.2.queued = none

/-- A tile entry of the task, by the name that its instructions give it, is ready, free of errors, and holds at least
`need` bytes (R207, R248). -/
structure ReadyTile (s : State) (name need : Nat) (t : Tile) : Prop where
  entry : t = s.core.seenTile (s.core.tileName name)
  mine : t.tag = s.task.tag
  clear : t.code = 0
  ready : t.st = .ready
  long : need ≤ t.rows * 128
  sound : (7, s.core.tileName name) ∉ s.core.bad
  unmapped : ∀ off len, s.stashSectors s.c (t.base + off) len = []

/-- The row operand of an M-slot word: ROW, or i0 where it lies below its limit (R199). -/
def RowIs (s : State) (row : MRow) (limit n : Nat) : Prop :=
  match row with
  | .imm m => n = m.toNat
  | .i0 => n = (s.scalar (.i 0)).toNat ∧ n < limit

/-- The effective accumulator row of an M-slot word (R53). -/
def RowOfAcc (s : State) (acc : AccRef) (n : Nat) : Prop :=
  match acc.ax with
  | none => n = acc.row.toNat
  | some k => n = (acc.row.toNat + (s.areg k).toNat) % 4096 ∧ n < 3072

/-- No TLB walk and no SPLIT of the core holds its L and E slots (R218, R257). -/
def MayAccess (s : State) : Prop := s.preCore.walk = none ∧ s.preCore.splitBusy = false

/-- The core and the offset in its store that a local address names in the numbering of the executing quad (R7). -/
def localCore (s : State) (a : Word) : Nat := quadOf s.c * 4 + a.toNat / 2 ^ 20 % 4
def localOffset (a : Word) : Nat := a.toNat % 2 ^ 20

/-- No 64-byte line of a range of core n's store holds an uncorrectable error (R274). -/
def SoundLines (s : State) (n off len : Nat) : Prop :=
  ∀ line, off / 64 ≤ line → line ≤ (off + len - 1) / 64 → (5, line) ∉ (s.coreAt n).bad

/-- An access of `size` bytes at a local address passes the checks of R217, meets no stash range, no job of the task that
it has to wait for, and no uncorrectable error. -/
structure PlainLocal (s : State) (a : Word) (size align : Nat) (write : Bool) : Prop where
  aligned : a.toNat % align = 0
  local_ : a.toNat < 2 ^ 22
  free : localCore s a ≠ s.c → (s.coreAt (localCore s a)).splitBusy = false
  inside : localOffset a + size ≤ (s.coreAt (localCore s a)).scr * 2 ^ 16
  unmapped : s.stashSectors (localCore s a) (localOffset a) size = []
  ordered : s.mustWait (localRegion (localCore s a) (localOffset a) size) write = false
  sound : SoundLines s (localCore s a) (localOffset a) size

/-- There is room for n more requests among those that the core keeps outstanding (R221). -/
def Room (s : State) (n : Nat) : Prop := s.core.requests s.now + n ≤ 4096

/-- The 64-byte lines that an access of n bytes at a local address touches, each a request (R221). -/
def lineCount (a : Word) (n : Nat) : Nat := (localOffset a + n + 63) / 64 - localOffset a / 64

/-- The cycles by which earlier accesses of its issue cycle to its banks delay an access (R285). (Log 116: DEDUCED) -/
def bankWait (s : State) (a : Word) (n : Nat) : Nat := s.bankDelay (localCore s a) (localOffset a) n

/-- A range in the executing core's own scratchpad, aligned (R217, R245, R249). -/
structure OwnLocal (s : State) (a : Word) (size align : Nat) : Prop where
  aligned : a.toNat % align = 0
  local_ : a.toNat < 2 ^ 22
  own : localCore s a = s.c
  inside : localOffset a + size ≤ s.core.scr * 2 ^ 16

/-- Tile entry n of the executing core is empty, and no other tenancy's (R245, R381). -/
def EmptyTile (s : State) (n : Nat) : Prop :=
  (s.core.seenTile n).st = .empty ∧ (s.core.seenTile n = Tile.none ∨ (s.core.seenTile n).tag = s.task.tag)

/-- What a global load of the task reads of n bytes within one line at va (R218 to R220): the bytes that the tag rule
gives, poisoned data as zero; or zeros of an absent page under soft residency, where the load names a predicate. -/
def LineRead (s : State) (va n : Nat) (soft : Bool) (t : State) (bs : List Byte) (absent poison : Bool) : Prop :=
  (∃ u x l, s.readAt s.agent va n .read .plain = .ok (u, x, l) ∧ t = State.noteWalk s u va ∧
    bs = u.seenBytes u.task.tag l x (va % 64) n ∧ absent = false ∧ poison = x.poison) ∨
  (∃ level entry, s.readAt s.agent va n .read .plain = .error (.fault 1 level true entry) ∧ soft = true ∧ t = s ∧
    bs = List.replicate n 0 ∧ absent = true ∧ poison = false)

/-- An access of n requests that no load awaits stays outstanding for a free latency (R221). -/
def requestsLeave (s : State) (n : Nat) : State :=
  { s with fresh := s.fresh + 1 }.fly { till := s.now + Config.memLatency s.fresh, requests := n, range := none }

/-- A load's data leaves for its destination after a free latency (R221). -/
def loadLeaves (s : State) (dest : LoadTo) (data : VBits) (pr : BitVec 4) (keep : Lanes) (poison : Option Word) : State :=
  { s with fresh := s.fresh + 1 }.startLoad dest data pr keep poison (Config.memLatency s.fresh)

/-- A vector destination can take a result: a register or no destination always, a queue if the executing core is
its producer and it has room (R45, R58, R59). -/
def CanTake (s : State) : VDst → Prop
  | .v _ => True
  | .none => True
  | .k k =>
    let q := s.myQueue k.toNat
    tagGen q.tag ≠ 0 ∧ q.prod.toNat = memberOf s.c ∧ q.fill + q.landing.length < 8

/-- What a vector destination keeps in the lanes that a guard disables (R50). -/
def keptBy (s : State) : VDst → VBits
  | .v n => s.vregNow n.toNat
  | _ => 0

/-- The state once a vector result has gone to its destination, for a queue to land `latency` cycles later, and onto
the result queue (R45, R52, R58). -/
def delivered (s : State) (vd : VDst) (w : VBits) (latency : Nat) : State :=
  let to_ : State := match vd with
    | .v n => s.putV n.toNat w
    | .none => s
    | .k k =>
      let q := s.myQueue k.toNat
      s.setMyQueue k.toNat { q with landing := q.landing ++ [{ data := w, tag := s.task.tag, due := s.now + latency }] }
  to_.pushResult w

/-- The V-slot operation completes wherever its guard is true in some lane, its sources can be read (to `vs`, with the
queues they name advanced in s1) and its destination can take a result: element e of the result is `val vs e` in an
enabled lane and what the destination keeps in any other (R48, R50). -/
def VectorResult (i : Instr) (s : State) (g : Guard) (f : Fmt) (vd : VDst) (srcs : List VSrc) (latency : Nat)
    (val : List VBits → Nat → Nat) : Prop :=
  s.guardLanes g ≠ 0 → ∀ s1 vs, s.readVs srcs = .ok (s1, vs) → CanTake s1 vd →
    ∃ w, exec i s = .next (delivered s1 vd w latency) ∧ ∀ e, e < fmtCount f →
      elem f w e = if (s.guardLanes g).getLsbD (laneOf f e) then val vs e % 2 ^ fmtWidth f else elem f (keptBy s1 vd) e

/-- The V-slot compare completes under the same conditions: an enabled lane of pD is true when the condition holds for
every element that it governs, a disabled lane keeps its value, and an entry with all ones in each enabled element whose
condition holds, and zeros elsewhere, is pushed (R171). -/
def VectorCompare (i : Instr) (s : State) (g : Guard) (f : Fmt) (pd : BitVec 4) (srcs : List VSrc)
    (cond : List VBits → Nat → Bool) : Prop :=
  s.guardLanes g ≠ 0 → ∀ s1 vs, s.readVs srcs = .ok (s1, vs) →
    ∃ t w, exec i s = .next (t.pushResult w) ∧ OnlyPred s1 t pd ∧
      (∀ n, n < 256 → (t.task.pred pd).getLsbD n = (decide (pd = 0) ||
        if (s.guardLanes g).getLsbD n then
          (List.range (fmtCount f)).all fun e =>
            !(laneOf f e == n || f == .i64 && laneOf f e + 1 == n) || cond vs e
        else (s1.pred pd).getLsbD n)) ∧
      ∀ e, e < fmtCount f → elem f w e =
        if (s.guardLanes g).getLsbD (laneOf f e) && cond vs e then 2 ^ fmtWidth f - 1 else 0

end Sys2Proof
end

