-- ==== Sys2Proof/Certificates/Slice0/Obligations.lean ====
section
/-! DEFINITION. What is claimed of the machine: one definition per claim, from the rules of the spec. -/

open Sys2Proof Sys2Proof.Machine

/-- O1. Under a true guard each two-operand or one-operand S-slot operation other than division completes with the
result that the table gives of the operands read before the instruction, in its destination alone; s0 as destination
discards it. (R158) -/
def Obligations.ScalarArithmetic : Prop :=
  ∀ (s : State) (g : Guard) (sd sa sb : SReg), s.guard g = true →
    let a := s.scalar sa
    let b := s.scalar sb
    let sh := (b.extractLsb' 0 6).toNat
    WritesScalar (.add g sd sa sb) s sd (a + b) ∧
    WritesScalar (.sub g sd sa sb) s sd (a - b) ∧
    WritesScalar (.mul g sd sa sb) s sd (a * b) ∧
    WritesScalar (.mulhu g sd sa sb) s sd ((a.setWidth 128 * b.setWidth 128).extractLsb' 64 64) ∧
    WritesScalar (.mulhs g sd sa sb) s sd ((a.signExtend 128 * b.signExtend 128).extractLsb' 64 64) ∧
    WritesScalar (.and g sd sa sb) s sd (a &&& b) ∧
    WritesScalar (.or g sd sa sb) s sd (a ||| b) ∧
    WritesScalar (.xor g sd sa sb) s sd (a ^^^ b) ∧
    WritesScalar (.andn g sd sa sb) s sd (a &&& ~~~ b) ∧
    WritesScalar (.shl g sd sa sb) s sd (a <<< sh) ∧
    WritesScalar (.shr g sd sa sb) s sd (a >>> sh) ∧
    WritesScalar (.sra g sd sa sb) s sd (a.sshiftRight sh) ∧
    WritesScalar (.rol g sd sa sb) s sd ((a <<< sh) ||| (a >>> (64 - sh))) ∧
    WritesScalar (.min g sd sa sb) s sd (if a.slt b then a else b) ∧
    WritesScalar (.max g sd sa sb) s sd (if a.slt b then b else a) ∧
    WritesScalar (.minu g sd sa sb) s sd (if a.ult b then a else b) ∧
    WritesScalar (.maxu g sd sa sb) s sd (if a.ult b then b else a) ∧
    WritesScalar (.mov g sd sa) s sd a ∧
    (∀ n : BitVec 3, WritesScalar (.addx g sd sa sb n) s sd (a + (b <<< n.toNat))) ∧
    (∀ w : BitVec 7, 1 ≤ w.toNat → w.toNat ≤ 64 →
      WritesScalar (.sext g sd sa w) s sd ((a.setWidth w.toNat).signExtend 64) ∧
      WritesScalar (.zext g sd sa w) s sd ((a.setWidth w.toNat).setWidth 64)) ∧
    (∃ n, n ≤ 64 ∧ (∀ m, m < n → a.getMsbD m = false) ∧ (n < 64 → a.getMsbD n = true) ∧
      WritesScalar (.clz g sd sa) s sd (BitVec.ofNat 64 n)) ∧
    (∃ n, n ≤ 64 ∧ (∀ m, m < n → a.getLsbD m = false) ∧ (n < 64 → a.getLsbD n = true) ∧
      WritesScalar (.ctz g sd sa) s sd (BitVec.ofNat 64 n)) ∧
    WritesScalar (.popc g sd sa) s sd (BitVec.ofNat 64 ((List.range 64).filter fun n => a.getLsbD n).length)

/-- O2. DIVU, REMU, DIVS and REMS complete under a true guard with the results of the table for every pair of
operands, a divisor of zero and the most negative number divided by minus one among them, and a = q × b + r holds
modulo 2 to the 64. (R159) -/
def Obligations.ScalarDivision : Prop :=
  ∀ (s : State) (g : Guard) (sd sa sb : SReg), s.guard g = true →
    let a := s.scalar sa
    let b := s.scalar sb
    let qu := if b = 0 then BitVec.allOnes 64 else a.udiv b
    let ru := if b = 0 then a else a.umod b
    let qs := if b = 0 then -1 else if a = BitVec.intMin 64 ∧ b = -1 then BitVec.intMin 64 else a.sdiv b
    let rs := if b = 0 then a else if a = BitVec.intMin 64 ∧ b = -1 then 0 else a.srem b
    WritesScalar (.divu g sd sa sb) s sd qu ∧ WritesScalar (.remu g sd sa sb) s sd ru ∧
    WritesScalar (.divs g sd sa sb) s sd qs ∧ WritesScalar (.rems g sd sa sb) s sd rs ∧
    a = qu * b + ru ∧ a = qs * b + rs

/-- O3. ADDI, ANDI, ORI and XORI compute with the sign-extended 15-bit immediate, SHLI, SHRI and SRAI shift by
IMM[5:0], LI sets the sign-extended 29-bit immediate and LIH replaces all but the low 29 bits of its destination; each
completes under a true guard and changes its destination alone. (R160, R161) -/
def Obligations.ScalarImmediates : Prop :=
  ∀ (s : State) (g : Guard) (sd sa : SReg), s.guard g = true →
    let a := s.scalar sa
    (∀ imm : BitVec 15,
      WritesScalar (.addi g sd sa imm) s sd (a + imm.signExtend 64) ∧
      WritesScalar (.andi g sd sa imm) s sd (a &&& imm.signExtend 64) ∧
      WritesScalar (.ori g sd sa imm) s sd (a ||| imm.signExtend 64) ∧
      WritesScalar (.xori g sd sa imm) s sd (a ^^^ imm.signExtend 64)) ∧
    (∀ sh : BitVec 6,
      WritesScalar (.shli g sd sa sh) s sd (a <<< sh.toNat) ∧
      WritesScalar (.shri g sd sa sh) s sd (a >>> sh.toNat) ∧
      WritesScalar (.srai g sd sa sh) s sd (a.sshiftRight sh.toNat)) ∧
    ∀ imm : BitVec 29,
      WritesScalar (.li g sd imm) s sd (imm.signExtend 64) ∧
      WritesScalar (.lih g sd imm) s sd
        ((imm.signExtend 64 <<< 29) ||| ((s.scalar sd).extractLsb' 0 29).setWidth 64)

/-- O4. Under a true guard each scalar compare completes with all 256 lanes of its predicate at the truth of its
condition, and SEL with one operand or the other by lane 0 of pN; nothing else changes, and p0 stays all-true. (R162,
R163) -/
def Obligations.ScalarComparesAndSelect : Prop :=
  ∀ (s : State) (g : Guard) (sa sb : SReg), s.guard g = true →
    let a := s.scalar sa
    let b := s.scalar sb
    (∀ pd : BitVec 4,
      WritesPred (.ceq g pd sa sb) s pd (fun _ => a == b) ∧
      WritesPred (.cne g pd sa sb) s pd (fun _ => a != b) ∧
      WritesPred (.clt g pd sa sb) s pd (fun _ => a.slt b) ∧
      WritesPred (.cle g pd sa sb) s pd (fun _ => a.sle b) ∧
      WritesPred (.cltu g pd sa sb) s pd (fun _ => a.ult b) ∧
      WritesPred (.cleu g pd sa sb) s pd (fun _ => a.ule b) ∧
      ∀ imm : BitVec 15,
        WritesPred (.ceqi g pd sa imm) s pd (fun _ => a == imm.signExtend 64) ∧
        WritesPred (.clti g pd sa imm) s pd (fun _ => a.slt (imm.signExtend 64)) ∧
        WritesPred (.cltui g pd sa imm) s pd (fun _ => a.ult (imm.signExtend 64))) ∧
    ∀ (sd : SReg) (pn : BitVec 4), WritesScalar (.sel g sd sa sb pn) s sd (if (s.pred pn).getLsbD 0 then a else b)

/-- O5. Under a true guard FADD and FMUL complete with the exact sum or product rounded once in RNE and zero-extended,
FMIN and FMAX with the lesser or greater (minus zero below plus zero, and the canonical NaN if either operand is NaN),
FTOI with the FP32 value as an INT64 and ITOF with the integer rounded to FP32; only the destination changes. Sums and
products of finite values are exact, and rounding to FP32 gives the code that the mode asks for. (R74, R75, R76, R164) -/
def Obligations.ScalarFloat : Prop :=
  ExactArithmetic ∧ RoundsRight .f32 ∧
  ∀ (s : State) (g : Guard) (sd sa sb : SReg), s.guard g = true →
    let a := (s.scalar sa).toNat % 2 ^ 32
    let b := (s.scalar sb).toNat % 2 ^ 32
    let x := floatVal .f32 a
    let y := floatVal .f32 b
    let word := fun n : Nat => BitVec.ofNat 64 (n % 2 ^ 32)
    let nan := isNaN x || isNaN y
    WritesScalar (.fadd g sd sa sb) s sd (word (round .f32 .rne false (xadd .rne x y))) ∧
    WritesScalar (.fmul g sd sa sb) s sd (word (round .f32 .rne false (xmul x y))) ∧
    WritesScalar (.fmin g sd sa sb) s sd (word (if nan then 0x7FC00000 else if xbelow y x then b else a)) ∧
    WritesScalar (.fmax g sd sa sb) s sd (word (if nan then 0x7FC00000 else if xbelow x y then b else a)) ∧
    WritesScalar (.ftoi g sd sa) s sd (BitVec.ofNat 64 (toInt 64 .rne x)) ∧
    WritesScalar (.itof g sd sa) s sd (word (round .f32 .rne false (ofInt (s.scalar sa).toInt)))

/-- O6. Under a true guard each P-slot predicate operation completes with every lane l of pD at the value that the
table gives of the operands read before it is written, and nothing else changes; p0 as destination stays all-true.
(R189) -/
def Obligations.PredicateLogic : Prop :=
  ∀ (s : State) (g : Guard) (pd pa pb : BitVec 4), s.guard g = true →
    let a := fun l => (s.pred pa).getLsbD l
    let b := fun l => (s.pred pb).getLsbD l
    WritesPred (.pand g pd pa pb) s pd (fun l => a l && b l) ∧
    WritesPred (.por g pd pa pb) s pd (fun l => a l || b l) ∧
    WritesPred (.pxor g pd pa pb) s pd (fun l => a l != b l) ∧
    WritesPred (.pandn g pd pa pb) s pd (fun l => a l && !b l) ∧
    WritesPred (.pnot g pd pa) s pd (fun l => !a l) ∧
    (∀ n : BitVec 8, WritesPred (.pseti g pd n) s pd (fun l => n.getLsbD (l % 8))) ∧
    (∀ n : BitVec 9, n.toNat ≤ 256 → WritesPred (.planes g pd pa n) s pd (fun l => a l && decide (l < n.toNat))) ∧
    (∀ n : BitVec 8, WritesPred (.pbcst g pd pa n) s pd (fun _ => a n.toNat)) ∧
    WritesPred (.pany g pd pa) s pd (fun _ => (List.range 256).any a) ∧
    WritesPred (.pall g pd pa) s pd (fun _ => (List.range 256).all a) ∧
    ∀ n : BitVec 8, WritesPred (.prot g pd pa n) s pd (fun l => a ((l + 256 - n.toNat) % 256))

/-- O7. Under a true guard XLD makes the address checks of R190 in their order, and in a plain local range reads its 512
bytes at issue and leaves them to land 12 cycles later, and one more for every earlier access of the cycle to its banks,
under the task's tag: which accesses meet in a bank is log 116. XSET and XMOV write the whole of xD once the XLDs due by then have
landed; QFMT sets the four fields of the queue's formats, or traps QUEUE where the queue's last QCFG was another
tenancy's. (R190, R191, R192, R193, R285) -/
def Obligations.ScaleRegistersAndFormats : Prop :=
  ∀ (s : State) (g : Guard), s.guard g = true →
    (∀ (xd : BitVec 4) (ab : BitVec 5) (off : BitVec 11),
      let a := s.areg ab + off.signExtend 64 * 64
      let o := a.toNat % 2 ^ 20
      (a.toNat % 64 ≠ 0 →
        exec (.xld g xd ab off) s = .next (s.raise (preciseTrap .align a a))) ∧
      (a.toNat % 64 = 0 → a.toNat / 2 ^ 20 ≠ s.c % 4 →
        exec (.xld g xd ab off) s = .next (s.raise (preciseTrap .lsrange a a))) ∧
      (a.toNat % 64 = 0 → a.toNat / 2 ^ 20 = s.c % 4 → ¬ o + 512 ≤ (s.coreAt s.c).scr * 2 ^ 16 →
        exec (.xld g xd ab off) s = .next (s.raise (preciseTrap .lsrange a a))) ∧
      (PlainLocal s a 512 64 false → a.toNat / 2 ^ 20 = s.c % 4 →
        let u := s.touch s.c o 512 8 6
        exec (.xld g xd ab off) s = .next (u.setCore { u.core with pend := u.core.pend ++
          [{ due := s.now + 12 + s.bankDelay s.c o 512, ctx := s.x, tag := s.task.tag,
             what := .scale xd.toNat (BitVec.ofNat 4096 (ofBytes (s.localBytes s.task.tag s.c o 512))) }] }))) ∧
    (∀ (xd : BitVec 4) (n : BitVec 8), ∃ w : XBits, (∀ i, i < 512 → w.extractLsb' (8 * i) 8 = n) ∧
      exec (.xset g xd n) s = .next ((s.landDue s.c s.now Pend.isScale).putX xd.toNat w)) ∧
    (∀ xd xa : BitVec 4, (4, xa.toNat) ∉ s.core.bad →
      exec (.xmov g xd xa) s = .next ((s.landDue s.c s.now Pend.isScale).putX xd.toNat (s.scaleAt xa.toNat s.now))) ∧
    ∀ (k : BitVec 4) (fs fk : Fmt) (rm : RM) (sat : Bool),
      let q := s.queue (s.c / 4) k.toNat
      (q.tag = s.task.tag → exec (.qfmt g k fs fk rm sat) s =
        .next (s.setQueue (s.c / 4) k.toNat { q with fs := fs, fk := fk, rm := rm, sat := sat })) ∧
      (q.tag ≠ s.task.tag → exec (.qfmt g k fs fk rm sat) s =
        .next (s.raise (preciseTrap .queue 0 (BitVec.ofNat 64 (k.toNat + 16 * 3)))))

/-- O8. Each floating-point lane operation computes each enabled element exactly from its sources' elements and rounds
once; VMIN and VMAX order minus zero below plus zero and give the canonical NaN for a NaN, VABS and VNEG change the
sign alone, VROUND keeps an integer-valued element of the same format; the result goes to the destination and the
result queue, and disabled lanes keep what the destination held. The exact value that VEXP2 and VLOG2 round is taken to a
fixed precision, which is log 9. In every floating-point format sums and products of finite values are exact, and rounding
gives the code that the mode asks for. (R74, R75, R76, R169, R174, R175, R184) -/
def Obligations.VectorFloat : Prop :=
  ExactArithmetic ∧ (∀ f, f ∈ [Fmt.f32, .bf16, .f16, .e4m3, .e5m2, .e2m1] → RoundsRight f) ∧
  ∀ (s : State) (g : Guard) (f : Fmt) (rm : RM) (vd : VDst) (va vb vc : VSrc), fmtFA f = true →
    let a := fun vs e => elem f (src1 vs) e
    let b := fun vs e => elem f (src2 vs) e
    let x := fun vs e => floatVal f (elem f (src1 vs) e)
    let y := fun vs e => floatVal f (elem f (src2 vs) e)
    let z := fun vs e => floatVal f (elem f (src3 vs) e)
    let nan := canonicalNaN f false
    let top := 2 ^ (fmtWidth f - 1)
    let rnd := fun v => round f rm false v
    VectorResult (.vadd g f rm vd va vb) s g f vd [va, vb] 4 (fun vs e => rnd (xadd rm (x vs e) (y vs e))) ∧
    VectorResult (.vsub g f rm vd va vb) s g f vd [va, vb] 4 (fun vs e => rnd (xadd rm (x vs e) (xneg (y vs e)))) ∧
    VectorResult (.vmul g f rm vd va vb) s g f vd [va, vb] 4 (fun vs e => rnd (xmul (x vs e) (y vs e))) ∧
    VectorResult (.vfma g f rm vd va vb vc) s g f vd [va, vb, vc] 4
      (fun vs e => rnd (xadd rm (xmul (x vs e) (y vs e)) (z vs e))) ∧
    VectorResult (.vfms g f rm vd va vb vc) s g f vd [va, vb, vc] 4
      (fun vs e => rnd (xadd rm (xmul (x vs e) (y vs e)) (xneg (z vs e)))) ∧
    VectorResult (.vfnma g f rm vd va vb vc) s g f vd [va, vb, vc] 4
      (fun vs e => rnd (xadd rm (xneg (xmul (x vs e) (y vs e))) (z vs e))) ∧
    VectorResult (.vmin g f rm vd va vb) s g f vd [va, vb] 4 (fun vs e =>
      if isNaN (x vs e) || isNaN (y vs e) then nan else if xbelow (y vs e) (x vs e) then b vs e else a vs e) ∧
    VectorResult (.vmax g f rm vd va vb) s g f vd [va, vb] 4 (fun vs e =>
      if isNaN (x vs e) || isNaN (y vs e) then nan else if xbelow (x vs e) (y vs e) then b vs e else a vs e) ∧
    VectorResult (.vabs g f rm vd va) s g f vd [va] 4 (fun vs e =>
      if isNaN (x vs e) then nan else if top ≤ a vs e then a vs e - top else a vs e) ∧
    VectorResult (.vneg g f rm vd va) s g f vd [va] 4 (fun vs e =>
      if isNaN (x vs e) then nan else if top ≤ a vs e then a vs e - top else a vs e + top) ∧
    VectorResult (.vrcp g f rm vd va) s g f vd [va] 8 (fun vs e => rnd (xrcp (x vs e))) ∧
    VectorResult (.vrsq g f rm vd va) s g f vd [va] 8 (fun vs e => rnd (xrsq (x vs e))) ∧
    VectorResult (.vsqrt g f rm vd va) s g f vd [va] 8 (fun vs e => rnd (xsqrt (x vs e))) ∧
    VectorResult (.vexp2 g f rm vd va) s g f vd [va] 8 (fun vs e => rnd (xexp2 (x vs e))) ∧
    VectorResult (.vlog2 g f rm vd va) s g f vd [va] 8 (fun vs e => rnd (xlog2 (x vs e))) ∧
    VectorResult (.vround g f rm vd va) s g f vd [va] 4 (fun vs e => roundToInteger f rm (a vs e))

/-- O9. Each integer or bitwise lane operation computes each enabled element modulo 2 to the width of its format from
the elements of its sources: sums, differences, products, signed minimum and maximum, and, or, exclusive or, shifts by
the second element modulo the width, absolute value and population count. (R179) -/
def Obligations.VectorInteger : Prop :=
  ∀ (s : State) (g : Guard) (f : Fmt) (rm : RM) (vd : VDst) (va vb : VSrc),
    let w := fmtWidth f
    let a := fun vs e => BitVec.ofNat w (elem f (src1 vs) e)
    let b := fun vs e => BitVec.ofNat w (elem f (src2 vs) e)
    let n := fun vs e => elem f (src2 vs) e % w
    let two := fun (i : Instr) (h : List VBits → Nat → BitVec w) =>
      VectorResult i s g f vd [va, vb] 4 (fun vs e => (h vs e).toNat)
    let one := fun (i : Instr) (h : List VBits → Nat → BitVec w) =>
      VectorResult i s g f vd [va] 4 (fun vs e => (h vs e).toNat)
    two (.viadd g f rm vd va vb) (fun vs e => a vs e + b vs e) ∧
    two (.visub g f rm vd va vb) (fun vs e => a vs e - b vs e) ∧
    two (.vimul g f rm vd va vb) (fun vs e => a vs e * b vs e) ∧
    two (.vimin g f rm vd va vb) (fun vs e => if (a vs e).slt (b vs e) then a vs e else b vs e) ∧
    two (.vimax g f rm vd va vb) (fun vs e => if (a vs e).slt (b vs e) then b vs e else a vs e) ∧
    two (.vand g f rm vd va vb) (fun vs e => a vs e &&& b vs e) ∧
    two (.vor g f rm vd va vb) (fun vs e => a vs e ||| b vs e) ∧
    two (.vxor g f rm vd va vb) (fun vs e => a vs e ^^^ b vs e) ∧
    two (.vshl g f rm vd va vb) (fun vs e => a vs e <<< n vs e) ∧
    two (.vshr g f rm vd va vb) (fun vs e => a vs e >>> n vs e) ∧
    two (.vsra g f rm vd va vb) (fun vs e => (a vs e).sshiftRight (n vs e)) ∧
    one (.viabs g f rm vd va) (fun vs e => if (a vs e).msb then -(a vs e) else a vs e) ∧
    one (.vpopc g f rm vd va) (fun vs e => BitVec.ofNat w ((List.range w).filter fun i => (a vs e).getLsbD i).length)

/-- O10. VSEL picks elements by the selection predicate; VCVT, VQNT and VCBDEC convert each element once and place
part p of the output; the data-movement operations copy elements as bits from the places that the table gives; VCOMPR
and VEXPND pack and spread the selected elements. (R172, R178, R180, R181, R182, R183, R185, R186) -/
def Obligations.VectorMoveAndConvert : Prop :=
  ∀ (s : State) (g : Guard) (f fs : Fmt) (rm : RM) (sat : Bool) (vd : VDst) (va vb : VSrc) (pc part : BitVec 4)
      (n : BitVec 11) (h : Bool),
    let c := fmtCount f
    let a := fun vs e => elem f (src1 vs) e
    let b := fun vs e => elem f (src2 vs) e
    let sel := fun e => (s.pred pc).getLsbD (laneOf f e)
    let half := if h then 1 else 0
    let p := part.toNat
    let ni := fmtCount fs
    let placed := fun (conv : List VBits → Nat → Nat) (vs : List VBits) (e : Nat) =>
      if c < ni then conv vs (p * c + e)
      else if p * ni ≤ e ∧ e < (p + 1) * ni then conv vs (e - p * ni) else 0
    VectorResult (.vsel g f rm vd va vb pc) s g f vd [va, vb] 4 (fun vs e => if sel e then a vs e else b vs e) ∧
    VectorResult (.vcvt g f rm vd va fs sat part) s g f vd [va] 4
      (placed fun vs i => convert fs f rm sat (elem fs (src1 vs) i)) ∧
    VectorResult (.vqnt g f rm vd va vb fs sat part) s g f vd [va, vb] 4 (placed fun vs i =>
      let scale := elem .i8 (src2 vs) (i / 32)
      let x := xscale (127 - (scale : Int)) (floatVal fs (elem fs (src1 vs) i))
      if scale = 0xFF then (if f = .i8 then 0 else if f = .e2m1 then (if sat then 0 else 8) else canonicalNaN f false)
      else if f = .i8 then toInt 8 rm x else round f rm sat x) ∧
    VectorResult (.vcbdec g f rm vd va part) s g f vd [va] 4 (fun vs e =>
      round f rm false (vq2Val (elem .i16 (src1 vs) (p * (c / 8) + e / 8)) (e % 8))) ∧
    VectorResult (.vmov g f rm vd va) s g f vd [va] 4 a ∧
    VectorResult (.vbcst g f rm vd va n) s g f vd [va] 4 (fun vs _ => a vs n.toNat) ∧
    VectorResult (.vperm g f rm vd va vb) s g f vd [va, vb] 4 (fun vs e => a vs (b vs e % c)) ∧
    VectorResult (.vrotl g f rm vd va n) s g f vd [va] 4 (fun vs e => a vs ((e + n.toNat) % c)) ∧
    VectorResult (.vextr g f rm vd va vb n) s g f vd [va, vb] 4
      (fun vs e => if e + n.toNat < c then a vs (e + n.toNat) else b vs (e + n.toNat - c)) ∧
    VectorResult (.vins g f rm vd va vb n) s g f vd [va, vb] 4 (fun vs e => if e = n.toNat then b vs 0 else a vs e) ∧
    VectorResult (.vzip g f rm vd va vb h) s g f vd [va, vb] 4
      (fun vs e => (if e % 2 = 0 then a else b) vs (e / 2 + half * (c / 2))) ∧
    VectorResult (.vunzip g f rm vd va vb h) s g f vd [va, vb] 4
      (fun vs e => if 2 * e + half < c then a vs (2 * e + half) else b vs (2 * e + half - c)) ∧
    VectorResult (.viota g f rm vd) s g f vd [] 4 (fun _ e => if fmtInt f then e else round f rm false (ofInt e)) ∧
    VectorResult (.vcompr g f rm vd va pc) s g f vd [va] 4
      (fun vs e => match ((List.range c).filter sel)[e]? with
        | some i => a vs i
        | none => 0) ∧
    VectorResult (.vexpnd g f rm vd va pc) s g f vd [va] 4
      (fun vs e => if sel e then a vs ((List.range e).filter sel).length else 0)

/-- O11. VRSUM, VRMAX and VRMIN combine the selected elements by the pairwise tree, the others entering as the
identity, into element 0: which elements take part pC alone decides, the guard only what is written (log 22); VSCAN gives every prefix in ascending order; VDOT sums exact products in groups of 32 and
then by the tree, or modulo 2 to the 32 in integers; VARGMX gives the index of the largest selected element and its
value, the lowest index winning and a NaN before every number; every other element is zero. (R86, R87, R88, R172,
R187, R188) -/
def Obligations.VectorReductions : Prop :=
  ∀ (s : State) (g : Guard) (f : Fmt) (rm : RM) (vd : VDst) (va vb : VSrc) (pc : BitVec 4),
    let int := fmtInt f
    let fo := if int then f else .f32
    let c := fmtCount f
    let p := s.pred pc
    let sign := fun n => intVal (fmtWidth f) n
    let plus := fun a b => if int then (a + b) % 2 ^ fmtWidth f else addF32 rm a b
    let none_ := if int then 0 else 0x80000000
    let least := if int then 2 ^ (fmtWidth f - 1) else 0xFF800000
    let most := if int then 2 ^ (fmtWidth f - 1) - 1 else 0x7F800000
    let more := fun a b => if int then (if sign a < sign b then b else a) else fmax .f32 a b
    let less := fun a b => if int then (if sign b < sign a then b else a) else fmin .f32 a b
    let first := fun (v : List VBits → Nat) vs e => if e = 0 then v vs else 0
    let byTree := fun op d => first fun vs => tree op d c.log2 (taking f p (src1 vs) d)
    let takes := fun e => p.getLsbD (laneOf f e)
    VectorResult (.vrsum g f rm vd va pc) s g fo vd [va] 8 (byTree plus none_) ∧
    VectorResult (.vrmax g f rm vd va pc) s g fo vd [va] 8 (byTree more least) ∧
    VectorResult (.vrmin g f rm vd va pc) s g fo vd [va] 8 (byTree less most) ∧
    (f ∈ [Fmt.f32, .i32, .i64] → VectorResult (.vscan g f rm vd va pc) s g f vd [va] 8 (fun vs e =>
      ((taking f p (src1 vs) none_).take (e + 1)).tail.foldl plus ((taking f p (src1 vs) none_).headD 0))) ∧
    (f ≠ .i64 → int = false → VectorResult (.vdot g f rm vd va vb pc) s g .f32 vd [va, vb] 8 (first fun vs =>
      tree (addF32 rm) 0 (c / 32).log2 ((List.range (c / 32)).map fun n =>
        round .f32 rm false (xsum rm ((List.range 32).map fun j =>
          if takes (32 * n + j) then xmul (floatVal f (elem f (src1 vs) (32 * n + j)))
            (floatVal f (elem f (src2 vs) (32 * n + j))) else ofInt 0))))) ∧
    (f ≠ .i64 → int = true → VectorResult (.vdot g f rm vd va vb pc) s g .i32 vd [va, vb] 8 (first fun vs =>
      (((List.range c).map fun e =>
        if takes e then sign (elem f (src1 vs) e) * sign (elem f (src2 vs) e) else 0).sum % 2 ^ 32).toNat)) ∧
    (f ≠ .i64 → VectorResult (.vargmx g f rm vd va pc) s g .i32 vd [va] 8 (fun vs e =>
      match ((List.range c).filter takes).foldl (fun best i => better f best i (elem f (src1 vs) i)) none with
      | none => if e = 0 then 0xFFFFFFFF else 0
      | some (i, n) => if e = 0 then i else if e = 1 then (if int then (sign n % 2 ^ 32).toNat else widen f n) else 0))

/-- O12. A compare writes each enabled lane of pD with whether the condition holds for every element the lane governs,
keeps the disabled lanes, discards a destination of p0, and pushes an entry of all ones in each enabled element whose
condition holds and zeros elsewhere; the conditions are those of the two tables, false with a NaN but for VCMPNE.
(R171, R176, R177) -/
def Obligations.VectorCompares : Prop :=
  ∀ (s : State) (g : Guard) (f : Fmt) (rm : RM) (pd : BitVec 4) (va vb : VSrc),
    let x := fun vs e => floatVal f (elem f (src1 vs) e)
    let y := fun vs e => floatVal f (elem f (src2 vs) e)
    let num := fun vs e => !isNaN (x vs e) && !isNaN (y vs e)
    let order := fun vs e => xcmp (x vs e) (y vs e)
    let a := fun vs e => BitVec.ofNat (fmtWidth f) (elem f (src1 vs) e)
    let b := fun vs e => BitVec.ofNat (fmtWidth f) (elem f (src2 vs) e)
    VectorCompare (.vcmpeq g f rm pd va vb) s g f pd [va, vb] (fun vs e => num vs e && order vs e == .eq) ∧
    VectorCompare (.vcmplt g f rm pd va vb) s g f pd [va, vb] (fun vs e => num vs e && order vs e == .lt) ∧
    VectorCompare (.vcmple g f rm pd va vb) s g f pd [va, vb] (fun vs e => num vs e && order vs e != .gt) ∧
    VectorCompare (.vcmpne g f rm pd va vb) s g f pd [va, vb] (fun vs e => !(num vs e && order vs e == .eq)) ∧
    VectorCompare (.vicmpeq g f rm pd va vb) s g f pd [va, vb] (fun vs e => a vs e == b vs e) ∧
    VectorCompare (.vicmplt g f rm pd va vb) s g f pd [va, vb] (fun vs e => (a vs e).slt (b vs e)) ∧
    ∀ mask : BitVec 9, VectorCompare (.vclass g f rm pd va mask) s g f pd [va]
      (fun vs e => mask.getLsbD (classOf f (elem f (src1 vs) e)))

/-- O13. The tag rule gives an agent an element that is under its own tag, and through a shared entry one under the
owner's, where that tag is its partition's current one and the partition is open. A source vN or tN reads what the tag rule
gives the task, and an advancing queue source reads the entry that
the consumer is due, converted from FS to FK, and takes it from the queue; a result written to vN is what later reads
of vN give, it becomes t0 while the fifteen newest entries move on by one, and no scalar, predicate or other vector
register, pc or byte of memory changes. (R14, R44, R45, R52, R56, R59, R60, R67, R274, R379, R380, R388) -/
def Obligations.VectorSourcesAndResults : Prop :=
  (∀ (s : State) (t e : Tag),
    let current := fun (x : Tag) => x.toNat % 1024 = (s.ten (x.toNat / 1024)).gen.toNat
    let open_ := fun (x : Tag) => (s.ten (x.toNat / 1024)).closed = false
    (s.lands t = true ↔ current t ∧ open_ t) ∧
    (s.readable t e = true ↔ t = e ∧ current e ∧ open_ e) ∧
    s.readableShared t e none = s.readable t e ∧
    ∀ o, o < 64 → (s.readableShared t e (some o) = true ↔
      (t = e ∧ current e ∧ open_ e) ∨ (current t ∧ e.toNat / 1024 = o ∧ current e ∧ open_ e))) ∧
  (∀ (s : State) (n : BitVec 11), (2, n.toNat) ∉ s.core.bad →
    let r := SMap.get VReg.zero s.preCore.v n.toNat
    s.readVs [.v n] = .ok (s, [if s.readable s.task.tag r.tag then r.data else 0])) ∧
  (∀ (s : State) (n : BitVec 4), (8, 16 * s.x + n.toNat) ∉ s.core.bad →
    (∀ r, s.preTask.results[n.toNat]? = some r →
      s.readVs [.t n] = .ok (s, [if s.readable s.task.tag r.tag then r.data else 0])) ∧
    (s.preTask.results.length ≤ n.toNat → s.readVs [.t n] = .ok (s, [0]))) ∧
  (∀ (s : State) (k : BitVec 4) (j : BitVec 3) (adv : Bool),
    let q := s.queue (s.c / 4) k.toNat
    let e := SMap.get VReg.zero q.entries ((q.rd.toNat + j.toNat) % 8)
    tagGen q.tag ≠ 0 → q.cons.toNat = s.c % 4 → j.toNat < q.fill →
    (6, 8 * k.toNat + (q.rd.toNat + j.toNat) % 8) ∉ s.core.bad →
    ∃ t v, s.readVs [.k k j adv] = .ok (t, [v]) ∧
      (∀ i, i < fmtCount q.fk → q.fs ≠ q.fk → elem q.fk v i = (if i < fmtCount q.fs then
        convert q.fs q.fk q.rm q.sat (elem q.fs (if s.readable s.task.tag e.tag then e.data else 0) i) else 0)
          % 2 ^ fmtWidth q.fk) ∧
      (q.fs = q.fk → v = if s.readable s.task.tag e.tag then e.data else 0) ∧
      (t.queue (s.c / 4) k.toNat).fill = (if adv then q.fill - 1 else q.fill) ∧
      (t.queue (s.c / 4) k.toNat).rd = (if adv then q.rd + 1 else q.rd) ∧ t = { s with queues := t.queues }) ∧
  (∀ (s : State) (k : BitVec 4) (j : BitVec 3) (adv : Bool),
    let q := s.queue (s.c / 4) k.toNat
    tagGen q.tag = 0 ∨ q.cons.toNat ≠ s.c % 4 →
    s.readVs [.k k j adv] = .error (.trap (preciseTrap .queue 0 (BitVec.ofNat 64 (k.toNat + 16 * 1))))) ∧
  ∀ (s : State) (n : BitVec 11) (w : VBits) (latency : Nat),
    let t := delivered s (.v n) w latency
    SMap.get VReg.zero t.core.v n.toNat = { data := w, tag := s.task.tag } ∧
    (∀ m, m ≠ n.toNat → SMap.get VReg.zero t.core.v m = SMap.get VReg.zero s.core.v m) ∧
    t.task = { s.task with results := ({ data := w, tag := s.task.tag } :: s.task.results).take 16 } ∧
    OnlyCore s t s.c ∧ t.core = { s.core with tasks := t.core.tasks, v := t.core.v, bad := t.core.bad } ∧
    (∀ y, y ≠ s.x → t.core.task y = s.core.task y) ∧
    (s.lands s.task.tag = true → let u : State := { t with frame := none }
      u.readVs [.v n] = .ok (u, [w]) ∧ u.readVs [.t 0] = .ok (u, [w]))

/-- O14. Under a true guard, with its row and accumulator operands in range, its vector source readable, the scale
registers of a scaled format, a drained accumulator row and the lines of its tile's range sound, its tile ready and no gather on its way to its latch
row, each M-slot instruction completes, everything due by its issue having landed first: MFLIP exchanges the planes;
MPUSH and MPUSHT leave a group for the plane that is in the background at issue, to land 16 cycles later; MSHIFT,
MSHIFTL, MSHIFTT and MADDV leave a contribution for the effective row, to land 72 cycles later; one that reads a tile uses
the banks of its range, and what it leaves lands later by the earlier accesses of the cycle to them (log 116); MZERO clears a row;
MDRAIN converts a row into unit q of vD and leaves the rest of vD, and MDRAINZ clears the row as well. In each of them
an i0 at or above its limit traps LSRANGE. (R53, R199, R201, R202, R206, R208, R209, R211, R212, R213, R285) -/
def Obligations.MatrixInstructions : Prop :=
  ∀ (s : State) (g : Guard), s.guard g = true →
    let t := s.landDue s.c s.now fun p => !p.isScale
    let later := fun u n what => Host.Outcome.next (withPending u n what)
    let bytes := fun (x : Tile) off len => ofBytes (t.localBytes t.task.tag t.c (x.base + off) len)
    let used := fun (x : Tile) off len => t.useBanks t.c (x.base + off) len
    let wait := fun (x : Tile) off len => t.bankDelay t.c (x.base + off) len
    let back := if t.core.fore then 0 else 8
    exec (.mflip g) s = .next (t.setCore { t.core with fore := !t.core.fore }) ∧
    (∀ (f : MFmt) (vs : VSrc) (row : MRow) (n : Nat) (u : State) (v : VBits),
      RowIs t row 8 n → t.readVs [vs] = .ok (u, [v]) → ∃ w,
        exec (.mpush g f vs row) s = later u 16 (.push (back + n) w) ∧
        (f ≠ .vq2 → w = v) ∧
        (f = .vq2 → ∀ k c, k < 16 → c < 64 → elem .e4m3 w (64 * k + c) =
          round .e4m3 .rne false (vq2Val (elem .i16 v (128 * (n % 4) + 64 * (k / 8) + c)) (k % 8)) % 2 ^ 8)) ∧
    (∀ (f : MFmt) (e : BitVec 6) (row : MRow) (n : Nat) (tile : Tile),
      RowIs t row 8 n → f ≠ .vq2 → ReadyTile t e.toNat (1024 * (n + 1)) tile →
      SoundLines t t.c (tile.base + 1024 * n) 1024 →
        exec (.mpusht g f e row) s = later (used tile (1024 * n) 1024) (16 + wait tile (1024 * n) 1024)
          (.push (back + n) (BitVec.ofNat 8192 (bytes tile (1024 * n) 1024)))) ∧
    (∀ (e : BitVec 6) (row : MRow) (n : Nat) (tile : Tile),
      RowIs t row 8 n → ReadyTile t e.toNat (256 * (n + 1)) tile → SoundLines t t.c (tile.base + 256 * n) 256 →
        exec (.mpusht g .vq2 e row) s = later (used tile (256 * n) 256) (16 + wait tile (256 * n) 256)
          (.push (back + n) (pushGroup .vq2 (bytes tile (256 * n) 256)))) ∧
    (∀ (f : MFmt) (acc : AccRef) (row : MRow) (xa xb : BitVec 4) (ovr : Bool) (m n : Nat) (u : State), RowOfAcc t acc m →
      (mfmtScaled f = true → (4, xa.toNat) ∉ t.core.bad ∧ (4, xb.toNat) ∉ t.core.bad) →
      let gives := fun late a => later u (72 + late) (.acc m (f == .i8) ovr
        (beat f a u.foreGroup (u.scaleAt xa.toNat u.now) (u.scaleAt xb.toNat u.now) m))
      (∀ (vs : VSrc) (v : VBits), RowIs t row 8 n → t.readVs [vs] = .ok (u, [v]) →
        exec (.mshift g f acc vs row xa xb ovr) s = gives 0 (v.extractLsb' (1024 * n) 1024).toNat) ∧
      (u = t → RowIs t row 64 n → (∀ l, l ∈ t.core.loads → l.dest ≠ .latch n) →
        let r := SMap.get LatchRow.zero t.core.latch n
        exec (.mshiftl g f acc row xa xb ovr) s = gives 0 (if t.seen r.tag then r.data.toNat else 0)) ∧
      ∀ (e : BitVec 6) (tile : Tile), u = used tile (128 * n) 128 → RowIs t row 64 n → ReadyTile t e.toNat (128 * (n + 1)) tile →
        SoundLines t t.c (tile.base + 128 * n) 128 →
        exec (.mshiftt g f acc e row xa xb ovr) s =
          gives (wait tile (128 * n) 128) (bytes tile (128 * n) 128)) ∧
    (∀ (f : Fmt) (acc : AccRef) (vs : VSrc) (row : MRow) (ovr : Bool) (m n : Nat) (u : State) (v : VBits),
      RowOfAcc t acc m → RowIs t row 4 n → t.readVs [vs] = .ok (u, [v]) →
        exec (.maddv g f acc vs row ovr) s = later u 72 (.acc m (f == .i32) ovr (v.extractLsb' (2048 * n) 2048))) ∧
    (∀ (acc : AccRef) (m : Nat), RowOfAcc t acc m → exec (.mzero g acc) s = .next (t.putAcc m 0)) ∧
    (∀ (f : Fmt) (acc : AccRef) (vd : BitVec 11) (row : MRow) (rm : RM) (sat : Bool) (m n : Nat),
      RowOfAcc t acc m → RowIs t row (drainUnits f) n → (3, m) ∉ t.core.bad → ∃ w,
        exec (.mdrain g f acc vd row rm sat) s = .next (t.putV vd.toNat w) ∧
        exec (.mdrainz g f acc vd row rm sat) s = .next ((t.putV vd.toNat w).putAcc m 0) ∧
        ∀ e, e < fmtCount f → elem f w e =
          if 64 * n ≤ e ∧ e < 64 * (n + 1) then drainVal f rm sat (rowVal (t.accRow m) (e - 64 * n)) % 2 ^ fmtWidth f
          else elem f (t.vregNow vd.toNat) e) ∧
    ∀ (f : MFmt) (h : Fmt) (acc : AccRef) (vs : VSrc) (vd : BitVec 11) (e : BitVec 6) (xa xb : BitVec 4) (rm : RM)
        (sat ovr : Bool) (i : Instr) (limit : Nat),
      (i, limit) ∈ [(Instr.mpush g f vs .i0, 8), (.mpusht g f e .i0, 8), (.mshift g f acc vs .i0 xa xb ovr, 8),
        (.mshiftl g f acc .i0 xa xb ovr, 64), (.mshiftt g f acc e .i0 xa xb ovr, 64), (.maddv g h acc vs .i0 ovr, 4),
        (.mdrain g h acc vd .i0 rm sat, drainUnits h), (.mdrainz g h acc vd .i0 rm sat, drainUnits h)] →
      limit ≤ (t.scalar (.i 0)).toNat → exec i s = .next (s.raise (preciseTrap .lsrange 0 (t.scalar (.i 0))))

/-- O15. Column c of an INT8 beat is the exact sum of the products modulo 2 to the 32; of a floating-point beat it is
one rounding in RNE of the exact sum over blocks of 32 exact products, each block scaled by its two scale bytes in a
scaled format and NaN where one of them is 0xFF; a drain keeps FP32 and I32 bits, clamps or cuts to I16, and rounds
once to any other format. (R83, R84, R210, R213) -/
def Obligations.BeatArithmetic : Prop :=
  (∀ (f : MFmt) (a : Nat) (plane : Nat → VBits) (xa xb : XBits) (row c : Nat), c < 64 →
    let n := 1024 / fmtWidth (sideA f)
    let av := fun k => (BitVec.ofNat 1024 a).toNat / 2 ^ (fmtWidth (sideA f) * k) % 2 ^ fmtWidth (sideA f)
    let bv := fun k => elem (sideB f) (plane ((64 * k + c) / fmtCount (sideB f))) ((64 * k + c) % fmtCount (sideB f))
    let product := fun k => xmul (floatVal (sideA f) (av k)) (floatVal (sideB f) (bv k))
    let block := fun b => xsum .rne ((List.range 32).map fun k => product (32 * b + k))
    let sa := fun b => (xa.extractLsb' (8 * (8 * (row % 64) + b)) 8).toNat
    let sb := fun b => (xb.extractLsb' (8 * (64 * b + c)) 8).toNat
    (f = .i8 → rowVal (beat f (BitVec.ofNat 1024 a).toNat plane xa xb row) c =
      (((List.range n).map fun k => (BitVec.ofNat 8 (av k)).toInt * (BitVec.ofNat 8 (bv k)).toInt).sum % 2 ^ 32).toNat) ∧
    (f ≠ .i8 → mfmtScaled f = false → rowVal (beat f (BitVec.ofNat 1024 a).toNat plane xa xb row) c =
      round .f32 .rne false (xsum .rne ((List.range (n / 32)).map block)) % 2 ^ 32) ∧
    (mfmtScaled f = true → rowVal (beat f (BitVec.ofNat 1024 a).toNat plane xa xb row) c =
      round .f32 .rne false (xsum .rne ((List.range (n / 32)).map fun b =>
        if sa b = 0xFF ∨ sb b = 0xFF then .nan else xscale ((sa b : Int) - 127 + ((sb b : Int) - 127)) (block b))) % 2 ^ 32)) ∧
  ∀ (rm : RM) (sat : Bool) (c : BitVec 32),
    drainVal .f32 rm sat c.toNat = c.toNat ∧ drainVal .i32 rm sat c.toNat = c.toNat ∧
    drainVal .i16 rm false c.toNat = c.toNat % 2 ^ 16 ∧
    drainVal .i16 rm true c.toNat =
      (if c.toInt < -2 ^ 15 then 0x8000 else if 2 ^ 15 ≤ c.toInt then 0x7FFF else c.toNat % 2 ^ 16) ∧
    ∀ f, f ∈ [Fmt.bf16, .f16, .e4m3, .e5m2, .e2m1] → drainVal f rm sat c.toNat = round f rm sat (floatVal .f32 c.toNat)

/-- O16. In a plain local range, under a true guard and, for the strided and indexed stores, with no tile fill or drain
of the core under way or to come: LDS writes the extended bytes to its register, VLD the first bytes of vD, VLDS and
VLDX one element for each address into vD; STS, VST, VSTS and VSTX store exactly the bytes of their source at their
addresses, element by element in ascending order; ATOML leaves the result in the element and the old value in its
register. There must be room for its lines among the core's requests. Each uses the banks of its lines and stays in flight
for 6 cycles, or 14 in a neighbour's store, and a load's result is delivered late by the earlier accesses of the cycle
to one of its banks (log 116); that use and that delay change nothing but bank, flight and delivery times. (R215, R216, R221,
R222, R223, R225, R227, R285, R287) -/
def Obligations.LocalAccesses : Prop :=
  (∀ (s : State) (a : Word) (n : Nat), let t := s.touchAt a n
    t = { s with cores := t.cores } ∧
    (∀ m, t.coreAt m = { s.coreAt m with banks := (t.coreAt m).banks, inFlight := (t.coreAt m).inFlight }) ∧
    { till := s.now + (if localCore s a = s.c then 6 else 14), requests := lineCount a n,
      range := some (localCore s a, localOffset a, n) } ∈ t.core.inFlight) ∧
  (∀ (s : State) (z : Nat) (addrs : List Word), let t := s.touchAll z addrs
    t = { s with cores := t.cores } ∧
    ∀ m, t.coreAt m = { s.coreAt m with banks := (t.coreAt m).banks, inFlight := (t.coreAt m).inFlight }) ∧
  (∀ (s : State) (keys : List RegKey) (c : Nat), let t := s.lateBy keys c
    OnlyCore s t s.c ∧ t.core = { s.core with issue := { s.core.issue with board := t.core.issue.board } }) ∧
  ∀ (s : State) (g : Guard) (ab : BitVec 5) (sa sd sv : SReg) (off : BitVec 20) (vd vx : BitVec 11),
    s.guard g = true → MayAccess s →
    let a := s.areg ab + s.scalar sa + off.signExtend 64
    let seen := fun (a : Word) n => s.localBytes s.task.tag (localCore s a) (localOffset a) n
    let put := fun (t : State) (a : Word) bs =>
      t.localPutSpan s.task.tag (localCore s a) (localOffset a) bs (bs.length / 64 + 2)
    let room := fun (a : Word) n => Room s (lineCount a n)
    let data := s.vreg vd.toNat
    let strided := fun (e : Nat) => s.areg ab + off.signExtend 64 + BitVec.ofNat 64 e * s.scalar sa
    let indexed := fun (z e : Nat) => s.areg ab + s.scalar sa + BitVec.ofNat 64 (elem .i32 (s.vreg vx.toNat) e * z)
    (∀ (w : BitVec 2) (sx : Bool), let z := 2 ^ w.toNat
      (PlainLocal s a z z false → room a z → exec (.lds g w sx sd ab sa off) s = .next (((s.touchAt a z).putScalar sd
        (let v := BitVec.ofNat (8 * z) (ofBytes (seen a z)); if sx then v.signExtend 64 else v.setWidth 64)).lateBy
          (scalarKey sd) (bankWait s a z))) ∧
      (PlainLocal s a z z true → room a z →
        exec (.sts g w sv ab sa off) s = .next ((put s a (toBytes z (s.scalar sv).toNat)).touchAt a z))) ∧
    (∀ len : BitVec 3, len.toNat ≤ 4 → let n := 1024 / 2 ^ len.toNat
      (PlainLocal s a n 64 false → room a n → ∃ w, exec (.vld g len vd ab sa off) s =
          .next (((s.touchAt a n).putV vd.toNat w).lateBy [.v vd.toNat] (bankWait s a n)) ∧
        ∀ i, i < 1024 → w.extractLsb' (8 * i) 8 =
          if i < n then (seen a n).getD i 0 else (s.vregNow vd.toNat).extractLsb' (8 * i) 8) ∧
      (PlainLocal s a n 64 true → room a n → (2, vd.toNat) ∉ s.core.bad →
        exec (.vst g len vd ab sa off) s = .next ((put s a (toBytes n data.toNat)).touchAt a n))) ∧
    (∀ (w : BitVec 2), let z := 2 ^ w.toNat
      let lines := fun (at_ : Nat → Word) => ((((List.range (1024 / z)).map at_).map fun a => a.toNat / 64).eraseDups).length
      let loads := fun (i : Instr) (at_ : Nat → Word) =>
        (∀ e, e < 1024 / z → PlainLocal s (at_ e) z z false) → Room s (lines at_) → ∃ v c, exec i s =
            .next (((s.touchAll z ((List.range (1024 / z)).map at_)).putV vd.toNat v).lateBy [.v vd.toNat] c) ∧
          (∀ e, e < 1024 / z → bankWait s (at_ e) z ≤ c) ∧ (c ≠ 0 → ∃ e, e < 1024 / z ∧ c = bankWait s (at_ e) z) ∧
          ∀ e i, e < 1024 / z → i < z → v.extractLsb' (8 * (z * e + i)) 8 = (seen (at_ e) z).getD i 0
      let stores := fun (i : Instr) (at_ : Nat → Word) =>
        (∀ e, e < 1024 / z → PlainLocal s (at_ e) z z true) → Room s (lines at_) → QuietTiles s → (2, vd.toNat) ∉ s.core.bad →
          exec i s = .next (((List.range (1024 / z)).foldl
            (fun t e => put t (at_ e) (toBytes z (data.toNat / 2 ^ (8 * z * e)))) s).touchAll z ((List.range (1024 / z)).map at_))
      loads (.vlds g w vd ab off sa) strided ∧ stores (.vsts g w vd ab off sa) strided ∧
      (2 ≤ w.toNat → (2, vx.toNat) ∉ s.core.bad →
        loads (.vldx g w vd ab sa vx) (indexed z) ∧ stores (.vstx g w vd ab sa vx) (indexed z))) ∧
    ∀ (op : AtomOp) (f : Fmt), f ∈ [Fmt.i32, .i64, .f32] → let z := fmtWidth f / 8
      PlainLocal s a z z false → PlainLocal s a z z true → Room s 1 →
        let m := ofBytes (seen a z)
        let cut := fun r => (s.scalar r).toNat % 2 ^ fmtWidth f
        exec (.atoml g op f sd ab sa off) s =
          .next ((((put s a (toBytes z (atomNew op f m (cut sd) (cut (nextReg sd))))).touchAt a z).putScalar sd
            (atomOld f m)).lateBy (scalarKey sd) (bankWait s a z))

/-- O17. After bytes have been stored to a range of a core's store under a tag that lands, a read under that tag of
any byte of any core's store gives the stored byte inside the range and what it gave before outside; every 64-byte
line that the range touches carries the tag; memory outside those lines and every register is unchanged. (R222) -/
def Obligations.LocalStoreBytes : Prop :=
  ∀ (s : State) (tag : Tag) (n off : Nat) (bs : List Byte), s.lands tag = true → n < 256 → off + bs.length ≤ 2 ^ 20 →
    let t := s.localPutSpan tag n off bs (bs.length / 64 + 2)
    (∀ m o, m < 256 → o < 2 ^ 20 → t.localBytes tag m o 1 =
      if m = n ∧ off ≤ o ∧ o < off + bs.length then [bs.getD (o - off) 0] else s.localBytes tag m o 1) ∧
    (∀ o, off ≤ o → o < off + bs.length → SMap.get nullTag t.tags (localAddr n o / 64) = tag) ∧
    (∀ a, (∀ o, off ≤ o → o < off + bs.length → a / 64 ≠ localAddr n o / 64) →
      t.rawByte a = s.rawByte a ∧ SMap.get nullTag t.tags (a / 64) = SMap.get nullTag s.tags (a / 64)) ∧
    t = { s with cores := t.cores, mem := t.mem, tags := t.tags } ∧
    ∀ m, t.coreAt m = { s.coreAt m with bad := (t.coreAt m).bad }

/-- O18. Under a true guard a local scalar access, a contiguous vector access or an atomic traps ALIGN where its address
is not a multiple of its alignment, else LSRANGE where the address is 2 to the 22 or more or the range leaves the
scratchpad of the member that it names; each trap's address and information are the address. A strided or indexed access
traps so for the lowest of its elements that fails, where those below lie in no stash range. (R215, R217, R223) -/
def Obligations.LocalChecks : Prop :=
  ∀ (s : State) (g : Guard) (ab : BitVec 5) (sa sd : SReg) (off : BitVec 20) (vd vx : BitVec 11) (w : BitVec 2)
      (len : BitVec 3) (sx : Bool), s.guard g = true → MayAccess s →
    let fails := fun (a : Word) (size align : Nat) (i : Instr) =>
      (a.toNat % align ≠ 0 → exec i s = .next (s.raise (preciseTrap .align a a))) ∧
      (a.toNat % align = 0 → 2 ^ 22 ≤ a.toNat → exec i s = .next (s.raise (preciseTrap .lsrange a a))) ∧
      (a.toNat % align = 0 → a.toNat < 2 ^ 22 → (localCore s a ≠ s.c → (s.coreAt (localCore s a)).splitBusy = false) →
        (s.coreAt (localCore s a)).scr * 2 ^ 16 < localOffset a + size →
        exec i s = .next (s.raise (preciseTrap .lsrange a a)))
    let a := s.areg ab + s.scalar sa + off.signExtend 64
    let z := 2 ^ w.toNat
    let n := 1024 / 2 ^ len.toNat
    (∀ i size align, (i, size, align) ∈ [(Instr.lds g w sx sd ab sa off, z, z), (.sts g w sd ab sa off, z, z),
      (.vld g len vd ab sa off, n, 64)] → fails a size align i) ∧
    ((2, vd.toNat) ∉ s.core.bad → fails a n 64 (.vst g len vd ab sa off)) ∧
    (∀ (op : AtomOp) (f : Fmt), f ∈ [Fmt.i32, .i64, .f32] →
      fails a (fmtWidth f / 8) (fmtWidth f / 8) (.atoml g op f sd ab sa off)) ∧
    let strided := fun (e : Nat) => s.areg ab + off.signExtend 64 + BitVec.ofNat 64 e * s.scalar sa
    let indexed := fun (e : Nat) => s.areg ab + s.scalar sa + BitVec.ofNat 64 (elem .i32 (s.vreg vx.toNat) e * z)
    let passes := fun (a : Word) => a.toNat % z = 0 ∧ a.toNat < 2 ^ 22 ∧
      (localCore s a ≠ s.c → (s.coreAt (localCore s a)).splitBusy = false) ∧
      localOffset a + z ≤ (s.coreAt (localCore s a)).scr * 2 ^ 16 ∧ s.stashSectors (localCore s a) (localOffset a) z = []
    let lowest := fun (at_ : Nat → Word) (i : Instr) =>
      ∀ e, e < 1024 / z → (∀ j, j < e → passes (at_ j)) → fails (at_ e) z z i
    lowest strided (.vlds g w vd ab off sa) ∧
    ((2, vd.toNat) ∉ s.core.bad → lowest strided (.vsts g w vd ab off sa)) ∧
    (2 ≤ w.toNat → (2, vx.toNat) ∉ s.core.bad → lowest indexed (.vldx g w vd ab sa vx) ∧
      ((2, vd.toNat) ∉ s.core.bad → lowest indexed (.vstx g w vd ab sa vx)))

/-- O19. For I32 and I64 elements the operations give the sum modulo 2 to the width, the signed minimum and maximum,
and, or, the operand, and for CAS the new value where memory equals the comparand; for F32 the sum rounded once in
RNE; the register takes the old value, sign-extended from I32, zero-extended from F32 and whole from I64. (R227) -/
def Obligations.AtomicValues : Prop :=
  (∀ (f : Fmt) (w : Nat) (m v n : BitVec w), (f = .i32 ∧ w = 32) ∨ (f = .i64 ∧ w = 64) →
    atomNew .add f m.toNat v.toNat n.toNat = (m + v).toNat ∧
    atomNew .min f m.toNat v.toNat n.toNat = (if v.slt m then v else m).toNat ∧
    atomNew .max f m.toNat v.toNat n.toNat = (if m.slt v then v else m).toNat ∧
    atomNew .and f m.toNat v.toNat n.toNat = (m &&& v).toNat ∧
    atomNew .or f m.toNat v.toNat n.toNat = (m ||| v).toNat ∧
    atomNew .xchg f m.toNat v.toNat n.toNat = v.toNat ∧
    atomNew .cas f m.toNat v.toNat n.toNat = (if m = v then n else m).toNat ∧
    atomOld f m.toNat = m.signExtend 64) ∧
  ∀ (m v n : Nat), atomNew .add .f32 m v n = round .f32 .rne false (xadd .rne (floatVal .f32 m) (floatVal .f32 v)) ∧
    (m < 2 ^ 32 → atomOld .f32 m = BitVec.ofNat 64 m)

/-- O20. Under a true guard, in order and with room among the core's requests: LDG and VLDG read their lines in
ascending order, a line of an absent soft page as zero where a residency predicate is named, and their data leaves for
the destination with the lanes that pR keeps and the first poisoned line met; GATHR does the same for each of its
rows, a local row taking 6 cycles or 14 and what earlier accesses of the cycle to its banks add (log 116), and reading its
value when it issues (log 7); a misaligned address of LDG or VLDG traps ALIGN, and a first line that cannot be read traps as
its translation says, but for an absent page that a residency predicate takes. (R218, R219, R220, R221, R224, R226, R285) -/
def Obligations.GlobalLoads : Prop :=
  ∀ (s : State) (g : Guard) (ab : BitVec 5) (sa sd : SReg) (off : BitVec 20) (vd : BitVec 11) (pr : BitVec 4),
    s.guard g = true → MayAccess s →
    let a := s.areg ab + s.scalar sa + off.signExtend 64
    let free := fun (n : Nat) =>
      s.mustWait { glob := true, lo := a.toNat, hi := a.toNat + n } false = false ∧ Room s ((n + 63) / 64)
    let hard := fun (code : Nat) (soft : Bool) => ¬(code = 1 ∧ soft = true ∧ pr ≠ 0)
    let xlate := fun (code level : Nat) => preciseTrap .xlate a (BitVec.ofNat 64 (xlateInfo .read code level false))
    (∀ (w : BitVec 2) (sx : Bool), let z := 2 ^ w.toNat
      (a.toNat % z ≠ 0 → exec (.ldg g w sx sd ab sa off pr) s = .next (s.raise (preciseTrap .align a a))) ∧
      (a.toNat % z = 0 → free z → ∀ code level soft entry, hard code soft →
        s.readAt s.agent a.toNat z .read .plain = .error (.fault code level soft entry) →
        exec (.ldg g w sx sd ab sa off pr) s = .next (s.raise (xlate code level))) ∧
      ∀ t bs absent poison, a.toNat % z = 0 → free z → LineRead s a.toNat z (pr != 0) t bs absent poison →
        let v := BitVec.ofNat (8 * z) (ofBytes bs)
        exec (.ldg g w sx sd ab sa off pr) s = .next (loadLeaves t (.scalar sd)
          ((if sx then v.signExtend 64 else v.setWidth 64).setWidth 8192) pr
          (if absent then ~~~ 1 else BitVec.allOnes 256) (if poison then some (BitVec.ofNat 64 (lineOf a.toNat)) else none))) ∧
    (∀ len : BitVec 3, len.toNat ≤ 4 → let n := 16 / 2 ^ len.toNat
      (a.toNat % 64 ≠ 0 → exec (.vldg g len vd ab sa off pr) s = .next (s.raise (preciseTrap .align a a))) ∧
      (a.toNat % 64 = 0 → free (64 * n) → ∀ code level soft entry, hard code soft →
        s.readAt s.agent a.toNat 64 .read .plain = .error (.fault code level soft entry) →
        exec (.vldg g len vd ab sa off pr) s = .next (s.raise (xlate code level))) ∧
      ∀ (f : Nat → State) (bs : Nat → List Byte) (absent poison : Nat → Bool), f 0 = s → a.toNat % 64 = 0 → free (64 * n) →
        (∀ i, i < n → LineRead (f i) (a.toNat + 64 * i) 64 (pr != 0) (f (i + 1)) (bs i) (absent i) (poison i)) →
        ∃ w keep, exec (.vldg g len vd ab sa off pr) s = .next (loadLeaves (f n) (.vector vd.toNat (64 * n)) w pr keep
            (((List.range n).find? poison).map fun i => BitVec.ofNat 64 (lineOf (a.toNat + 64 * i)))) ∧
          (∀ i j, i < n → j < 64 → w.extractLsb' (8 * (64 * i + j)) 8 = (bs i).getD j 0) ∧
          ∀ l, l < 256 → keep.getLsbD l = !(decide (l < 16 * n) && absent (l / 16))) ∧
    (∀ (res : Bool) (f6 : BitVec 6) (cnt : BitVec 7) (vx : BitVec 11) (f : Nat → State), f 0 = s →
      (2, vx.toNat) ∉ s.core.bad → Room s (2 * (cnt.toNat + 1)) →
      let row := fun j => s.areg ab + BitVec.ofNat 64 (elem .i32 (s.vreg vx.toNat) j) * s.scalar sa
      (∀ j, j ≤ cnt.toNat →
        (f j).gatherRow true (res && pr != 0) ((f6.toNat + j) % 64) j (row j) pr (bankWait s (row j) 128) =
          .ok (f (j + 1))) →
      exec (.gathr g true res vx ab sa f6 cnt pr) s = .next (f (cnt.toNat + 1))) ∧
    (∀ (res : Bool) (f6 : BitVec 6) (cnt : BitVec 7) (vx : BitVec 11),
      (2, vx.toNat) ∉ s.core.bad → Room s (2 * (cnt.toNat + 1)) → QuietTiles s →
      let row := fun j => s.areg ab + BitVec.ofNat 64 (elem .i32 (s.vreg vx.toNat) j) * s.scalar sa
      (∀ j, j ≤ cnt.toNat → PlainLocal s (row j) 128 64 false) →
      let late := fun (j : Nat) => (if localCore s (row j) = s.c then 6 else 14) + bankWait s (row j) 128
      let leaves : Nat → Load := fun j => {
        ctx := s.x, due := s.now + late j,
        dest := .latch ((f6.toNat + j) % 64),
        data := BitVec.ofNat 8192 (ofBytes (s.localBytes s.task.tag (localCore s (row j)) (localOffset (row j)) 128)),
        pr := 0, keep := BitVec.allOnes 256, poison := none, tag := s.task.tag }
      exec (.gathr g false res vx ab sa f6 cnt pr) s =
        .next ((List.range (cnt.toNat + 1)).foldl (fun t j =>
          let u := t.touch (localCore s (row j)) (localOffset (row j)) 128 0 (late j)
          u.setCore { u.core with loads := u.core.loads ++ [leaves j] }) s))

/-- O21. Under a true guard, in order and with room among the core's requests, STG and VSTG write the bytes of their
source line by line in ascending order, each as a write of the task at its address, and their requests stay outstanding
for a free latency; a misaligned address traps ALIGN, and a first line that cannot be written traps as its translation
says. (R218, R221, R226, R309) -/
def Obligations.GlobalStores : Prop :=
  ∀ (s : State) (g : Guard) (ab : BitVec 5) (sa sv : SReg) (off : BitVec 20) (vd : BitVec 11),
    s.guard g = true → MayAccess s →
    let a := s.areg ab + s.scalar sa + off.signExtend 64
    let free := fun (n : Nat) =>
      s.mustWait { glob := true, lo := a.toNat, hi := a.toNat + n } true = false ∧ Room s ((n + 63) / 64)
    (∀ (w : BitVec 2), let z := 2 ^ w.toNat
      let bytes := toBytes z (s.scalar sv).toNat
      (a.toNat % z ≠ 0 → exec (.stg g w sv ab sa off) s = .next (s.raise (preciseTrap .align a a))) ∧
      (a.toNat % z = 0 → free z → ∀ t, s.writeAt s.agent a.toNat bytes = .ok t →
        exec (.stg g w sv ab sa off) s = .next (requestsLeave (State.noteWalk s t a.toNat) 1)) ∧
      (a.toNat % z = 0 → free z → ∀ code level soft entry,
        s.writeAt s.agent a.toNat bytes = .error (.fault code level soft entry) →
        exec (.stg g w sv ab sa off) s =
          .next (s.raise (preciseTrap .xlate a (BitVec.ofNat 64 (xlateInfo .write code level false)))))) ∧
    ∀ len : BitVec 3, len.toNat ≤ 4 → let n := 16 / 2 ^ len.toNat
      (2, vd.toNat) ∉ s.core.bad →
      (a.toNat % 64 ≠ 0 → exec (.vstg g len vd ab sa off) s = .next (s.raise (preciseTrap .align a a))) ∧
      (a.toNat % 64 = 0 → free (64 * n) → ∀ code level soft entry,
        s.writeAt s.agent a.toNat (toBytes 64 (s.vreg vd.toNat).toNat) = .error (.fault code level soft entry) →
        exec (.vstg g len vd ab sa off) s =
          .next (s.raise (preciseTrap .xlate a (BitVec.ofNat 64 (xlateInfo .write code level false))))) ∧
      (a.toNat % 64 = 0 → free (64 * n) → ∀ f : Nat → State, f 0 = s → (∀ i, i < n → ∃ u,
          (f i).writeAt (f i).agent (a.toNat + 64 * i) (toBytes 64 ((s.vreg vd.toNat).toNat / 2 ^ (512 * i))) = .ok u ∧
          f (i + 1) = State.noteWalk (f i) u (a.toNat + 64 * i)) →
        exec (.vstg g len vd ab sa off) s = .next (requestsLeave (f n) n))

/-- O22. A write of bytes within one frame line that no stash holds, by a partition that may allocate in no way, or
whose ways hold the line, under a tag that lands and with the undo log off, leaves the line with those bytes under that
tag (the rest of it zero where another tag held it), and every other frame line that no stash holds and every byte
below the caches outside the line as it was; under a tag that does not land nothing changes but the count of dropped
operations. (R14, R299, R311, R380, R388) -/
def Obligations.GlobalStoreBytes : Prop :=
  ∀ (s : State) (p : Nat) (tag : Tag) (pa va : Nat) (o : Option Nat) (bs : List Byte), pa % 64 + bs.length ≤ 64 →
    let d := dieOf pa
    let x := s.line (.frame pa o)
    (s.lands tag = false → s.writePart p tag (.frame pa o) va bs = .ok (s.countDrop tag)) ∧
    (s.lands tag = true → s.copiesOf (lineOf pa) = [] → s.stackFailedAt (.frame pa o) = false → x.poison = false → s.field (partReg p 0xE8) 0 0 = 0 →
      (s.field (dcpReg d p) 15 0 = 0 ∨
        ∃ c, (s.die d).find (lineOf pa) = some c ∧ (s.field (dcpReg d p) 15 0).testBit c.way = true) →
      ∃ t, s.writePart p tag (.frame pa o) va bs = .ok t ∧
        (t.line (.frame pa o)).tag = tag ∧ (t.line (.frame pa o)).poison = false ∧
        (∀ i, i < 64 → (t.line (.frame pa o)).data.extractLsb' (8 * i) 8 =
          if pa % 64 ≤ i ∧ i < pa % 64 + bs.length then bs.getD (i - pa % 64) 0
          else if x.tag = tag then x.data.extractLsb' (8 * i) 8 else 0) ∧
        (∀ pb ob, lineOf pb ≠ lineOf pa → s.copiesOf (lineOf pb) = [] →
          t.line (.frame pb ob) = s.line (.frame pb ob)) ∧
        ∀ b, lineOf b ≠ lineOf pa → t.rawByte b = s.rawByte b)

/-- O23. Under a true guard, in order, aligned and with room among the core's requests, ATOMG and WATOM read their
element under the tag rule, write the result at the die cache or beneath every cache, and the old value leaves for the
register; a poisoned line is left as it is, zero comes back, the poison is noted for a trap and a record of class 6 made, by
the die for ATOMG and by the wellhead for WATOM (log 103); WATOMR translates its whole region at issue and leaves one job
with the region as its write footprint, its requests staying outstanding for a free latency. (R221, R227, R228, R306, R307) -/
def Obligations.GlobalAtomics : Prop :=
  ∀ (s : State) (g : Guard) (op : AtomOp) (f : Fmt) (ab : BitVec 5) (sa sd : SReg) (off : BitVec 20) (vd : BitVec 11),
    s.guard g = true → MayAccess s →
    let a := s.areg ab + s.scalar sa + off.signExtend 64
    let z := fmtWidth f / 8
    let cut := fun r => (s.scalar r).toNat % 2 ^ fmtWidth f
    (f ∈ [Fmt.i32, .i64, .f32] → a.toNat % z = 0 →
      s.mustWait { glob := true, lo := a.toNat, hi := a.toNat + z } true = false → s.core.requests s.now < 4096 →
      ∀ u x l, let t := State.noteWalk s u a.toNat
        let m := ofBytes (t.seenBytes t.task.tag l x (a.toNat % 64) z)
        let new := toBytes z (atomNew op f m (cut sd) (cut (nextReg sd)))
        let back := fun (r : State) (poison : Option Word) => Host.Outcome.next
          (r.startLoad (.scalar sd) ((atomOld f m).setWidth 8192) 0 (BitVec.allOnes 256) poison (Config.memLatency t.fresh))
        let t1 := { t with fresh := t.fresh + 1 }
        let bad := some (BitVec.ofNat 64 (lineOf a.toNat))
        (s.readAt s.agent a.toNat z .atomic .atomg = .ok (u, x, l) →
          (x.poison = false → ∀ r, t1.putPart t1.agent l a.toNat new = .ok r →
            exec (.atomg g op f sd ab sa off) s = back r none) ∧
          (x.poison = true → exec (.atomg g op f sd ab sa off) s =
            back (t1.logError 6 1 false 2 l.home (2 ^ t1.part) (lineOf a.toNat) 2) bad)) ∧
        (s.readAt s.agent a.toNat z .atomic .special = .ok (u, x, l) →
          (x.poison = false → ∀ r pa, t1.giveUpLine l = .ok (r, pa) → exec (.watom g op f sd ab sa off) s =
            back (r.wellheadPut r.part r.task.tag l pa (a.toNat % 64) new) none) ∧
          (x.poison = true → exec (.watom g op f sd ab sa off) s =
            back (t1.logError 6 1 false 3 (stackOf l.addr) (2 ^ t1.part) (lineOf a.toNat) 2) bad))) ∧
    let n := if f = .bf16 then 32 else 16
    (a.toNat % 64 = 0 → (2, vd.toNat) ∉ s.core.bad →
      s.mustWait { glob := true, lo := a.toNat, hi := a.toNat + ((64 * n : Nat) : Int) } true = false → Room s n →
      ∀ (h : Nat → State) (ls : Nat → Loc), h 0 = s → (∀ i, i < n → ∃ u,
          (h i).translate (h i).agent (a.toNat + 64 * i) .atomic .special = .ok (u, ls i) ∧
          h (i + 1) = State.noteWalk (h i) u (a.toNat + 64 * i)) →
        let t := requestsLeave (h n) n
        exec (.watomr g op f vd ab sa off) s = .next (t.setCore { t.core with
          issuedJobs := t.core.issuedJobs + 1,
          jobs := t.core.jobs ++ [{ what := .reduce op f ((List.range n).map ls) (s.vreg vd.toNat) a.toNat, ctx := t.x,
                                    tag := t.task.tag, launch := t.task.launch, glob := true, lo := a.toNat,
                                    hi := a.toNat + 64 * n, order := t.core.issuedJobs }] }))

/-- O24. Under a true guard PGREQ has no effect on a valid entry, else arms a monitor on the entry's line and posts a
request for the access that .W chooses, and traps XLATE with fault 3 beyond the address space; CDISC and CFLUSH leave
one job over their range where alignment, length and every page's permission are right, and trap ALIGN, LSRANGE or, at a
first page that faults, XLATE where they are not. (R218, R229, R230, R235) -/
def Obligations.PageRequestsAndRangeJobs : Prop :=
  ∀ (s : State) (g : Guard) (ab : BitVec 5) (sa : SReg) (off : BitVec 20), s.guard g = true → MayAccess s →
    (∀ wr : Bool,
      let a := s.areg ab + s.scalar sa + off.signExtend 64
      (2 ^ 55 ≤ a.toNat → exec (.pgreq g wr ab sa off) s =
        .next (s.raise (preciseTrap .xlate a (BitVec.ofNat 64 (xlateInfo .read 3 0 false))))) ∧
      ∀ w, a.toNat < 2 ^ 55 → s.walk s.part a.toNat = .ok w →
        (s.entryValid s.part w.level w.entry = true → exec (.pgreq g wr ab sa off) s = .next s) ∧
        (s.entryValid s.part w.level w.entry = false → ∀ u t, s.armMonitor w.slot = .ok u →
          u.post u.part { page := a.toNat / 2 ^ 16, die := u.c / 32, kind := 1, detail := if wr then 1 else 0 } = some t →
          exec (.pgreq g wr ab sa off) s = .next t)) ∧
    let a := s.areg ab + off.signExtend 64
    let len := s.scalar sa
    let job := fun (what : JobWhat) => Host.Outcome.next (s.setCore { s.core with
      issuedJobs := s.core.issuedJobs + 1,
      jobs := s.core.jobs ++ [{ what := what, ctx := s.x, tag := s.task.tag, launch := s.task.launch, glob := true,
                                lo := a.toNat, hi := a.toNat + len.toNat, order := s.core.issuedJobs }] })
    let pages := fun (acc : Access) => ∀ va, a.toNat ≤ va → va < a.toNat + len.toNat → (va = a.toNat ∨ va % 2 ^ 16 = 0) →
      ∃ r, s.translate s.agent va acc .plain = .ok r
    (a.toNat % 64 = 0 → len.toNat % 64 = 0 → len ≠ 0 → len.toNat < 2 ^ 32 → pages .write →
      exec (.cdisc g ab off sa) s = job (.discard a.toNat len.toNat)) ∧
    (∀ inv, a.toNat % 64 = 0 → len.toNat % 64 = 0 → len ≠ 0 → len.toNat < 2 ^ 32 → pages .read →
      exec (.cflush g inv ab off sa) s = job (.flush a.toNat len.toNat inv)) ∧
    ∀ (inv : Bool) (i : Instr) (acc : Access), (i, acc) ∈ [(Instr.cdisc g ab off sa, .write), (.cflush g inv ab off sa, .read)] →
      (a.toNat % 64 ≠ 0 → exec i s = .next (s.raise (preciseTrap .align a a))) ∧
      (a.toNat % 64 = 0 → (len = 0 ∨ len.toNat % 64 ≠ 0 ∨ 2 ^ 32 ≤ len.toNat) →
        exec i s = .next (s.raise (preciseTrap .lsrange 0 len))) ∧
      (a.toNat % 64 = 0 → len.toNat % 64 = 0 → len ≠ 0 → len.toNat < 2 ^ 32 → ∀ code level soft entry,
        s.translate s.agent a.toNat acc .plain = .error (.fault code level soft entry) →
        exec i s = .next (s.raise (preciseTrap .xlate a (BitVec.ofNat 64 (xlateInfo acc code level false)))))

/-- O25. Under a true guard SMAP makes its checks in order (LSRANGE for the base, the size, a range outside the
scratchpad and an overlap, ALIGN for the global base), writes the entry's dirty sectors back, once no earlier job of the task
meets its ranges, and maps the range with every sector unfilled; SUNMAP and SFLUSH leave a write-back job, SDISC drops sectors and a recorded fault; the last
three have no effect on an inactive entry. The order of the checks is the model's reading (log 35). (R7, R231, R288,
R290) -/
def Obligations.StashInstructions : Prop :=
  ∀ (s : State) (g : Guard) (e : BitVec 4), s.guard g = true → MayAccess s →
    let x := s.core.stashEntry e.toNat
    (∀ (ab : BitVec 5) (off : BitVec 20) (sg sz : SReg),
      let i := Instr.smap g e ab off sg sz
      let a := s.areg ab + off.signExtend 64
      let size := s.scalar sz
      let glob := s.scalar sg
      let baseOk := a.toNat % 1024 = 0 ∧ a.toNat < 2 ^ 22
      let sizeOk := size.toNat % 1024 = 0 ∧ size ≠ 0
      let free := localCore s a = s.c ∨ (s.coreAt (localCore s a)).splitBusy = false
      let fits := localOffset a + size.toNat ≤ (s.coreAt (localCore s a)).scr * 2 ^ 16
      let meets := fun (m f : Nat) (y : Stash) => m < 4 ∧ (f, y) ∈ (s.coreAt (quadOf s.c * 4 + m)).stash ∧ y.active = true ∧
        ¬(quadOf s.c * 4 + m = s.c ∧ f = e.toNat) ∧ y.base < a.toNat + size.toNat ∧ a.toNat < y.base + y.size
      (¬baseOk → exec i s = .next (s.raise (preciseTrap .lsrange a a))) ∧
      (baseOk → ¬sizeOk → exec i s = .next (s.raise (preciseTrap .lsrange a size))) ∧
      (baseOk → sizeOk → free → ¬fits → exec i s = .next (s.raise (preciseTrap .lsrange a a))) ∧
      (baseOk → sizeOk → free → fits → glob.toNat % 1024 ≠ 0 →
        exec i s = .next (s.raise (preciseTrap .align glob glob))) ∧
      (baseOk → sizeOk → free → fits → glob.toNat % 1024 = 0 → (∃ m f y, meets m f y) →
        ∃ m f y, meets m f y ∧ exec i s = .next (s.raise (preciseTrap .lsrange a (BitVec.ofNat 64 f)))) ∧
      (baseOk → sizeOk → free → fits → glob.toNat % 1024 = 0 → (∀ m f y, ¬meets m f y) →
        (∀ j, j ∈ s.core.jobs → ∀ rm, j.what ≠ .writeback e.toNat rm) → x.fault = none →
        (x.active = true → s.jobBlocked s.c s.x s.core.issuedJobs [{ glob := false, lo := x.base, hi := x.base + x.size }]
          [{ glob := true, lo := x.glob, hi := x.glob + x.size }] = false) →
        ∀ u, s.writebackAll s.c e.toNat = .ok u → (u.core.stashEntry e.toNat).fault = none →
          exec i s = .next (u.setCore (u.core.setStash e.toNat {
            active := true, base := a.toNat, size := size.toNat, glob := glob.toNat, tag := s.task.tag, sectors := [],
            fault := none })))) ∧
    (∀ remove : Bool, let i := if remove then Instr.sunmap g e else .sflush g e
      (x.active = false → exec i s = .next s) ∧
      (∀ info va, x.active = true → x.fault = some (info, va) →
        exec i s = .next (s.raise (preciseTrap .xlate va (BitVec.ofNat 64 info)))) ∧
      (x.active = true → x.fault = none → exec i s = .next (s.setCore { s.core with
        issuedJobs := s.core.issuedJobs + 1,
        jobs := s.core.jobs ++ [{ what := .writeback e.toNat remove, ctx := s.x, tag := s.task.tag, launch := s.task.launch,
                                  glob := true, lo := x.glob, hi := x.glob + x.size, order := s.core.issuedJobs }] }))) ∧
    (x.active = false → exec (.sdisc g e) s = .next s) ∧
    (x.active = true → (∀ j, j ∈ s.core.jobs → ∀ rm, j.what ≠ .writeback e.toNat rm) →
      exec (.sdisc g e) s = .next (s.setCore (s.core.setStash e.toNat { x with sectors := [], fault := none })))

/-- O26. Under a true guard a pump instruction on a channel that is not halted and has fewer than 16 jobs copies its
control block, queues a job under the channel's next identifier and gives that identifier to its register; on a halted
channel it traps SWTRAP with code 4; PSTAT reads done-below, PSTAT.ERR the status word, and PSTAT.CLR reads that word,
clears the halt with the jobs that have not begun, moves done-below past every job once none runs, and wakes the waiting
tasks. That the halt is looked at before the control block's address is log 37, what becomes of a running job and of
done-below log 57. (R236, R239, R240, R241, R243, R244)
-/
def Obligations.PumpInstructions : Prop :=
  ∀ (s : State) (g : Guard) (ch : BitVec 3) (sd : SReg), s.guard g = true → MayAccess s →
    let p := s.core.pump ch.toNat
    let status := BitVec.ofNat 64 ((if p.code = 0 then 0 else 1) + p.code.toNat * 2 ^ 8 + p.failId.toNat % 2 ^ 48 * 2 ^ 16)
    (∀ (ab : BitVec 5) (off : BitVec 20) (i : Instr) (kind : PumpKind),
      (i, kind) ∈ [(Instr.pcopy g ch ab off sd, .copy), (.pcopyt g ch ab off sd, .transpose), (.pcopyr g ch ab off sd, .reduce)] →
      let a := s.areg ab + off.signExtend 64
      (p.code ≠ 0 → exec i s = .next (s.raise (preciseTrap .swtrap 0 (BitVec.ofNat 64 (4 * 2 ^ 32 + ch.toNat * 2))))) ∧
      (p.code = 0 → a.toNat % 64 ≠ 0 → p.jobs.length < 16 → exec i s = .next (s.raise (preciseTrap .align a a))) ∧
      (p.code = 0 → p.jobs.length < 16 → PlainLocal s a 64 64 false →
        let job : PumpJob := {
          id := p.next, kind := kind, ccbAddr := a,
          ccb := bytesToLine (s.localBytes s.task.tag (localCore s a) (localOffset a) 64), tag := s.task.tag, ctx := s.x,
          launch := s.task.launch, issued := s.now, started := false, done := 0, order := s.core.issuedJobs }
        let q := { p with next := p.next + 1, jobs := p.jobs ++ [job] }
        let u := s.touchAt a 64
        exec i s = .next ((u.setCore { u.core.setPump ch.toNat q with issuedJobs := s.core.issuedJobs + 1 }).putScalar
          sd p.next))) ∧
    WritesScalar (.pstat g ch sd) s sd p.below ∧
    WritesScalar (.pstatErr g ch sd) s sd status ∧
    (∃ q : Pump, q.code = 0 ∧ q.failId = 0 ∧ q.next = p.next ∧
        q.jobs = (if p.code = 0 then (p.jobs.filter (·.started)).map fun j => { j with through := some p.next } else []) ∧
        q.below = (if q.jobs = [] then p.next else p.below) ∧
      exec (.pstatClr g ch sd) s =
        .next (((s.setCore (s.core.setPump ch.toNat q)).putScalar sd status).wakeWaitx s.c ch.toNat))

/-- O27. Under a true guard TBIND binds an empty entry (and its pair) to its range, coordinates and level under the
task's tag, and raises the first fills where its level is active; TFILL raises a fill, TDRAIN a drain of a ready
entry, TFREE empties and unbinds, and TSTATE reads the entry's word, with another tenancy's entry as empty; an entry
not empty, bound, busy or not ready traps TILEBIND as the table says. What TFREE leaves is an entry of the null tag
(log 38). (R245, R246, R247, R381) -/
def Obligations.TileInstructions : Prop :=
  ∀ (s : State) (g : Guard) (e : BitVec 6), s.guard g = true → MayAccess s →
    let sound := fun (n : Nat) => (7, n) ∉ s.core.bad
    let trap := fun (n : Nat) (t : Tile) =>
      Host.Outcome.next (s.raise (preciseTrap .tilebind 0 (BitVec.ofNat 64 (n % 64 + t.st.code * 2 ^ 6))))
    (∀ (lvl : BitVec 3) (ab : BitVec 5) (sa : SReg) (ac : BitVec 5) (n : BitVec 3) (rows : BitVec 6) (pair : Bool),
      let i := Instr.tbind g e lvl ab sa ac n rows pair
      let a := s.areg ab
      let h := s.scalar sa
      let rs := rows.toNat + 1
      (2 ^ 32 ≤ h.toNat → exec i s = .next (s.raise (preciseTrap .lsrange 0 h))) ∧
      (h.toNat < 2 ^ 32 → OwnLocal s a (rs * 128 * (if pair then 2 else 1)) 128 → sound e.toNat →
        (s.core.seenTile e.toNat).st ≠ .empty →
        exec i s = trap e.toNat (s.core.seenTile e.toNat)) ∧
      (h.toNat < 2 ^ 32 → OwnLocal s a (rs * 128 * 2) 128 → pair = true → sound e.toNat → sound (e.toNat + 1) →
        EmptyTile s e.toNat → (s.core.seenTile (e.toNat + 1)).st ≠ .empty → exec i s = trap (e.toNat + 1) (s.core.seenTile (e.toNat + 1))) ∧
      (h.toNat < 2 ^ 32 → OwnLocal s a (rs * 128 * (if pair then 2 else 1)) 128 →
        sound e.toNat → EmptyTile s e.toNat → (pair = true → sound (e.toNat + 1) ∧ EmptyTile s (e.toNat + 1)) →
        let new : Tile := {
          st := .empty, bound := true, base := localOffset a, handle := h.setWidth 32, lvl := lvl, ac := ac, n := n,
          rows := rs, pair := pair, code := 0, faultAddr := 0, faultInfo := 0, tag := s.task.tag, ctx := s.x, coords := [],
          queued := none, volley := false, launch := s.task.launch, order := 0 }
        let k1 := s.core.setTile e.toNat new
        let k := if pair then k1.setTile (e.toNat + 1) { new with base := localOffset a + rs * 128 } else k1
        (s.preTask.level lvl.toNat = none → exec i s = .next (s.setCore k)) ∧
        ∀ l, s.preTask.level lvl.toNat = some l →
          let at_ := fun (delta : Bool) => (List.range n.toNat).map fun d =>
            (s.areg (BitVec.ofNat 5 (ac.toNat + d))).setWidth 32 +
              (if delta then SMap.get (0 : BitVec 32) s.preTask.delta (32 * lvl.toNat + (ac.toNat + d)) else 0)
          ac.toNat + n.toNat ≤ 32 →
          let k2 := { k.setTile e.toNat { new with st := .filling, coords := at_ false, order := k.issuedJobs } with
            issuedJobs := k.issuedJobs + 1 }
          exec i s = .next (s.setCore (if pair ∧ l.index.toNat + 1 < l.total then
              { k2.setTile (e.toNat + 1) { new with
                  base := localOffset a + rs * 128, st := .filling, coords := at_ true, order := k2.issuedJobs } with
                issuedJobs := k2.issuedJobs + 1 }
            else k2)))) ∧
    let n := s.core.tileName e.toNat
    let t := s.core.seenTile n
    (t = Tile.none ∨ t.tag = s.task.tag → (7, n) ∉ s.core.bad →
      (t.st ≠ .filling → t.st ≠ .draining → (t.bound = false ∨ t.lvl = 7) →
        exec (.tfill g e) s = .next (s.setCore ((s.core.setTile n { t with
          tag := s.task.tag, ctx := s.x, launch := s.task.launch }).raiseFill n (t.at s.preTask none)))) ∧
      ((t.st = .filling ∨ t.st = .draining ∨ (t.bound = true ∧ t.lvl ≠ 7)) → exec (.tfill g e) s = trap n t) ∧
      (t.st = .ready → exec (.tdrain g e) s = .next (s.setCore { s.core.setTile n { t with
        st := .draining, order := s.core.issuedJobs } with issuedJobs := s.core.issuedJobs + 1 })) ∧
      (t.st ≠ .ready → exec (.tdrain g e) s = trap n t)) ∧
    (t ≠ Tile.none → t.tag ≠ s.task.tag → exec (.tfill g e) s = trap n t ∧ exec (.tdrain g e) s = trap n t) ∧
    (∀ sd : SReg, (7, n) ∉ s.core.bad → WritesScalar (.tstate g e sd) s sd (if t.tag = s.task.tag then
      BitVec.ofNat 64 (t.st.code + (if t.bound = true ∧ t.lvl ≠ 7 then 4 else 0) + (if t.pair then 8 else 0) +
        t.code.toNat * 2 ^ 4) else 0)) ∧
    let f := s.core.seenTile e.toNat
    (sound e.toNat → f.st = .empty ∨ f.tag = s.task.tag → f.pair = false → (s.core.tile e.toNat).st ≠ .filling →
      (s.core.tile e.toNat).st ≠ .draining → exec (.tfree g e) s = .next (s.setCore (s.core.setTile e.toNat Tile.none))) ∧
    (sound e.toNat → f.st = .empty ∨ f.tag = s.task.tag → f.pair = true → (let b := e.toNat / 2 * 2
      (∀ j, j ∈ [b, b + 1] → sound j ∧ (s.core.tile j).st ≠ .filling ∧ (s.core.tile j).st ≠ .draining) →
      exec (.tfree g e) s = .next (s.setCore ((s.core.setTile b Tile.none).setTile (b + 1) Tile.none)))) ∧
    (sound e.toNat → f.st ≠ .empty → f.tag ≠ s.task.tag → exec (.tfree g e) s = trap e.toNat f)

/-- O28. Under a true guard VSEND offers its range as the task's one volley in flight, VLATCH posts a latch for a
range or a tile entry (which, empty, begins to fill), and VSTAT reads the task's volley state; a mask with high bits
set traps LSRANGE. (R249, R250, R251) -/
def Obligations.VolleyInstructions : Prop :=
  ∀ (s : State) (g : Guard), s.guard g = true → MayAccess s →
    (∀ (sa : SReg) (ab : BitVec 5) (off : BitVec 20) (num len : BitVec 8),
      let i := Instr.vsend g sa ab off num len
      let a := s.areg ab + off.signExtend 64
      let m := s.scalar sa
      (2 ^ 32 ≤ m.toNat → exec i s = .next (s.raise (preciseTrap .lsrange 0 m))) ∧
      (m.toNat < 2 ^ 32 → a.toNat % 64 ≠ 0 → exec i s = .next (s.raise (preciseTrap .align a a))) ∧
      (m.toNat < 2 ^ 32 → OwnLocal s a (64 * len.toNat) 64 → (∀ v, v ∈ s.core.sends → v.ctx ≠ s.x) →
        exec i s = .next (s.setCore { s.core with
          issuedJobs := s.core.issuedJobs + 1,
          sends := s.core.sends ++ [{ ctx := s.x, mask := m.setWidth 32, off := localOffset a, num := num, len := len.toNat,
                                      tag := s.task.tag, launch := s.task.launch, coreId := s.task.coreId,
                                      order := s.core.issuedJobs }] }))) ∧
    (∀ (sender : BitVec 5) (num : BitVec 8), s.core.latches.length < 4 →
      let posts := fun (dest : LatchTo) => { s.core with
        issuedJobs := s.core.issuedJobs + 1,
        latches := s.core.latches ++ [{ ctx := s.x, sender := sender, num := num, dest := dest, tag := s.task.tag,
                                        launch := s.task.launch, coreId := s.task.coreId, order := s.core.issuedJobs }] }
      (∀ (ab : BitVec 5) (off : BitVec 20), exec (.vlatch g (.plain ab off) sender num) s =
        .next (s.setCore (posts (.range (s.areg ab + off.signExtend 64).toNat)))) ∧
      ∀ e : BitVec 6, let n := s.core.tileName e.toNat
        (7, n) ∉ s.core.bad →
        (¬EmptyTile s n → exec (.vlatch g (.tile e) sender num) s = .next (s.setCore (posts (.tile n)))) ∧
        (EmptyTile s n → exec (.vlatch g (.tile e) sender num) s = .next (s.setCore ((posts (.tile n)).setTile n {
          s.core.seenTile n with st := .filling, volley := true, tag := s.task.tag, ctx := s.x, code := 0,
                                 order := s.core.issuedJobs })))) ∧
    ∀ sd : SReg,
      let posted := (s.core.latches.filter fun l => l.ctx = s.x).length
      WritesScalar (.vstat g sd) s sd (BitVec.ofNat 64 ((if ∃ v, v ∈ s.core.sends ∧ v.ctx = s.x then 1 else 0) +
        s.task.vsendLast.toNat * 2 ^ 8 + posted * 2 ^ 16 + s.task.vlatchLast.toNat * 2 ^ 20))

/-- O29. Under a true guard QCFG sets a queue's endpoints and tag, empties it and keeps its formats; QRST empties a
queue for one of its endpoints; QPUSH reads 1,024 local bytes, of a plain range, that land behind the queue's last
entry 6 cycles later; QADV advances the queue by n; an issuer that is not the endpoint traps QUEUE. (R55, R58, R59,
R252, R253) -/
def Obligations.QueueInstructions : Prop :=
  ∀ (s : State) (g : Guard) (k : BitVec 4), s.guard g = true → MayAccess s →
    let q := s.myQueue k.toNat
    let m := memberOf s.c
    let trap := fun (r : Nat) => Host.Outcome.next (s.raise (preciseTrap .queue 0 (BitVec.ofNat 64 (k.toNat + 16 * r))))
    (∀ prod cons : BitVec 2, exec (.qcfg g k prod cons) s = .next (s.setMyQueue k.toNat { q with
      rd := 0, fill := 0, entries := [], prod := prod, cons := cons, tag := s.task.tag })) ∧
    (tagGen q.tag ≠ 0 → (q.prod.toNat = m ∨ q.cons.toNat = m) →
      exec (.qrst g k) s = .next (s.setMyQueue k.toNat { q with rd := 0, fill := 0, entries := [] })) ∧
    (¬(tagGen q.tag ≠ 0 ∧ (q.prod.toNat = m ∨ q.cons.toNat = m)) → exec (.qrst g k) s = trap 5) ∧
    (∀ (ab : BitVec 5) (off : BitVec 20), let a := s.areg ab + off.signExtend 64
      (¬(tagGen q.tag ≠ 0 ∧ q.prod.toNat = m) → exec (.qpush g k ab off) s = trap 2) ∧
      (tagGen q.tag ≠ 0 → q.prod.toNat = m → PlainLocal s a 1024 64 false → q.fill + q.landing.length < 8 →
        exec (.qpush g k ab off) s = .next ((s.touchAt a 1024).setMyQueue k.toNat { q with landing := q.landing ++
          [{ data := BitVec.ofNat 8192 (ofBytes (s.localBytes s.task.tag (localCore s a) (localOffset a) 1024)),
             tag := s.task.tag, due := s.now + 6 }] }))) ∧
    ∀ n : BitVec 4,
      (¬(tagGen q.tag ≠ 0 ∧ q.cons.toNat = m) → exec (.qadv g k n) s = trap 1) ∧
      (tagGen q.tag ≠ 0 → q.cons.toNat = m → n.toNat ≤ q.fill → exec (.qadv g k n) s =
        .next (s.setMyQueue k.toNat { q with rd := q.rd + n.setWidth 3, fill := q.fill - n.toNat }))

/-- O30. An engine takes the lowest slot whose packet has come in and whose footprint no earlier job of its task meets,
refuses it with the lowest code of R340 or accepts
it with its descriptor; distances are sums over blocks of 32; candidates stand in the order of R342; a round takes the
new neighbours of the next candidate and the search ends when none is left or the K-th is nearer; a forwarded request
is served in order and its answer returns; results and then the completion word are written. What one engine event
does is log 73, what is reported of lost results log 74. Under a true guard GSRCH copies its packet into the lowest
free slot of the engine that the packet's graph selects and gives its register the ticket; GSTAT reads the status of
the query that its ticket names, and zero for a ticket whose query has gone or belongs to another tenancy. (R254,
R336, R337, R339, R340, R341, R342, R343, R345, R346, R347, R348) -/
def Obligations.GraphSearch : Prop :=
  (∀ (s : State) (n i : Nat),
    (let in_ := fun (j : Nat) (x : Query) => j < 64 ∧ s.liveQuery n j = some x ∧ x.dim = 0 ∧ x.ending = none
      let free := fun (x : Query) => s.jobBlocked x.core x.ctx x.order x.footprint.reads x.footprint.writes = false
      ((∀ j x, in_ j x → ¬free x) → exec (.gseQueryPacket n) s = .next s) ∧
      ∀ q, in_ i q → free q → (∀ j x, j < i → in_ j x → ¬free x) →
      (q.packetCode ≠ 0 → exec (.gseQueryPacket n) s = .next (s.finishQuery n i q 3 q.packetCode)) ∧
      (q.packetCode = 0 →
        (∀ c, s.takeQuery q = .refuse c → exec (.gseQueryPacket n) s = .next (s.finishQuery n i q 3 c)) ∧
        ∀ t x, s.takeQuery q = .accept t x → exec (.gseQueryPacket n) s = .next (t.setQuery n i x) ∧
          1 ≤ x.dim ∧ x.dim ≤ 2048 ∧ 1 ≤ x.deg ∧ x.deg ≤ 255 ∧ x.recBase % x.recSize = 0 ∧ x.nbrOff % 4 = 0 ∧
          x.dim * (fmtWidth x.fmt / 8) ≤ x.nbrOff ∧ x.nbrOff + 4 + 4 * x.deg ≤ x.recSize ∧ x.qvec.length = x.dim ∧
          ∀ j, j < x.nentry → x.entry j < x.nvert)) ∧
    (∀ q : Query, q.packetCode = 0 ↔
      (fieldAt q.packet 9 1 = 0 ∧ fieldAt q.packet 15 1 = 0 ∧ fieldAt q.packet 0x48 184 = 0 ∧
        ∀ j, j < 8 → q.nentry ≤ j → q.entry j = 0) ∧
      (q.metric ≤ 1 ∧ 1 ≤ q.k ∧ q.k ≤ 256 ∧ q.l ≤ 1024 ∧ 1 ≤ q.nentry ∧ q.nentry ≤ 8 ∧ q.k ≤ q.l) ∧
      fieldAt q.packet 0 8 % 64 = 0 ∧ q.vecAt % 64 = 0 ∧ q.result % 8 = 0 ∧ q.done % 8 = 0) ∧
    (s.liveQuery n i = none → exec (.gseRound n i) s = .next s ∧ exec (.gseQueryComplete n i) s = .next s) ∧
    (∀ q, s.liveQuery n i = some q → q.dim ≠ 0 → q.ending = none →
      (∀ r, q.round = some r → 0 < r.waiting → exec (.gseRound n i) s = .next s) ∧
      (∀ r fresh, q.round = some r → r.waiting = 0 → r.fresh = some fresh → r.faults = [] →
        exec (.gseRound n i) s = .next (s.setQuery n i (q.commit r fresh))) ∧
      (∀ r fresh f, q.round = some r → r.waiting = 0 → r.fresh = some fresh → r.faults = [f] →
        exec (.gseRound n i) s = .next (s.endQuery n i q 4 f.2.1 f.2.2)) ∧
      (q.round = none → q.visited ≠ [] →
        ((∀ c, c ∈ q.cands → c.done = true) → exec (.gseRound n i) s = .next (s.endQuery n i q 1 0 0)) ∧
        ∀ j c, q.cands[j]? = some c → c.done = false → (∀ m d, m < j → q.cands[m]? = some d → d.done = true) →
          (q.k ≤ q.cands.length → q.k - 1 < j → exec (.gseRound n i) s = .next (s.endQuery n i q 1 0 0)) ∧
          (q.cands.length < q.k ∨ j ≤ q.k - 1 → ∀ u r ids,
            s.askFor n i q (Round.open (some c.id)) false 0 c.id = .ok (u, r) → r.waiting = 0 → r.list = some ids → r.fresh = none →
            r.faults = [] →
            (∀ a d v, newIds q (r.u.getD 0) [] ids = .error (a, d, v) →
              exec (.gseRound n i) s = .next (u.endQuery n i q a d v)) ∧
            ∀ fresh v w, newIds q (r.u.getD 0) [] ids = .ok fresh → u.askDistances n i q r fresh = .ok (v, w) →
              w.waiting = 0 → w.faults = [] → exec (.gseRound n i) s = .next (v.setQuery n i (q.commit w fresh))))) ∧
    ((s.engine n).requests = [] → exec (.gseForwardedRequest n) s = .next s) ∧
    (∀ req rest, (s.engine n).requests = req :: rest →
      (s.liveQuery req.home req.slot = none →
        exec (.gseForwardedRequest n) s = .next (s.setEngine n { s.engine n with requests := rest })) ∧
      ∀ q r t st bs, s.liveQuery req.home req.slot = some q → q.round = some r →
        (if req.dist = true then s.readVertex q req.vertex else s.readList q req.vertex) = .ok t st bs →
        exec (.gseForwardedRequest n) s = .next ((t.setEngine n { t.engine n with requests := rest }).setQuery req.home req.slot
          { q with round := some { r.answer q req.dist req.place req.vertex (.ok t st bs) with waiting := r.waiting - 1 } })) ∧
    (∀ q status detail, s.liveQuery n i = some q → q.ending = some (status, detail) →
      (q.written < q.k →
        (∀ t, s.writeSpan q.agent (q.result + 8 * q.written) (q.resultEntry q.written) 2 = .ok t →
          exec (.gseQueryComplete n i) s = .next (t.setQuery n i { q with
            written := q.written + 1, lost := q.lost || s.poisonedAt q.agent (q.result + 8 * q.written) })) ∧
        ∀ a b c d, s.writeSpan q.agent (q.result + 8 * q.written) (q.resultEntry q.written) 2 = .error (.fault a b c d) →
          exec (.gseQueryComplete n i) s = .next (s.setQuery n i { q with written := q.written + 1, lost := true })) ∧
      (q.k ≤ q.written → q.lost = false →
        exec (.gseQueryComplete n i) s = .next (s.finishQuery n i q status detail))) ∧
    ∀ (q : Query) (status detail : Nat) (t : State), q.done % 8 = 0 → s.poisonedAt q.agent q.done = false →
      s.tryWrite q.agent q.done (toBytes 8 (status + detail * 2 ^ 8 +
        (if status = 3 then 0 else if q.k ≤ q.cands.length then q.k else q.cands.length) * 2 ^ 16 +
        (if status = 3 then 0 else q.visited.length) * 2 ^ 32)) = .done t () →
      s.finishQuery n i q status detail = t.setQuery n i { q with
        running := false, round := none, ending := none, status := status, detail := detail }) ∧
  (∀ (f : Fmt) (q x : List Nat), q ≠ [] → q.length = x.length → q.length ≤ 32 →
    let sum := fun (g : XVal → XVal → XVal) => addF32 .rne 0 (round .f32 .rne false (xsum .rne
      ((q.zip x).map fun p => g (codeVal f p.1) (codeVal f p.2))))
    distance 0 f q x = sum (fun a b => let d := xadd .rne a (xneg b); xmul d d) ∧
    distance 1 f q x = round .f32 .rne false (xneg (floatVal .f32 (sum xmul)))) ∧
  (∀ (q : Query) (u : Nat) (ids fresh : List Nat), q.visited.length ≤ 8192 → newIds q u [] ids = .ok fresh →
    fresh.Nodup ∧ (∀ v, v ∈ fresh ↔ v ∈ ids ∧ v ∉ q.visited) ∧ (∀ v, v ∈ ids → v < q.nvert) ∧
    q.visited.length + fresh.length ≤ 8192) ∧
  (∀ (q : Query) (r : Round) (fresh : List Nat), let c := q.commit r fresh
    c.visited = q.visited ++ fresh ∧ c.cands.length ≤ q.l ∧ c.round = none ∧
    ∀ y, y ∈ c.cands → y.done = true → (∃ z, z ∈ q.cands ∧ z.id = y.id ∧ (z.done = true ∨ r.u = some z.id))) ∧
  (∀ (c : Cand) (l : List Cand), (insertCand c l).Perm (c :: l)) ∧
  (∀ a b : Cand, let x := floatVal .f32 a.dist
    let y := floatVal .f32 b.dist
    (isNaN x = false → isNaN y = true → a.before b = true ∧ b.before a = false) ∧
    (isNaN x = true → isNaN y = true → a.before b = decide (a.id < b.id)) ∧
    (isNaN x = false → isNaN y = false → (a.before b = true ↔ xcmp x y = .lt ∨ (xcmp x y = .eq ∧ a.id < b.id)))) ∧
  (∀ (q : Query) (j : Nat) (c : Cand), (q.cands[j]? = some c → q.resultEntry j = toBytes 4 c.dist ++ toBytes 4 c.id) ∧
    (q.cands.length ≤ j → q.resultEntry j = toBytes 4 0x7FC00000 ++ toBytes 4 0xFFFFFFFF)) ∧
  ∀ (s : State) (g : Guard), s.guard g = true → MayAccess s →
    (∀ (ab : BitVec 5) (off : BitVec 20) (sd : SReg), let a := s.areg ab + off.signExtend 64
      PlainLocal s a 256 64 false →
      let bs := s.localBytes s.task.tag (localCore s a) (localOffset a) 256
      let u := s.touchAt a 256
      ∀ home i, u.homeEngine (ofBytes (bs.take 8)) = .ok home →
      let e := s.engine home
      let taken := fun i => ∃ q, e.query i = some q ∧ q.running = true
      i < 64 → ¬taken i → (∀ j, j < i → taken j) →
        exec (.gsrch g ab off sd) s = .next (((u.setEngine home {
            accepted := (e.accepted + 1) % 2 ^ 53,
            slots := SMap.set none e.slots i (some
              (Query.placed s.part s.task.tag s.c s.x s.task.launch bs e.accepted s.core.issuedJobs)),
            requests := e.requests }).setCore
          { u.core with issuedJobs := s.core.issuedJobs + 1 }).putScalar sd
            (BitVec.ofNat 64 (i + home * 2 ^ 6 + e.accepted * 2 ^ 11)))) ∧
    ∀ sd sa : SReg,
      let t := (s.scalar sa).toNat
      let held := (s.engine (t / 2 ^ 6 % 2 ^ 5)).query (t % 2 ^ 6)
      let mine := fun q : Query => q.seq = t / 2 ^ 11 ∧ q.tag = s.task.tag
      ((∀ q, held = some q → ¬mine q) → WritesScalar (.gstat g sd sa) s sd 0) ∧
      ∀ q, held = some q → mine q → WritesScalar (.gstat g sd sa) s sd (BitVec.ofNat 64
        ((if q.running then 1 else 2 + q.status * 2 ^ 8 + q.detail * 2 ^ 16) + q.visited.length * 2 ^ 32))

/-- O31. A waiting placement entry starts its task, once its context is free on a held slice, with the registers of R25
or R327; a launch completes when R26 holds and its errors are recorded, with its code; RALLY_LOAD takes a valid table
and keeps the counts unless RESET is set; the head entry starts once its input, space and stash conditions hold, and
completes once its launch is over and its increments are answered; an increment unanswered at its deadline is lost, and
changes no rally state where its tenancy has ended. That an entry whose image is refused stops its table is log 52. A
task that no rally entry started traps SWTRAP with code 3; under a true guard RLYDONE, once everything earlier has been
performed, takes n free slots of the neighbour's inbox and posts its increment, RLYFREE consumes n filled slots and
posts theirs, with the error bits of R333 where counts fall short or no neighbour is present; RLYSTASH adds n, stopping
at 65,535, and RLYPOP subtracts n, stopping at 0. (R24, R25, R26, R255, R324, R325, R326, R327, R329, R330, R333, R335)
-/
def Obligations.LaunchesAndRallies : Prop :=
  (∀ (s : State) (n : Nat) (l : Launch), s.launch n = some l →
    (∀ e w q, l.waiting[e]? = some w → l.quads[bits w 5 0]? = some q →
      let c := 4 * q + bits w 7 6
      let x := bits w 11 8
      let u := s.catchUp c
      let i := Instr.placementStart n e
      ((u.taskAt c x).st ≠ .free ∨ u.onSlice l.part (quadOf c) = false → exec i s = .next u) ∧
      ((u.taskAt c x).st = .free → u.onSlice l.part (quadOf c) = true → Completes i s fun t =>
        t.launch n = some { l with waiting := l.waiting.take e ++ l.waiting.drop (e + 1) } ∧
        (∀ d y, (d, y) ≠ (c, x) → t.taskAt d y = u.taskAt d y) ∧
        let y := t.taskAt c x
        y.st = .ready ∧ y.pc = l.base + l.codeOff + BitVec.ofNat 64 (bits w 47 16) ∧
        y.scalar (.s 1) = BitVec.ofNat 64 (bits w 63 48) ∧ y.scalar (.a 0) = l.arg ∧ y.prio.toNat = bits w 13 12 ∧
        y.eff = y.prio ∧ y.privileged = l.priv ∧ y.tag = l.tag ∧ y.launch = some n ∧
        y.coreId = BitVec.ofNat 8 (4 * bits w 5 0 + bits w 7 6) ∧ (∀ m, m ≠ 0 → y.pred m = 0) ∧ y.loops = [] ∧
        (l.extra = [] → (∀ m, m ≠ 1 → y.scalar (.s m) = 0) ∧ ∀ m, m ≠ 0 → y.scalar (.a m) = 0) ∧
        ∀ a1 a2 s2 s3, l.extra = [a1, a2, s2, s3] →
          y.scalar (.a 1) = a1 ∧ y.scalar (.a 2) = a2 ∧ y.scalar (.s 2) = s2 ∧ y.scalar (.s 3) = s3)) ∧
    (let u := s.settleLaunch n;
      (l.waiting ≠ [] ∨ s.launchTasks n = true ∨ s.haltedBy n = [] → u = s) ∧
      (l.waiting = [] → s.launchTasks n = false → ∀ c ch, s.haltedBy n = [(c, ch)] → u = s.clearHalted n (c, ch)) ∧
      ∀ m, u.launch n = some m →
        (u.launchOver n = true ↔ m.waiting = [] ∧ u.launchTasks n = false ∧ u.launchJobs n = false ∧ u.haltedBy n = [] ∧
          m.unwritten = []) ∧
        (m.rally = true ∨ u.launchOver n = false → exec (.launchComplete n) s = .next u) ∧
        ∀ k, m.rally = false → u.launchOver n = true → u.packetAt m.q m.idx = some k →
          (0 < m.errors → exec (.launchComplete n) s = .next ((u.completePacket k 2 0 0).setLaunch n none)) ∧
          (m.errors = 0 → m.halt = none → exec (.launchComplete n) s = .next ((u.completePacket k 0 0 0).setLaunch n none)) ∧
          ∀ h, m.errors = 0 → m.halt = some h →
            exec (.launchComplete n) s = .next ((u.completePacket k 1 0 h.toNat).setLaunch n none))) ∧
  (∀ (s : State) (q idx : Nat) (k : Packet), s.packetAt q idx = some k → s.toBegin k.part = some k → k.type = 3 →
    k.headerOk = true → k.bodyOk = true →
    let u := s.begin k
    let a := (k.word 3).toNat
    let i := Instr.rallyLoad q idx
    (a % 64 ≠ 0 → exec i s = .next (u.completePacket k 7 0 0)) ∧
    (a % 64 = 0 →
      (∀ c, u.dispRead k.part a 128 = .fails c → exec i s = .next (u.completePacket k 6 c 0)) ∧
      ∀ v bs w es, u.dispRead k.part a 128 = .ok v bs →
        let n := ofBytes ((bs.drop 6).take 2)
        (n = 0 ∨ 256 < n → exec i s = .next (v.completePacket k 7 0 0)) ∧
        (1 ≤ n → n ≤ 256 → v.dispRead k.part (a + 128) (32 * n) = .ok w es →
          let entries := (List.range n).map fun j => readEntry ((es.drop (32 * j)).take 32)
          let new := readTable bs (entries.map (·.1)) (q = 64) (w.curTag k.part)
          let old := w.rallyOf k.part
          let ok := headerOk bs new = true ∧ (∀ e, e ∈ entries → e.2 = true ∧ new.entryOk e.1 = true) ∧ old.st ≠ 1 ∧ old.st ≠ 2
          (¬ok → exec i s = .next (w.completePacket k 7 0 0)) ∧
          (ok → exec i s = .next ((w.setRally k.part
            (if ofBytes ((bs.drop 8).take 4) % 2 = 1 then new else new.keepCounts old)).completePacket k 0 0 0)) ∧
          new.st = 1 ∧ new.head = 0 ∧ new.fillF = 0 ∧ new.fillB = 0 ∧ new.freeDn = new.dn.cnt ∧ new.freeUp = new.up.cnt ∧
          new.stash = 0 ∧ new.errs = 0 ∧
          let kept := new.keepCounts old
          kept.fillF = old.fillF ∧ kept.fillB = old.fillB ∧ kept.freeDn = old.freeDn ∧ kept.freeUp = old.freeUp ∧
          kept.rdF = old.rdF ∧ kept.rdB = old.rdB ∧ kept.wrDn = old.wrDn ∧ kept.wrUp = old.wrUp ∧ kept.stash = old.stash))) ∧
  (∀ (s : State) (p : Nat),
    let r := s.rallyOf p
    (r.entries[r.head]? = none → exec (.rallyEntryStart p) s = .next s) ∧
    (r.live = none → exec (.rallyEntryComplete p) s = .next s) ∧
    (∀ e, r.entries[r.head]? = some e →
      (r.cause = 0 ↔ (e.kind = 0 → e.nin ≤ r.fillF ∧ e.nout ≤ r.freeDn ∧ r.stash < r.stashLim) ∧
        (e.kind = 1 → e.nin ≤ r.fillB ∧ e.nout ≤ r.freeUp)) ∧
      (r.st ≠ 1 ∨ r.cause ≠ 0 → exec (.rallyEntryStart p) s = .next s) ∧
      (r.st = 1 → r.cause = 0 → ∀ u h ps, s.readImage p e.image = .ok u h ps →
        u.quadsReady ((u.ownedQuads p).take h.quads) = true → ∃ l : Launch,
          exec (.rallyEntryStart p) s = .next ((({ u with nextLaunch := u.nextLaunch + 1 } : State).setLaunch u.nextLaunch
            (some l)).setRally p { r with st := 2, live := some u.nextLaunch, start := u.time }) ∧
          l.part = p ∧ l.rally = true ∧ l.idx = r.head ∧ l.base = e.image ∧ l.arg = e.arg ∧ l.priv = r.priv ∧
          l.quads = (u.ownedQuads p).take h.quads ∧ l.waiting = ps ∧ l.extra = r.registers e) ∧
      (r.st = 1 → r.cause = 0 → s.readImage p e.image = .refused → r.errRec = 0 → exec (.rallyEntryStart p) s =
        .next (s.setRally p { r with st := 3, errs := r.errs ||| 64, errEntry := if r.errs = 0 then r.head else r.errEntry })) ∧
      (e.kind = 0 → 1 ≤ e.nin → 1 ≤ e.nout → r.registers e = [r.fin.base + BitVec.ofNat 64 (r.rdF * r.fin.slot),
        r.dn.base + BitVec.ofNat 64 (r.wrDn * r.dn.slot), BitVec.ofNat 64 e.mb, r.dnNode &&& 0xFFFF]) ∧
      (e.kind = 1 → 1 ≤ e.nin → 1 ≤ e.nout → r.registers e = [r.bin.base + BitVec.ofNat 64 (r.rdB * r.bin.slot),
        r.up.base + BitVec.ofNat 64 (r.wrUp * r.up.slot), BitVec.ofNat 64 e.mb, r.upNode &&& 0xFFFF])) ∧
    ∀ n, r.live = some n →
      let u := s.settleLaunch n
      let y := u.rallyOf p
      (u.launchOver n = false ∨ y.posted ≠ 0 → exec (.rallyEntryComplete p) s = .next u) ∧
      (u.launchOver n = true → y.posted = 0 → y.trBase = 0 → ∀ e, y.entries[y.head]? = some e →
        exec (.rallyEntryComplete p) s = .next ((u.setLaunch n none).setRally p { y with
          head := y.head + 1, st := if y.head + 1 < y.entries.length then 1 else 3, live := none, was := y.bubbles }))) ∧
  (∀ (s : State) (rtag : Nat) (r : Remote) (p e : Nat), SMap.get none s.remotes rtag = some r → r.what = .increment p e →
    (s.time < r.deadline → exec (.rallyIncrementTimeout rtag) s = .next s) ∧
    (r.deadline ≤ s.time → let y := s.rallyOf p
      let u : State := { s with remotes := SMap.set none s.remotes rtag none }
      (r.tag = y.tag → exec (.rallyIncrementTimeout rtag) s = .next (u.setRally p
        { y with errs := y.errs ||| 32, errEntry := if y.errs = 0 then e else y.errEntry, posted := y.posted - 1 })) ∧
      (r.tag ≠ y.tag → exec (.rallyIncrementTimeout rtag) s = .next u))) ∧
  ∀ (s : State) (g : Guard) (n : BitVec 8), s.guard g = true → MayAccess s →
    (s.task.rally = none → ∀ i, i ∈ [Instr.rlydone g n, .rlyfree g n, .rlystash g n, .rlypop g n] →
      exec i s = .next (s.raise (preciseTrap .swtrap 0 (BitVec.ofNat 64 (3 * 2 ^ 32))))) ∧
    ∀ (p i : Nat) (e : RallyEntry), s.task.rally = some (p, i) →
      let r := s.rallyOf p
      let bit := fun (b : Nat) (x : Rally) => { x with
        errs := x.errs ||| BitVec.ofNat 7 (2 ^ b), errEntry := if x.errs = 0 then i else x.errEntry }
      let m := n.toNat
      exec (.rlystash g n) s = .next (s.setRally p { (if 65535 < r.stash + m then bit 4 r else r) with
        stash := if 65535 < r.stash + m then 65535 else r.stash + m }) ∧
      exec (.rlypop g n) s = .next (s.setRally p { r with stash := if m ≤ r.stash then r.stash - m else 0 }) ∧
      (r.entries[i]? = some e → s.handoffReady = true →
        let lost := Host.Outcome.next (s.setRally p (bit 3 r))
        (e.kind = 0 → exec (.rlydone g n) s =
          if r.dnNode.getLsbD 16 = false ∨ r.dn.cnt = 0 then lost
          else .next ((s.setRally p { (if r.freeDn < m then bit 0 r else r) with
            freeDn := r.freeDn - m, wrDn := (r.wrDn + m) % r.dn.cnt }).postIncrement p i r.dnNode 0 m)) ∧
        (e.kind = 1 → exec (.rlydone g n) s =
          if r.upNode.getLsbD 16 = false ∨ r.up.cnt = 0 then lost
          else .next ((s.setRally p { (if r.freeUp < m then bit 0 r else r) with
            freeUp := r.freeUp - m, wrUp := (r.wrUp + m) % r.up.cnt }).postIncrement p i r.upNode 1 m)) ∧
        (e.kind = 0 → exec (.rlyfree g n) s =
          if r.fin.cnt = 0 ∨ r.upNode.getLsbD 16 = false then lost
          else
            let f := if m ≤ r.fillF then m else r.fillF
            let t := s.setRally p { (if r.fillF < m then bit 2 r else r) with
              fillF := r.fillF - f, rdF := (r.rdF + f) % r.fin.cnt }
            .next (if f = 0 then t else t.postIncrement p i r.upNode 2 f)) ∧
        (e.kind = 1 → exec (.rlyfree g n) s =
          if r.bin.cnt = 0 ∨ r.dnNode.getLsbD 16 = false then lost
          else
            let f := if m ≤ r.fillB then m else r.fillB
            let t := s.setRally p { (if r.fillB < m then bit 2 r else r) with
              fillB := r.fillB - f, rdB := (r.rdB + f) % r.bin.cnt }
            .next (if f = 0 then t else t.postIncrement p i r.dnNode 3 f)) ∧
        (2 ≤ e.kind → exec (.rlydone g n) s = lost ∧ exec (.rlyfree g n) s = lost))

/-- O32. Under a true guard CRES and CREL check their range, and trap XLATE with fault 6 where its first page is no
cistern's; CRES reserves its pages at their home dies (status 0), or nothing where a page is reserved already (2) or a
quota would be passed (1); CREL ends the reservations of its range and drops its lines from die caches, spill buffers,
cache parts and stash copies; SPLIT refuses units in use, else sets the core's scratchpad to n units, gives the lines
that change role the null tag and holds L and E slots for 512 + 64m cycles. That status 2 comes before 1 and the access is
a read is log 41, the information of SPLIT's trap log 42, and the size and order of a cache part log 115. (R256, R257, R287, R301) -/
def Obligations.CisternAndSplit : Prop :=
  ∀ (s : State) (g : Guard), s.guard g = true → MayAccess s →
    (∀ (sd : SReg) (ab : BitVec 5) (sa : SReg),
      let base := s.areg ab
      let len := s.scalar sa
      let first := base.toNat / 2 ^ 16
      let count := len.toNat / 2 ^ 16
      let mine := fun (r : Reserved) => r.part = s.part ∧ first ≤ r.page ∧ r.page < first + count
      (base.toNat % 2 ^ 16 ≠ 0 → ∀ i, i ∈ [Instr.cres g sd ab sa, .crel g ab sa] →
        exec i s = .next (s.raise (preciseTrap .align base base))) ∧
      (base.toNat % 2 ^ 16 = 0 → (len = 0 ∨ len.toNat % 2 ^ 16 ≠ 0) → ∀ i, i ∈ [Instr.cres g sd ab sa, .crel g ab sa] →
        exec i s = .next (s.raise (preciseTrap .lsrange 0 len))) ∧
      (base.toNat % 2 ^ 16 = 0 → len ≠ 0 → len.toNat % 2 ^ 16 = 0 →
        (∀ w, base.toNat < 2 ^ 55 → (s.tlbFind s.agent base.toNat = some w ∨
            (s.tlbFind s.agent base.toNat = none ∧ s.walk s.part base.toNat = .ok w)) → s.entryValid s.part w.level w.entry = true →
          bits w.entry 9 7 ≠ 1 → ∀ i, i ∈ [Instr.cres g sd ab sa, .crel g ab sa] →
          exec i s = .next (s.raise (preciseTrap .xlate base (BitVec.ofNat 64 (xlateInfo .read 6 w.level false))))) ∧
        ∀ home : Nat → Nat, (∀ j, j < count → s.cisternHome (first + j) = .ok (home j)) →
          let held := ∃ e r, e ∈ s.dies ∧ r ∈ e.2.reserved ∧ mine r
          let lines := fun d => s.reservedOn d s.part + 1024 * ((List.range count).filter fun j => home j = d).length
          let full := ∃ d, d < Config.dies ∧ 1024 * s.field (dcpReg d s.part) 51 40 < lines d
          (held → WritesScalar (.cres g sd ab sa) s sd 2) ∧
          (¬held → full → WritesScalar (.cres g sd ab sa) s sd 1) ∧
          (¬held → ¬full → exec (.cres g sd ab sa) s = .next (((List.range count).foldl (fun t j =>
            t.setDie (home j) { t.die (home j) with
              reserved := (t.die (home j)).reserved ++ [{ part := s.part, page := first + j, lines := 1024 }] }) s).putScalar
                sd 0)) ∧
          let in_ := fun n => decide (first ≤ n) && decide (n < first + count)
          let at_ := fun (key : Nat) => isCistern key && (key - 2 ^ 104) / 2 ^ 56 == s.part &&
            in_ ((key - 2 ^ 104) % 2 ^ 56 / 2 ^ 16)
          let t := s.forgetCopies at_
          exec (.crel g ab sa) s = .next (t.dies.foldl (fun t e => t.setDie e.1 { e.2 with
            reserved := e.2.reserved.filter fun r => !(r.part == s.part && in_ r.page),
            unposted := e.2.unposted.filter fun r => !(r.1 == s.part && in_ r.2),
            lines := e.2.lines.filter fun c => !at_ c.key, spill := e.2.spill.filter fun c => !at_ c.key }) t))) ∧
    ∀ n : BitVec 4, n.toNat ≤ 12 →
      let k := s.core
      let lo := (if n.toNat ≤ k.scr then n.toNat else k.scr) * 2 ^ 16
      let hi := (if n.toNat ≤ k.scr then k.scr else n.toNat) * 2 ^ 16
      (n.toNat < k.scr → s.unitInUse s.c lo hi = true →
        exec (.split g n) s = .next (s.raise (preciseTrap .lsrange 0 (n.setWidth 64)))) ∧
      ((n.toNat < k.scr → s.unitInUse s.c lo hi = false ∧ s.localFlying s.c lo hi = false ∧ ∀ c x r, c < 4 → x < 16 →
          (r ∈ (s.footprints (quadOf s.c * 4 + c) x).1 ∨ r ∈ (s.footprints (quadOf s.c * 4 + c) x).2) →
          (localRegion s.c lo (hi - lo)).meets r = false) →
        SMap.wf nullTag s.tags = true → Completes (.split g n) s fun t => t.core = { k with
            scr := n.toNat, cachePart := k.cachePart.take (1024 * (12 - n.toNat)), splitBusy := true, splitEnd := s.now + 512 + 64 * ((hi - lo) / 2 ^ 16) } ∧
          (∀ c, c ≠ s.c → t.coreAt c = s.coreAt c) ∧ t.mem = s.mem ∧
          ∀ line, SMap.get nullTag t.tags line =
            if localAddr s.c lo / 64 ≤ line ∧ line < localAddr s.c hi / 64 then nullTag else SMap.get nullTag s.tags line)

/-- O33. Under a true guard a remote access checks its target word and alignment, is sent to its node under the
partition's binding, and parks its task (RSTP only counts it); with no valid binding or no incarnation the REMOTE trap
follows the bundle, or for RSTP is recorded; RFENCE parks while a posted store is outstanding, traps REMOTE for a
recorded failure and otherwise has no effect. That a remote instruction waits behind posted stores is log 43, and the slot
mask of its REMOTE trap log 30. (R232, R233,
R411, R418) -/
def Obligations.RemoteInstructions : Prop :=
  ∀ (s : State) (g : Guard) (ab : BitVec 5) (off : BitVec 20) (sa : SReg), s.guard g = true → MayAccess s →
    let ea := s.areg ab + off.signExtend 64
    let target := s.scalar sa
    let node := target.toNat % 2 ^ 10
    let deny := fun code => Host.Outcome.next (s.defer 0x40 {
      cause := .remote, addr := ea, info := BitVec.ofNat 64 (code + node * 2 ^ 8), at_ := .address s.task.link })
    let access := fun (i : Instr) (what : RemoteWhat) (align kind opw size : Nat) (bs : List Byte) =>
      (2 ^ 16 ≤ target.toNat → exec i s = .next (s.raise (preciseTrap .lsrange 0 target))) ∧
      (target.toNat < 2 ^ 16 → ea.toNat % align ≠ 0 → exec i s = .next (s.raise (preciseTrap .align ea ea))) ∧
      (target.toNat < 2 ^ 16 → ea.toNat % align = 0 → s.task.rstpOut = 0 →
        (∀ code, s.bindingOf s.part target.toNat = .error code → exec i s = deny code) ∧
        ∀ job, s.bindingOf s.part target.toNat = .ok job →
          let sent := s.sendRemote what target ea job kind opw size bs
          exec i s = .next (sent.1.parkLater (.remote sent.2)))
    (∀ (sd : SReg) (v : BitVec 11),
      (∀ wd code size, (wd, code, size) ∈ [(RWidth.b, 0, 1), (.h, 1, 2), (.w, 2, 4), (.d, 3, 8)] →
        access (.rldg g wd (.scalar sd) ab off sa) (.load (.scalar sd) size) size 1 code size [] ∧
        access (.rstg g wd (.scalar sd) ab off sa) .store size 2 code size (toBytes size (s.scalar sd).toNat)) ∧
      (∀ wd code size, (wd, code, size) ∈ [(RWidth.v64, 4, 64), (.v, 5, 1024)] →
        access (.rldg g wd (.vector v) ab off sa) (.load (.vector v) size) 64 1 code size [] ∧
        ((2, v.toNat) ∉ s.core.bad →
          access (.rstg g wd (.vector v) ab off sa) .store 64 2 code size (toBytes size (s.vreg v.toNat).toNat)))) ∧
    (∀ (wd : RWidth) (code size align : Nat) (d : RData) (bs : List Byte),
      (wd, code, size, align) ∈ [(RWidth.b, 0, 1, 1), (.h, 1, 2, 2), (.w, 2, 4, 4), (.d, 3, 8, 8), (.v64, 4, 64, 64), (.v, 5, 1024, 64)] →
      s.remoteData d size = .ok bs → target.toNat < 2 ^ 16 → ea.toNat % align = 0 → s.task.rstpOut < 256 →
      (∀ why, s.bindingOf s.part target.toNat = .error why → exec (.rstp g wd d ab off sa) s = .next (s.setTask { s.task with
        rstpFail := match s.task.rstpFail with
          | some f => some f
          | none => some { code := BitVec.ofNat 8 why, node := BitVec.ofNat 10 node, addr := ea } })) ∧
      ∀ job, s.bindingOf s.part target.toNat = .ok job →
        let t := (s.sendRemote .posted target ea job 3 code size bs).1
        exec (.rstp g wd d ab off sa) s = .next (t.setTask { t.task with rstpOut := t.task.rstpOut + 1 })) ∧
    (∀ (op : AtomOp) (f : Fmt) (sd : SReg), f ∈ [Fmt.i32, .i64, .f32] →
      let cut := fun r => (s.scalar r).toNat % 2 ^ fmtWidth f
      access (.ratom g op f sd ab off sa) (.atomic sd f) (fmtWidth f / 8) 4
        (atomCode op + atomCode op * 2 ^ 3 + (Fmt.enc f).toNat * 2 ^ 6) (fmtWidth f / 8)
        (toBytes 8 (cut sd) ++ toBytes 8 (cut (nextReg sd)))) ∧
    (0 < s.task.rstpOut → exec (.rfence g) s = .next (s.parkLater (.fence s.task.pc))) ∧
    (s.task.rstpOut = 0 → s.task.rstpFail = none → exec (.rfence g) s = .next s) ∧
    ∀ f, s.task.rstpOut = 0 → s.task.rstpFail = some f →
      exec (.rfence g) s = .next ((s.setTask { s.task with rstpFail := none }).defer 0x40 {
        cause := .remote, addr := f.addr, info := BitVec.ofNat 64 (f.code.toNat + f.node.toNat * 2 ^ 8),
        at_ := .address s.task.pc })

/-- O34. Under a true guard each branch and jump steers the task to its target, the bundle address or s[SA] plus the
sign-extended displacement, or s63, all modulo 2 to the 64; BRL and JMPL write the link into s63 after s[SA] has been
read. Outside a bundle in progress the task then stands at the target with nothing else changed, its loop stack
included. (R137, R138, R139, R267) -/
def Obligations.Branches : Prop :=
  ∀ (s : State) (g : Guard) (sa : SReg) (d : BitVec 22), s.guard g = true →
    let off := d.signExtend 64
    let linked := s.setTask { s.task.setScalar (.s 63) s.task.link with returns := (s.task.link :: s.task.returns).take 8 }
    exec (.br g d) s = .next (s.control (.go (s.task.pc + off))) ∧
    exec (.brl g d) s = .next (linked.control (.go (s.task.pc + off))) ∧
    exec (.jmp g sa d) s = .next (s.control (.go (s.scalar sa + off))) ∧
    exec (.jmpl g sa d) s = .next (linked.control (.go (s.scalar sa + off))) ∧
    exec (.ret g) s = .next ((s.setTask { s.task with returns := s.task.returns.tail }).control (.go (s.scalar (.s 63)))) ∧
    linked.task.scalar (.s 63) = s.task.link ∧ OnlyTask s linked ∧
    (∀ r, r ≠ .s 63 → linked.task.scalar r = s.task.scalar r) ∧ linked.task.loops = s.task.loops ∧
    ∀ pc, s.frame = none →
      OnlyTask s (s.control (.go pc)) ∧ (s.control (.go pc)).task = { s.task with pc := pc }

/-- O35. Under a true guard LOOP, LOOPI and LOOP.P complete wherever a level is free, and for LOOP.P no LOOP.P level is
open: with a count other than zero they push a level with that count, index 0, the end address, the next bundle as its
body, and count + S - 1 iterations where it has S stages; LOOP.P sets p8 all-true and p9 to p15 all-false; the first
fills of the tile entries bound to the level under the task's tag are raised, and no other entry changes; a seventh
level, or a second LOOP.P level, traps LOOPSTACK; a zero count pushes nothing and goes to the bundle after the end
bundle. LDELTA completes and sets one entry of the update table. (R137, R140, R143, R145, R246) -/
def Obligations.LoopPush : Prop :=
  ∀ (s : State) (g : Guard) (imm : BitVec 22), s.guard g = true →
    let end_ := s.task.pc + imm.signExtend 64
    let depth := s.task.loops.length
    let pushes := fun (i : Instr) (count : Word) (stages : Option Nat) =>
      (∀ after, count = 0 → s.afterEnd end_ = .ok after → exec i s = .next (s.control (.pass after))) ∧
      (count ≠ 0 → 6 ≤ depth → exec i s = .next (s.raise (preciseTrap .loopstack 0 1))) ∧
      (count ≠ 0 → depth < 6 → stages ≠ none → (∃ l, l ∈ s.task.loops ∧ l.stages ≠ none) →
        exec i s = .next (s.raise (preciseTrap .loopstack 0 3))) ∧
      (count ≠ 0 → depth < 6 → (stages = none ∨ ∀ l, l ∈ s.task.loops → l.stages = none) → Completes i s fun t =>
        let l : Level := { count := count, index := 0, endAddr := end_, body := s.task.link, stages := stages,
                           total := match stages with | some n => count.toNat + n - 1 | none => count.toNat }
        let u := s.setTask { s.task with loops := l :: s.task.loops, p := t.task.p }
        t = u.setCore (u.core.pushFills s.x s.preTask depth l) ∧ OnlyCore s t s.c ∧
        t.core = { u.core with tiles := t.core.tiles, issuedJobs := t.core.issuedJobs, bad := t.core.bad } ∧
        (∀ e, (∀ b, b ∈ s.core.boundTo s.x depth s.task.tag → e ≠ b ∧ ((s.core.tile b).pair = true → e ≠ b + 1)) →
          t.core.tile e = s.core.tile e) ∧
        ∀ n : BitVec 4, t.task.pred n =
          if stages = none ∨ n.toNat < 8 then s.task.pred n else if n.toNat = 8 then BitVec.allOnes 256 else 0)
    (∀ sa : SReg, pushes (.loop g sa imm) (s.scalar sa) none ∧
      ∀ n : BitVec 4, pushes (.loopP g sa n imm) (s.scalar sa) (some n.toNat)) ∧
    (∀ count : BitVec 14, pushes (.loopi g count imm) (count.setWidth 64) none) ∧
    ∀ (r : BitVec 5) (d : BitVec 3) (sa : SReg), Completes (.ldelta g r d sa) s fun t =>
      OnlyTask s t ∧ t.task = { s.task with delta := t.task.delta } ∧
      ∀ j q : Nat, q < 32 → SMap.get (0 : BitVec 32) t.task.delta (32 * j + q) =
        if j = d.toNat ∧ q = r.toNat then (s.scalar sa).setWidth 32 else SMap.get 0 s.task.delta (32 * j + q)

/-- O36. A loop-back of the innermost level either steps its index, adds its 32 deltas to the address registers,
rotates p8 to p15 of a LOOP.P level and returns to the body, or, at its total, pops the level and applies the rule to
the next level out with the same end address, or goes on at the next bundle. LCONT performs it at once, LBRK pops the
level and goes on after its end bundle, and both trap LOOPSTACK with 2 on an empty stack. (R141, R144, R145) -/
def Obligations.LoopBack : Prop :=
  (∀ (t : Task) (l : Level) (rest : List Level) (next : Word) (fuel : Nat), t.loops = l :: rest →
    let i := l.index + 1
    let u := t.loopBack next (fuel + 1)
    (i.toNat < l.total →
      u.pc = l.body ∧ u.loops = { l with index := i } :: rest ∧ u = { t with pc := u.pc, loops := u.loops, a := u.a, p := u.p } ∧
      (∀ r : BitVec 5, u.scalar (.a r) =
        t.scalar (.a r) + (SMap.get (0 : BitVec 32) t.delta (32 * rest.length + r.toNat)).signExtend 64) ∧
      ∀ n : BitVec 4, u.pred n =
        if l.stages = none ∨ n.toNat < 8 then t.pred n
        else if n.toNat = 8 then (if i.toNat < l.count.toNat then BitVec.allOnes 256 else 0)
        else t.pred (n - 1)) ∧
    (l.total ≤ i.toNat → (∀ o, rest.head? = some o → o.endAddr ≠ l.endAddr) → u = { t with loops := rest, pc := next }) ∧
    (l.total ≤ i.toNat → (∃ o, rest.head? = some o ∧ o.endAddr = l.endAddr) →
      u = ({ t with loops := rest } : Task).loopBack next fuel)) ∧
  (∀ (t : Task) (l : Level) (rest : List Level), t.loops = l :: rest →
    t.advance = if l.endAddr = t.pc then t.loopBack t.link 7 else { t with pc := t.link }) ∧
  ∀ (s : State) (g : Guard), s.guard g = true →
    (s.task.loops = [] → ∀ i, i ∈ [Instr.lbrk g, .lcont g] → exec i s = .next (s.raise (preciseTrap .loopstack 0 2))) ∧
    ∀ l rest, s.task.loops = l :: rest →
      (l.index.toNat + 1 < l.total → exec (.lcont g) s = .next (s.control (.loopBack l.body))) ∧
      ∀ after, s.afterEnd l.endAddr = .ok after →
        exec (.lbrk g) s = .next ((s.setTask { s.task with loops := rest }).control (.go after)) ∧
        (l.total ≤ l.index.toNat + 1 → exec (.lcont g) s = .next (s.control (.loopBack after)))

/-- O37. The NOP of each of the seven slot forms completes under any guard and leaves the state as it was; under a
true guard SYNC holds the masked queues until each has issued, and with LAND until their exposed results have landed,
and holds no other; SAFE traps LSRANGE for an index of LIVECNT or more, stops the task where a pre-emption is pending
and it is in no handler, and else has no effect; WAITX has no effect on a transfer below done-below, traps after its
bundle on a halted channel with the record of R242, and else parks. (R120, R122, R146, R147, R148, R168, R198, R242)
-/
def Obligations.OrderingAndWaits : Prop :=
  (∀ (g : Guard) (s : State) (i : Instr),
    i ∈ [.cNop g, .sNop g, .pNop g, .vNop g, .mNop g, .lNop g, .eNop g] → exec i s = .next s) ∧
  ∀ (s : State) (g : Guard), s.guard g = true →
    (∀ (mask : BitVec 4) (land : Bool), Completes (.sync g mask land) s fun t =>
      OnlyCore s t s.c ∧ t.core = { s.core with issue := t.core.issue } ∧
      t.core.issue = { s.core.issue with
        holdC := t.core.issue.holdC, holdV := t.core.issue.holdV, holdM := t.core.issue.holdM, holdL := t.core.issue.holdL } ∧
      ∀ q, q < 4 →
        (mask.getLsbD q = false → t.core.issue.hold q = s.core.issue.hold q) ∧
        (mask.getLsbD q = true → s.core.issue.hold q ≤ t.core.issue.hold q ∧
          (∀ r, r < 4 → mask.getLsbD r = true → s.core.issue.last r ≤ t.core.issue.hold q) ∧
          (land = true → ∀ p, p ∈ s.core.pend → p.ctx = s.x → mask.getLsbD (if p.isScale then 0 else 2) = true →
            p.due ≤ t.core.issue.hold q))) ∧
    (∀ map : BitVec 22,
      let n := match s.myLaunch with | some l => l.liveCnt | none => 0
      (n ≤ map.toNat → exec (.safe g map) s = .next (s.raise (preciseTrap .lsrange 0 (map.setWidth 64)))) ∧
      (map.toNat < n → s.preempted = true → s.task.handling = false →
        exec (.safe g map) s = .next (s.control (.stop map.toNat))) ∧
      (map.toNat < n → (s.preempted = false ∨ s.task.handling = true) → exec (.safe g map) s = .next s)) ∧
    ∀ (ch : BitVec 3) (sa : SReg),
      let p := s.core.pump ch.toNat
      let id := s.scalar sa
      let low := ch.toNat * 2 + p.failId.toNat % 2 ^ 28 * 2 ^ 4
      (id.ult p.below = true → exec (.waitx g ch sa) s = .next s) ∧
      (id.ult p.below = false → p.code = 0 → exec (.waitx g ch sa) s = .next (s.control (.park (.pump ch.toNat id)))) ∧
      (id.ult p.below = false → ∀ cause hi,
        (p.code.toNat, cause, hi) ∈ [(1, Cause.swtrap, 4), (2, .xlate, p.failInfo.toNat % 2 ^ 8), (3, .poison, 0), (4, .lsrange, 0), (5, .align, 0)] →
        exec (.waitx g ch sa) s = .next (s.control (.trapAfter {
          cause := cause, addr := p.failAddr, info := BitVec.ofNat 64 (hi * 2 ^ 32 + low), at_ := .link })))

/-- O38. Under a true guard PARK.YIELD parks with an immediate wake, PARK.TIME for s[SA] cycles, PARK.WORD, with no
engine job and no result of a query of the task in the way (log 70), where the word read under the tag rule equals s[SB] (a misaligned address traps
ALIGN, and one that cannot be read XLATE; a poisoned line raises a POISON trap to come and does not park), PARK.QUEUE
where the queue is empty (a core that is not its consumer traps QUEUE), and PGWAIT on the monitor of an entry that is
not valid (2 to the 55 or above traps XLATE with fault 3); otherwise they have no effect but the read's. That a poisoned
line does not park is log 102, the empty slot mask of its trap log 30. (R149, R153,
R220) -/
def Obligations.Parks : Prop :=
  ∀ (s : State) (g : Guard) (sa sb : SReg), s.guard g = true →
    exec (.parkYield g) s = .next (s.control (.park (.time s.now))) ∧
    exec (.parkTime g sa) s = .next (s.control (.park (.time (s.now + (s.scalar sa).toNat)))) ∧
    (let a := s.scalar sa
      let i := Instr.parkWord g sa sb
      (a.toNat % 8 ≠ 0 → exec i s = .next (s.raise (preciseTrap .align a a))) ∧
      (a.toNat % 8 = 0 → s.mustWaitJobs { glob := true, lo := a.toNat, hi := a.toNat + 8 } false = false →
        s.mustWaitResults { glob := true, lo := a.toNat, hi := a.toNat + 8 } = false →
        (∀ code level soft entry, s.readAt s.agent a.toNat 8 .read .plain = .error (.fault code level soft entry) →
          exec i s = .next (s.raise (preciseTrap .xlate a (BitVec.ofNat 64 (xlateInfo .read code level false))))) ∧
        ∀ u x l, s.readAt s.agent a.toNat 8 .read .plain = .ok (u, x, l) →
          let t := State.noteWalk s u a.toNat
          let w := BitVec.ofNat 64 (ofBytes (t.seenBytes t.task.tag l x (a.toNat % 64) 8))
          (x.poison = false →
            exec i s = .next (if w = s.scalar sb then t.control (.park (.word a (s.scalar sb))) else t)) ∧
          (x.poison = true → exec i s = .next (t.setTask { t.task with deferred := t.task.deferred ++
            [(0, { cause := .poison, addr := BitVec.ofNat 64 (lineOf a.toNat), info := 1, at_ := .firstUnissued })] })))) ∧
    (∀ k : BitVec 4, let q := s.myQueue k.toNat
      let mine := tagGen q.tag ≠ 0 ∧ q.cons.toNat = memberOf s.c
      (¬mine → exec (.parkQueue g k) s = .next (s.raise (preciseTrap .queue 0 (BitVec.ofNat 64 (k.toNat + 16))))) ∧
      (mine → exec (.parkQueue g k) s =
        .next (if q.fill = 0 then s.control (.park (.queueFill k.toNat 1)) else s))) ∧
    let a := s.scalar sa
    (2 ^ 55 ≤ a.toNat → exec (.pgwait g sa) s =
      .next (s.raise (preciseTrap .xlate a (BitVec.ofNat 64 (xlateInfo .read 3 0 false))))) ∧
    (∀ code level soft entry, a.toNat < 2 ^ 55 → s.walk s.part a.toNat = .error (.fault code level soft entry) →
      exec (.pgwait g sa) s = .next (s.raise (preciseTrap .xlate a (BitVec.ofNat 64 (xlateInfo .read code level false))))) ∧
    ∀ w, a.toNat < 2 ^ 55 → s.walk s.part a.toNat = .ok w →
      (s.entryValid s.part w.level w.entry = true → exec (.pgwait g sa) s = .next s) ∧
      (s.entryValid s.part w.level w.entry = false → ∀ u, s.armMonitor w.slot = .ok u →
        exec (.pgwait g sa) s = .next (u.control (.park (.page (lineOf w.slot)))))

/-- O39. Under a true guard TSPAWN starts a READY task in a FREE context of the same core at the launch's first code
line plus s[SA], with s1, a0, priority, tag and privilege from its spawner and every other register zero, and traps
SWTRAP with code 1 or 2 otherwise; TEXIT frees the task's context, and HALT does so and records the launch's first
halt code. That a busy context is looked at before the entry's offset is log 32, that CYCLE starts at 0 log 29. (R25, R150, R151) -/
def Obligations.TaskStartAndEnd : Prop :=
  ∀ (s : State) (g : Guard), s.guard g = true →
    (∀ (ctx : BitVec 4) (prio : BitVec 2) (sa sb : SReg),
      let i := Instr.tspawn g ctx prio sa sb
      let e := s.scalar sa
      ((s.core.task ctx.toNat).st ≠ .free →
        exec i s = .next (s.raise (preciseTrap .swtrap 0 (BitVec.ofNat 64 (2 ^ 32 + ctx.toNat))))) ∧
      (s.myLaunch = none → (s.core.task ctx.toNat).st = .free →
        exec i s = .next (s.raise (preciseTrap .swtrap 0 (BitVec.ofNat 64 (2 * 2 ^ 32 + e.toNat % 2 ^ 32))))) ∧
      ∀ l, s.myLaunch = some l → (s.core.task ctx.toNat).st = .free →
        (e.toNat % 64 ≠ 0 ∨ l.codeSize.toNat ≤ e.toNat →
          exec i s = .next (s.raise (preciseTrap .swtrap 0 (BitVec.ofNat 64 (2 * 2 ^ 32 + e.toNat % 2 ^ 32))))) ∧
        (e.toNat % 64 = 0 → e.toNat < l.codeSize.toNat → Completes i s fun t =>
          OnlyCore s t s.c ∧
          t.core = { s.core with tasks := t.core.tasks, leaving := t.core.leaving, bad := t.core.bad } ∧
          (∀ y, y ≠ ctx.toNat → t.core.task y = s.core.task y) ∧
          let n := t.core.task ctx.toNat
          n.st = .ready ∧ n.pc = l.base + l.codeOff + e ∧ n.scalar (.s 1) = s.scalar sb ∧ n.scalar (.a 0) = s.areg 0 ∧
          (∀ m, m ≠ 1 → n.scalar (.s m) = 0) ∧ (∀ m, m ≠ 0 → n.scalar (.a m) = 0) ∧ (∀ m, m ≠ 0 → n.pred m = 0) ∧
          n.prio = prio ∧ n.eff = prio ∧ n.tag = s.task.tag ∧ n.privileged = s.task.privileged ∧
          n.coreId = s.task.coreId ∧ n.launch = s.task.launch ∧ n.rally = s.task.rally ∧
          n.loops = [] ∧ n.delta = [] ∧ n.results = [] ∧ n.handling = false ∧ n.vec = 0 ∧ n.trap = TrapRec.zero ∧
          n.cycle + BitVec.ofNat 64 s.now = 0)) ∧
    exec (.texit g) s = .next (s.control .exit) ∧
    ∀ code : BitVec 16,
      (s.myLaunch = none → exec (.halt g code) s = .next (s.control .exit)) ∧
      ∀ n l, s.task.launch = some n → s.launch n = some l →
        exec (.halt g code) s = .next ((s.setLaunch n (some { l with halt := some (l.halt.getD code) })).control .exit)

/-- O40. Under a true guard BARQ and BARD set an expected count, which completes the phase at once where the arrivals
meet it, and trap LSRANGE outside their range; BARA records the phase with its arrived flag and arrives, which
completes the phase when the count is reached or the barrier is under another tag; BARW parks until the recorded phase
has passed; a completed phase adds 1 to the phase number and returns the arrivals to 0; a die barrier that is not
granted traps PRIV. That a barrier under another tag keeps its phase number while its arrivals count as none is log 34.
(R152, R402) -/
def Obligations.BarrierInstructions : Prop :=
  ∀ (s : State) (g : Guard) (b : BitVec 4), s.guard g = true →
    let bar := fun die => s.barrier die b.toNat
    let d := dieOfCore s.c
    let granted := s.field (partReg s.part (if d < 4 then 0x28 else 0x30)) (16 * (d % 4) + b.toNat) (16 * (d % 4) + b.toNat) = 1
    let refuse := fun op : Nat => Host.Outcome.next (s.raise (preciseTrap .priv 0 (BitVec.ofNat 64 op)))
    let completes := fun (t : State) die (x : Barrier) =>
      (t.setBarrier die b.toNat { x with arrived := 0, phase := x.phase + 1 }).wakeBarrier die b.toNat (x.phase + 1)
    (∀ (sa : SReg) (die : Bool) (i : Instr) (limit : Nat),
      (die, i, limit) ∈ [(false, Instr.barq g b sa, 64), (true, .bard g b sa, 512)] → (die = true → granted) →
      let n := s.scalar sa
      let x := bar die
      let y := { x with
        expected := n.toNat, arrived := if x.tag = s.task.tag then x.arrived else 0, tag := s.task.tag }
      (n = 0 ∨ limit < n.toNat → exec i s = .next (s.raise (preciseTrap .lsrange 0 n))) ∧
      (n ≠ 0 → n.toNat ≤ limit → exec i s =
        .next (if n.toNat ≤ y.arrived then completes s die y else s.setBarrier die b.toNat y))) ∧
    (∀ die : Bool, (die = true → granted) →
      let x := bar die
      let key := if die then 16 + b.toNat else b.toNat
      let ph := SMap.get 0 s.task.barPhase key
      let t := s.setTask { s.task with
        barPhase := SMap.set 0 s.task.barPhase key x.phase, barSeen := SMap.set false s.task.barSeen key true }
      let y := { x with arrived := x.arrived + 1 }
      exec (.bara g b die) s =
        .next (if x.tag ≠ s.task.tag ∨ x.expected ≤ y.arrived then completes t die y else t.setBarrier die b.toNat y) ∧
      exec (.barw g b die) s =
        .next (if SMap.get false s.task.barSeen key = true ∧ x.phase = ph then s.control (.park (.barrier die b.toNat ph))
          else s)) ∧
    (¬granted → (∀ sa, exec (.bard g b sa) s = refuse 0x12) ∧ exec (.bara g b true) s = refuse 0x13 ∧
      exec (.barw g b true) s = refuse 0x14)

/-- O41. Within a bundle a control effect, like a park that an L slot asks for, is only noted; once every slot has
committed it sends the task to its target, or past an end bundle, frees its context, parks it after the loop-back of its
bundle, takes the trap of a TRAP, returns from a trap, ends the task's tenancy or stops it at a safe point. A handler
that parks or exits releases the snapshot. A loop-back comes after the loads to address registers and stage predicates
that are in flight, and before a park, a trap, a return from one or a stop (log 24), and behind a LOOP of count zero (log 25);
it moves the scoreboard entries of the stage predicates that it rotates. (R27, R28, R35, R137, R141, R151, R280) -/
def Obligations.ControlEffects : Prop :=
  ∀ (s : State) (T : Nat),
    (∀ f c, s.frame = some f → s.control c = { s with frame := some { f with ctl := some c } }) ∧
    (∀ f c, s.frame = some f → s.parkLater c = { s with frame := some { f with park := some c } }) ∧
    (s.frame = none → (∀ c, s.control c = s.applyCtl s.now c) ∧ ∀ c, s.parkLater c = s.applyCtl s.now (.park c)) ∧
    (∀ pc, OnlyTask s (s.applyCtl T (.go pc)) ∧ (s.applyCtl T (.go pc)).task = { s.task with pc := pc }) ∧
    (∀ after, s.task.endsAt s.task.pc = false → s.applyCtl T (.pass after) = s.applyCtl T (.go after)) ∧
    (∀ after, s.task.endsAt s.task.pc = true → s.applyCtl T (.pass after) = s.applyCtl T (.loopBack after)) ∧
    ((∀ l, l ∈ s.core.loads → l.ctx = s.x → ∀ key, key ∈ l.keys → ∀ n, key ≠ .a n ∧ (8 ≤ n → key ≠ .p n)) →
      let turns := ∃ l, s.task.around 7 = some l ∧ l.stages ≠ none
      let turned := s.setCore { s.core with issue := s.core.issue.rotate s.x }
      s.goOn = (if s.task.endsAt s.task.pc = true ∧ turns then turned else s).stepLoops s.task.advance ∧
      ∀ after, s.applyCtl T (.loopBack after) = (if turns then turned else s).stepLoops (s.task.loopBack after 7)) ∧
    (let i := s.core.issue
      let j := i.rotate s.x
      j = { i with board := j.board } ∧ (∀ e, e.ctx ≠ s.x → (e ∈ j.board ↔ e ∈ i.board)) ∧
      (∀ e, (∀ n, e.key ≠ .p n) → (e ∈ j.board ↔ e ∈ i.board)) ∧
      ∀ e n, e ∈ i.board → e.ctx = s.x → e.key = .p n → 8 ≤ n → n < 15 → { e with key := .p (n + 1) } ∈ j.board) ∧
    s.applyCtl T .sequel = s.goOn ∧
    (let t := s.applyCtl T .exit;
      t.task = Task.free ∧ (∀ y, y ≠ s.x → t.core.task y = s.core.task y) ∧
      (∀ y, s.core.issuing = some y → t.core.issuing = if y = s.x then none else some y) ∧
      (s.task.handling = false → s.core.replay = false → t.core.pend = s.core.pend ∧ t.core.jobs = s.core.jobs ∧
        t.core.v = s.core.v ∧ t.core.acc = s.core.acc ∧ t = { s with cores := t.cores, later := t.later }) ∧
      (s.task.handling = true → t.core.snapshot = [])) ∧
    (∀ cause, let u := s.goOn
      let t := s.applyCtl T (.park cause)
      t.task = { u.task with st := .parked cause, stall := 0, stallOn := none, eff := u.task.prio, wakeAt := t.task.wakeAt } ∧
      ((∀ line, cause ≠ .page line) → t.task.wakeAt = u.task.wakeAt) ∧
      (s.core.issuing = some s.x → t.core.issuing = none) ∧ (s.task.handling = true → t.core.snapshot = [])) ∧
    (∀ tr, s.applyCtl T (.trapAfter tr) = s.goOn.takeTrap s.core.afterSlots 1 tr) ∧
    (let u := s.goOn
      let t := s.applyCtl T .eret;
      t.task = { u.task with handling := false, pc := u.task.trap.pc } ∧ t.core.replay = !u.core.snapshot.isEmpty ∧
      t.core.snapshot = u.core.snapshot ∧ T + 6 ≤ t.core.issue.dispatch) ∧
    s.applyCtl T .endTenancy = s.endTenancyOf s.part ∧
    ∀ live, let u := s.goOn
      let t := s.applyCtl T (.stop live)
      t.task = { u.task with st := .ready, stopped := some live, stall := 0, stallOn := none, eff := u.task.prio } ∧
      (s.core.issuing = some s.x → t.core.issuing = none)

/-- O42. Under a true guard TRAP completes: it traps SWTRAP with its immediate and the link value in TRAP.PC, at once
outside a bundle in progress and after the bundle within one. ERET completes in a handler: it returns from the trap, at
once or after its bundle, and outside a handler it traps SWTRAP with code 5. A trap at cycle T records cause, pc, slots,
address and information, sets H, sends the task to TRAP.VEC, and moves its pending results into the snapshot with their
distance from T; a trap in a handler or with no vector frees the context and is recorded as an error of the task's
launch. A return clears H and goes to TRAP.PC, and the snapshot replays from the cycle of the first bundle there (log 27). The
loop-back of a TRAP's or an ERET's bundle comes before its trap or return (log 24). (R154,
R155, R271, R272, R275, R276, R277, R278, R279) -/
def Obligations.TrapsAndReturns : Prop :=
  (∀ (s : State) (g : Guard), s.guard g = true →
    (∀ n : BitVec 22, let tr : Trap := { cause := .swtrap, addr := 0, info := n.setWidth 64, at_ := .link }
      Completes (.trap g n) s fun t =>
        (s.frame = none → t = s.goOn.takeTrap s.core.afterSlots 1 tr) ∧
        ∀ f, s.frame = some f → t = { s with frame := some { f with ctl := some (.trapAfter tr) } }) ∧
    (s.task.handling = true → Completes (.eret g) s fun t =>
      (s.frame = none → let u := s.goOn
        t.task = { u.task with handling := false, pc := u.task.trap.pc } ∧ OnlyCore u t s.c ∧
        t.core.replay = !u.core.snapshot.isEmpty ∧ t.core.snapshot = u.core.snapshot ∧ s.now + 6 ≤ t.core.issue.dispatch) ∧
      ∀ f, s.frame = some f → t = { s with frame := some { f with ctl := some .eret } }) ∧
    (s.task.handling = false → exec (.eret g) s = .next (s.raise (preciseTrap .swtrap 0 (BitVec.ofNat 64 (5 * 2 ^ 32)))))) ∧
  (∀ (s : State) (T : Nat) (slots : BitVec 8) (tr : Trap),
    let pc := match tr.at_ with | .link => s.task.link | .address a => a | _ => s.task.pc
    let rec_ : TrapRec := { cause := causeCode tr.cause, pc := pc, slots := slots, addr := tr.addr, info := tr.info }
    let t := s.takeTrap T slots tr
    (s.task.handling = false → s.task.vec ≠ 0 →
      t.task = { s.task with
        trap := rec_, handling := true, pc := s.task.vec, stall := 0, stallOn := none, wakeAt := t.task.wakeAt } ∧
      T + 6 ≤ t.core.issue.dispatch ∧
      t.core.pend = s.core.pend.filter (fun p => p.ctx ≠ s.x) ∧
      t.core.snapshot = (if s.core.replay then s.core.snapshot else []) ++
        (s.core.pend.filter fun p => p.ctx = s.x ∧ T < p.due).map fun p => { p with due := p.due - T }) ∧
    (s.task.handling = true ∨ s.task.vec = 0 →
      let u := ((s.landDue s.c T fun p => p.ctx == s.x).reportElement tr).endTask s.c s.x
      u.task = Task.free ∧
      (s.task.launch = none → t = u) ∧
      ∀ l, s.task.launch = some l → t = u.launchError l {
        kind := 1, cause := (causeCode tr.cause).toNat, coreId := s.task.coreId.toNat, ctx := s.x, pc := pc,
        addr := tr.addr, info := tr.info, slots := slots.toNat })) ∧
  (∀ (s : State) (T : Nat), let t := s.replaySnapshot T
    (s.core.replay = false → t = s) ∧
    (s.core.replay = true → t.core.snapshot = [] ∧ t.core.replay = false ∧ OnlyCore s t s.c ∧
      t.core.pend = (s.core.snapshot.map fun p => { p with due := T + p.due }) ++ s.core.pend)) ∧
  [Cause.illbundle, .priv, .lsrange, .align, .tilebind, .xlate, .remote, .poison, .volley, .swtrap, .queue, .loopstack, .stateue].map causeCode =
    [0x01, 0x02, 0x03, 0x04, 0x05, 0x06, 0x07, 0x08, 0x09, 0x0A, 0x0C, 0x0D, 0x0F]

/-- O43. Under a true guard MFS gives its destination the register that its number names, a queue's formats and state
reading zero under another tenancy; MTS writes PARK.THRESH, TRAP.PC, TRAP.VEC without its low six bits, and KFMT.k,
whose reserved codes trap QUEUE with reason 4. That the write of KFMT.k looks at no tag is log 127. (R61, R62, R63, R64, R65, R156, R286) -/
def Obligations.SystemRegisters : Prop :=
  ∀ (s : State) (g : Guard) (sd sa : SReg), s.guard g = true →
    let t := s.task
    let v := s.scalar sa
    (∀ num val, (num, val) ∈ [
        (0x000, t.coreId.setWidth 64), (0x001, BitVec.ofNat 64 s.x),
        (0x002, BitVec.ofNat 64 (s.part * 1024 + (s.ten s.part).gen.toNat) &&& 0xFFFF),
        (0x003, t.cycle + BitVec.ofNat 64 s.now), (0x004, BitVec.ofNat 64 t.loops.length), (0x005, t.parkThresh.setWidth 64),
        (0x006, BitVec.ofNat 64 (s.core.scr + (12 - s.core.scr) * 2 ^ 4 + (if s.core.splitBusy then 2 ^ 8 else 0))),
        (0x007, t.volleyFault.setWidth 64), (0x010, t.trap.cause.setWidth 64), (0x011, t.trap.pc),
        (0x012, t.trap.slots.setWidth 64), (0x013, t.trap.addr), (0x014, t.trap.info), (0x015, t.vec)] →
      WritesScalar (.mfs g sd (BitVec.ofNat 12 num)) s sd val) ∧
    (∀ k : BitVec 4, let q := s.myQueue k.toNat
      let own := fun x : Nat => if q.tag = t.tag ∧ s.lands t.tag = true then BitVec.ofNat 64 x else 0
      WritesScalar (.mfs g sd (0x040 + k.setWidth 12)) s sd (own ((Fmt.enc q.fs).toNat + (Fmt.enc q.fk).toNat * 2 ^ 4 +
        (RM.enc q.rm).toNat * 2 ^ 8 + (if q.sat then 2 ^ 11 else 0))) ∧
      WritesScalar (.mfs g sd (0x050 + k.setWidth 12)) s sd (own (q.fill + q.rd.toNat * 2 ^ 4)) ∧
      let fs := v.extractLsb' 0 4
      let fk := v.extractLsb' 4 4
      let rm := v.extractLsb' 8 3
      (fs.toNat < 10 → fk.toNat < 10 → rm.toNat < 5 → exec (.mts g (0x040 + k.setWidth 12) sa) s =
        .next (s.setMyQueue k.toNat { q with fs := Fmt.dec fs, fk := Fmt.dec fk, rm := RM.dec rm, sat := v.getLsbD 11 })) ∧
      (10 ≤ fs.toNat ∨ 10 ≤ fk.toNat ∨ 5 ≤ rm.toNat → exec (.mts g (0x040 + k.setWidth 12) sa) s =
        .next (s.raise (preciseTrap .queue 0 (BitVec.ofNat 64 (k.toNat + 16 * 4)))))) ∧
    exec (.mts g 0x005 sa) s = .next (s.setTask { t with parkThresh := v.setWidth 16 }) ∧
    exec (.mts g 0x011 sa) s = .next (s.setTask { t with trap := { t.trap with pc := v } }) ∧
    exec (.mts g 0x015 sa) s = .next (s.setTask { t with vec := (v >>> 6) <<< 6 })

/-- O44. An unprivileged task that issues one of the four traps PRIV with nothing changed; a partition operand above
63 traps LSRANGE. In a privileged task GENINC ends the partition's tenancy, by a step to the next generation or its
deferral, and gives the new tag (bit 63 for a deferral); GENRD reads the tag with its counts and flags; SWEEP sets a
rate and starts a pass where none runs; CKPT asks for the close of the partition's interval, once more where one runs. That GENINC of the task's
own partition ends the task and writes nothing is log 33. (R135, R157, R384, R389, R390, R392, R438) -/
def Obligations.PrivilegedInstructions : Prop :=
  ∀ (s : State) (g : Guard) (sd sp : SReg) (start : Bool) (rate : BitVec 4), s.guard g = true →
    (s.task.privileged = false → ∀ i op,
      (i, op) ∈ [(Instr.geninc g sd sp, 0x1A), (.genrd g sd sp, 0x1B), (.sweep g sp start rate, 0x1C), (.ckpt g sp, 0x1D)] →
      exec i s = .next (s.raise (preciseTrap .priv 0 op))) ∧
    (s.task.privileged = true →
      let v := s.scalar sp
      let p := v.toNat
      let coming := mkTag p (nextGen (s.ten p).gen).toNat
      let late := (1 <<< 63) ||| coming.setWidth 64
      (63 < p → ∀ i, i ∈ [Instr.geninc g sd sp, .genrd g sd sp, .ckpt g sp] →
        exec i s = .next (s.raise (preciseTrap .lsrange 0 v))) ∧
      (p ≤ 63 → (s.ten p).closed = true → WritesScalar (.geninc g sd sp) s sd late) ∧
      (p ≤ 63 → (s.ten p).closed = false → p = s.part → exec (.geninc g sd sp) s = .next (s.control .endTenancy)) ∧
      (p ≤ 63 → (s.ten p).closed = false → p ≠ s.part →
        (genDist (s.ten p).base (nextGen (s.ten p).gen) < 512 → ∃ t, exec (.geninc g sd sp) s =
          .next (t.putScalar sd (coming.setWidth 64)) ∧ t = s.stepNow p ∧
          (t.ten p).gen = nextGen (s.ten p).gen ∧ (t.ten p).closed = false ∧ t.sweeper.owed = true) ∧
        (512 ≤ genDist (s.ten p).base (nextGen (s.ten p).gen) → ∃ t, exec (.geninc g sd sp) s =
          .next (t.putScalar sd late) ∧ t = s.deferStep p ∧
          (t.ten p).gen = (s.ten p).gen ∧ (t.ten p).closed = true ∧ t.sweeper.running = true)) ∧
      (p ≤ 63 → WritesScalar (.genrd g sd sp) s sd (BitVec.ofNat 64 ((s.curTag p).toNat +
        (if s.oldOps p < 2 ^ 32 then s.oldOps p else 2 ^ 32 - 1) * 2 ^ 16 + (if (s.ten p).closed then 2 ^ 48 else 0) +
        (if s.sweeper.running then 2 ^ 49 else 0)))) ∧
      (v ≠ 0 → exec (.sweep g sp start rate) s = .next (s.raise (preciseTrap .lsrange 0 v))) ∧
      (v = 0 →
        let u : State := { s with sweeper := { s.sweeper with rate := if rate = 0 then s.sweeper.rate else rate } }
        exec (.sweep g sp start rate) s =
          .next (if start = true ∧ s.sweeper.running = false then u.startPass else u)) ∧
      (p ≤ 63 → Completes (.ckpt g sp) s fun t => let r := partReg p 0xF8
        (s.field r 32 32 = 0 → t = s.setField r 32 32 1) ∧
        (s.field r 32 32 = 1 → t = { s with ckptNext := SMap.set 0 s.ckptNext p (SMap.get 0 s.ckptNext p + 1) })))

/-- O45. The end of a SPLIT's occupancy and of a TLB walk let L and E slots go on; the scoreboard drops what has been
delivered; the first load whose data is due, behind the earlier loads to its registers, reaches its destination under
its tag, with a POISON trap to come for a poisoned line and absent lanes cleared, or is discarded under a tag that no
longer lands; an XLD, a contribution or a push that is due lands in its destination or is dropped and counted; the
oldest producer write is placed behind its queue's last entry. That a load's value was read at issue is log 7, the
order of queue landings log 8, the empty slot mask of the POISON trap log 30. (R58, R191, R203, R204, R218, R219, R220, R257, R263, R308, R388) -/
def Obligations.CoreArrivals : Prop :=
  ∀ (s : State) (n : Nat),
    let k := s.coreAt n
    exec (.splitOccupancyEnd n) s =
      .next (if k.splitBusy = true ∧ k.splitEnd ≤ k.clock then s.setCoreAt n { k with splitBusy := false } else s) ∧
    exec (.tlbWalkComplete n) s = .next (s.setCoreAt n { k with walk := none }) ∧
    Completes (.resultDelivery n) s (fun t => OnlyCore s t n ∧
      t.coreAt n = { k with issue := { k.issue with board := (t.coreAt n).issue.board } } ∧
      ∀ e, e ∈ (t.coreAt n).issue.board ↔ e ∈ k.issue.board ∧ (k.clock < e.deliver ∨ k.clock < e.lastRead)) ∧
    ((∀ l, l ∈ k.loads → k.clock < l.due) → exec (.loadDataReturn n) s = .next s) ∧
    (∀ before l after, k.loads = before ++ l :: after → (∀ m, m ∈ before → k.clock < m.due) → l.due ≤ k.clock →
      (∀ m, m ∈ before → ∀ key, key ∈ m.keys → key ∉ l.keys) → k.nextLoad = some l) ∧
    (∀ l m before between after, k.loads = before ++ m :: between ++ l :: after → m.ctx = l.ctx →
      (∃ key, key ∈ m.keys ∧ key ∈ l.keys) → l ∉ m :: before → k.nextLoad ≠ some l) ∧
    (∀ l, k.nextLoad = some l →
      (s.lands l.tag = false → exec (.loadDataReturn n) s = .next (s.setCoreAt n { k with loads := k.loads.erase l })) ∧
      (s.lands l.tag = true → Completes (.loadDataReturn n) s fun t =>
        let d : VBits := l.data
        let old := k.task l.ctx
        let new := (t.coreAt n).task l.ctx
        let here := old.st ≠ .free ∧ old.tag = l.tag
        OnlyCore s t n ∧ (t.coreAt n).loads = k.loads.erase l ∧
        (∀ r, l.dest = .scalar r → new.scalar r = afterWrite r (d.setWidth 64) (old.scalar r)) ∧
        (∀ v len, l.dest = .vector v len → len ≤ 1024 →
          let r := SMap.get VReg.zero k.v v
          let w := SMap.get VReg.zero (t.coreAt n).v v
          w.tag = l.tag ∧ ∀ i, i < 1024 → w.data.extractLsb' (8 * i) 8 =
            if i < len then d.extractLsb' (8 * i) 8 else if r.tag = l.tag then r.data.extractLsb' (8 * i) 8 else 0) ∧
        (∀ row, l.dest = .latch row →
          SMap.get LatchRow.zero (t.coreAt n).latch row = { data := d.setWidth 1024, tag := l.tag }) ∧
        (∀ line, here → l.poison = some line → new.deferred = old.deferred ++
          [(0, { cause := .poison, addr := line, info := 1, at_ := .firstUnissued })]) ∧
        (here → l.poison = none → new.deferred = old.deferred) ∧
        (here → l.pr ≠ 0 → new.pred l.pr = old.pred l.pr &&& l.keep))) ∧
    (∀ (i : Instr) (which : Pend → Bool),
      (i, which) ∈ [(Instr.xldLanding n, Pend.isScale), (.contributionLanding n, Pend.isAcc), (.pushLanding n, Pend.isPush)] →
      ∀ p, k.pend.filter (fun p => which p && decide (p.due ≤ k.clock)) = [p] →
        let u := { k with pend := k.pend.filter fun p => !(which p && decide (p.due ≤ k.clock)) }
        (s.lands p.tag = false → exec i s = .next ((s.setCoreAt n u).countDrop p.tag)) ∧
        (s.lands p.tag = true → exec i s = .next (s.setCoreAt n (u.land p)))) ∧
    (∀ (u : Core) (p : Pend),
      (∀ x d, p.what = .scale x d → SMap.get XReg.zero (u.land p).x x = { data := d, tag := p.tag }) ∧
      (∀ x d, p.what = .push x d → SMap.get VReg.zero (u.land p).planes x = { data := d, tag := p.tag }) ∧
      ∀ row int over_ d, p.what = .acc row int over_ d →
        let old := SMap.get AccRow.zero u.acc row
        let new := SMap.get AccRow.zero (u.land p).acc row
        new.tag = p.tag ∧ ∀ c, c < 64 → rowVal new.data c =
          if over_ then rowVal d c
          else (let m := if old.tag = p.tag then rowVal old.data c else 0
            (if int then m + rowVal d c else addF32 .rne m (rowVal d c)) % 2 ^ 32)) ∧
    ∀ quad j, let q := s.queue quad j
      (q.landing = [] → exec (.queueProducerLanding quad j) s = .next s) ∧
      ∀ l rest, q.landing = l :: rest →
        (s.quadClock quad < l.due → exec (.queueProducerLanding quad j) s = .next s) ∧
        (l.due ≤ s.quadClock quad → s.lands l.tag = false → exec (.queueProducerLanding quad j) s =
          .next (((s.setQueue quad j { q with landing := rest }).countDrop l.tag).wakeQueue quad j)) ∧
        (l.due ≤ s.quadClock quad → s.lands l.tag = true → Completes (.queueProducerLanding quad j) s fun t =>
          let es := SMap.set VReg.zero q.entries ((q.rd.toNat + q.fill) % 8) { data := l.data, tag := l.tag }
          t.queue quad j = { q with landing := rest, fill := q.fill + 1, entries := es })

/-- O46. A queue or tile stall parks its task once it exceeds PARK.THRESH or the picker has stopped its dispatch; a
parked task whose wake event has occurred becomes READY, or waits for what else its bundle asked for; 4,096 cycles
passed over raise the effective priority by one, up to 3; a task READY above the ISSUING one's effective priority stops
its dispatch; after 2,048 cycles a raised priority returns and the turn ends, with a rival READY, or a new one begins; a
switch takes 4 cycles, to a READY task of the highest effective priority, and the incoming task becomes ISSUING; the slots
that a parking task has dispatched and not issued go on once it holds the pipeline again. That a new turn begins at the
2,048th cycle of the last is log 114, that a bundle's two parks are waited for one after the other log 44. (R27, R28, R29,
R30, R31, R32, R270, R280) -/
def Obligations.TaskPicker : Prop :=
  ∀ (s : State) (n x : Nat),
    let k := s.coreAt n
    let t := k.task x
    (t.stallOn = none → exec (.stallPark n x) s = .next s) ∧
    (∀ c, t.stallOn = some c →
      let parks := k.issuing = some x ∧ (t.parkThresh.toNat < t.stall ∨ k.leaving = true)
      let u : State := { s with c := n, x := x }
      (parks → exec (.stallPark n x) s = .next (u.cutShort.parkNow c)) ∧
      (k.issue.lastSlot < k.clock → u.cutShort = u) ∧ OnlyCore u u.cutShort n ∧ u.cutShort.core.tasks = k.tasks ∧
      (k.clock ≤ k.issue.lastSlot → ∃ cut, SMap.get none u.cutShort.core.cuts x = some cut) ∧
      (¬parks → exec (.stallPark n x) s = .next s)) ∧
    ((∀ c, t.st ≠ .parked c) → exec (.taskWake n x) s = .next s) ∧
    (∀ c, t.st = .parked c →
      (t.wakeAt = none → s.causeMet n x c = false → exec (.taskWake n x) s = .next s) ∧
      (t.wakeAt ≠ none ∨ s.causeMet n x c = true → Completes (.taskWake n x) s fun u =>
        let w := u.taskAt n x
        w.st = (match t.andThen with | some c2 => .parked c2 | none => .ready) ∧ w.wakeAt = none ∧ w.andThen = none ∧
        (t.andThen = none → w.passed = 0) ∧
        w.pc = t.pc ∧ w.s = t.s ∧ w.a = t.a ∧ w.p = t.p ∧ w.loops = t.loops)) ∧
    exec (.priorityPromotion n x) s = .next (if t.st = .ready ∧ 4096 ≤ t.passed then
        (s.setTaskAt n x { t with eff := if t.eff = 3 then 3 else t.eff + 1, passed := t.passed - 4096 }).challenge n x
      else s) ∧
    (k.issuing = none → s.challenge n x = s) ∧
    (∀ y, k.issuing = some y → s.challenge n x =
      if x ∈ k.candidates ∧ (k.task y).eff.toNat < t.eff.toNat then s.setCoreAt n { k with leaving := true } else s) ∧
    (k.issuing = none → exec (.turnEnd n) s = .next s) ∧
    (k.issuing = some x → exec (.turnEnd n) s = .next (
      if k.leaving = true ∨ k.clock - k.turnStart < 2048 then s
      else if ∃ y, y ∈ k.candidates ∧ t.eff.toNat ≤ (k.task y).eff.toNat then
        s.setCoreAt n { k.setTask x { t with eff := t.prio } with leaving := true }
      else s.setCoreAt n { k.setTask x { t with eff := t.prio } with turnStart := k.turnStart + 2048 })) ∧
    (∀ y, k.pick = some y → y ∈ k.candidates ∧ ∀ z, z ∈ k.candidates → (k.task z).eff.toNat ≤ (k.task y).eff.toNat) ∧
    (∀ w, k.switch = some w → exec (.switchBegin n) s = .next s) ∧
    (k.switch = none → k.issuing = none →
      (k.pick = none → exec (.switchBegin n) s = .next s) ∧
      ∀ y, k.pick = some y → exec (.switchBegin n) s = .next (s.setCoreAt n { k with
        switch := some { dest := y, end_ := k.clock + 4 }, lastWin := SMap.set 15 k.lastWin (k.task y).eff.toNat y })) ∧
    (k.switch = none → k.issuing = some x →
      (¬(k.leaving = true ∧ t.stallOn = none ∧ k.drained x = true) → exec (.switchBegin n) s = .next s) ∧
      (k.leaving = true → t.stallOn = none → k.drained x = true → k.pick = none →
        exec (.switchBegin n) s = .next (s.setCoreAt n { k with leaving := false, turnStart := k.clock })) ∧
      (k.leaving = true → t.stallOn = none → k.drained x = true → ∀ y, k.pick = some y → Completes (.switchBegin n) s fun u =>
        (u.coreAt n).switch = some { dest := y, end_ := k.clock + 4 } ∧ (u.coreAt n).issuing = none ∧ (u.coreAt n).replay = false ∧ u.taskAt n x = { t with st := .ready, eff := t.prio, passed := 0 } ∧
        (t.handling = true → (u.coreAt n).snapshot = []))) ∧
    (k.switch = none → exec (.switchEnd n) s = .next s) ∧
    ∀ w, k.switch = some w →
      (k.clock < w.end_ → exec (.switchEnd n) s = .next s) ∧
      (w.end_ ≤ k.clock → (k.task w.dest).st ≠ .ready → exec (.switchEnd n) s = .next (s.setCoreAt n { k with switch := none })) ∧
      (w.end_ ≤ k.clock → (k.task w.dest).st = .ready → (k.task w.dest).stopped = none → (1, w.dest) ∉ k.bad →
        let k1 := ({ k with switch := none } : Core).goOnFrom w.dest w.end_
        (SMap.get none k.cuts w.dest = none → k1 = { k with switch := none }) ∧
        k1 = { k with switch := none, cuts := k1.cuts, pend := k1.pend, issue := k1.issue } ∧
        SMap.get none k1.cuts w.dest = none ∧
        exec (.switchEnd n) s = .next (s.setCoreAt n {
          k1.setTask w.dest { k.task w.dest with st := .issuing, passed := 0 } with
            issuing := some w.dest, turnStart := k.clock,
            leaving := decide (∃ y, y ∈ k.candidates ∧ y ≠ w.dest ∧ (k.task w.dest).eff.toNat < (k.task y).eff.toNat),
            issue := { k1.issue with
              dispatch := if k1.issue.dispatch ≤ w.end_ then w.end_ else k1.issue.dispatch, owed := false } }))

/-- O47. An unfilled stash sector is filled from its global memory; a tile fill brings in elements of the tensor and the
pad value elsewhere and makes its entry ready, a drain writes the elements inside the tensor and empties it, and a fill
that fails leaves a code; a pump job begins when accepted, moves, completes 32 cycles or more after its issue and passes
done-below, or halts its channel; range jobs, write-backs and the lines of a WATOMR take effect; a volley is driven once
its receivers are ready, each latch taking the data or faulting; a spill stall ends with a free entry, and a held
posting goes to a ring with space. That a line is one event is log 54 and 55, and where a line of a job's nest ends, with
done-below past a cleared channel's next identifier, log 57; the banks that an engine's access takes are log 116, the slot
mask 0 of a sender's deferred trap is log 30, and a volley over a stash range that cannot be read or filled log 122. (R230, R236, R239, R242,
R243, R247, R248, R249, R250, R288, R296, R374) -/
def Obligations.EngineEvents : Prop :=
  ∀ (s : State) (n e ch : Nat),
    let k := s.coreAt n
    (∀ sector, let x := k.stashEntry e
      (x.active = false ∨ x.size ≤ 16 * sector → exec (.stashFill n e sector) s = .next s) ∧
      (x.active = true → 16 * sector < x.size → x.glob % 16 = 0 → (s.sector n e sector).filled = false →
        (s.sector n e sector).dirty = false →
        ∀ u ln l, s.readAt { part := tagPart x.tag, tag := x.tag, core := some n } (x.glob + 16 * sector) 16 .read .plain =
            .ok (u, ln, l) →
          Completes (.stashFill n e sector) s fun t =>
            t.sector n e sector = { filled := true, dirty := false, at_ := some l.addr } ∧
            let a := u.sectorAddr n e sector
            SMap.get nullTag t.tags (a / 64) = x.tag ∧
            (a % 16 = 0 → t.rawBytes a 16 = u.seenBytes x.tag l ln ((x.glob + 16 * sector) % 64) 16))) ∧
    (let t := k.tile e
      let idle := fun (st : TileState) => t.st ≠ st ∨ s.tileBlocked n t = true
      (idle .filling ∨ t.volley = true → exec (.tileFillComplete n e) s = .next s) ∧
      (idle .draining → exec (.tileDrainComplete n e) s = .next s) ∧
      (¬idle .filling → t.volley = false → ∀ u x, s.tensorOf t = .ok (u, x) → ∀ v m, u.tileLines t (x.lines t) = .ok (v, m) →
        (let store := v.engineStore t.tag n t.base ((List.range t.rows).flatMap fun r => x.row t m r) (ownAddress n t.base);
          (∀ w pz, store = .ok (w, pz) → exec (.tileFillComplete n e) s =
            .next (w.setCoreAt n ((w.coreAt n).setTile e (t.next .ready)))) ∧
          ∀ tr, store = .error (.trap tr) → exec (.tileFillComplete n e) s = .next (s.tileFails n e 4 tr.addr tr.info)) ∧
        ∀ r j, j < 1024 / fmtWidth x.fmt → ofBytes (x.row t m r) / 2 ^ (fmtWidth x.fmt * j) % 2 ^ fmtWidth x.fmt =
          (if x.inside (t.coord r j) = true then elementAt m (x.addr (t.coord r j)) (fmtWidth x.fmt / 4) else x.pad) %
            2 ^ fmtWidth x.fmt) ∧
      (∀ c addr info, ¬idle .filling → t.volley = false → s.tensorOf t = .error (.code c addr info) →
        exec (.tileFillComplete n e) s = .next (s.tileFails n e c addr info)) ∧
      (¬idle .draining → ∀ u x, s.tensorOf t = .ok (u, x) → ∀ v bs, u.tileRows n t = .ok (v, bs) → ∀ w,
        (x.drainRuns t bs).foldlM (fun s h => s.drainRun t h) v = .ok w →
        exec (.tileDrainComplete n e) s = .next (w.setCoreAt n ((w.coreAt n).setTile e (t.next .empty)))) ∧
      (t.queued = none → ∀ st, t.next st = { t with st := st, volley := false })) ∧
    (n < 256 → let p := k.pump ch
      ∀ j rest, p.code = 0 → p.jobs = j :: rest →
        let put := fun (u : State) (j : PumpJob) =>
          u.setCoreAt n ((u.coreAt n).setPump ch { (u.coreAt n).pump ch with jobs := j :: ((u.coreAt n).pump ch).jobs.tail })
        let stop := fun (code : BitVec 8) (addr info : Word) => s.setCoreAt n (k.setPump ch { p with
          code := code, failId := j.id, failAddr := addr, failInfo := info, failLaunch := j.launch })
        (j.started = false → j.accepted = true → s.jobBlocked n j.ctx j.order [j.regions.1] [j.regions.2] = false →
          exec (.pumpJobStart n ch) s = .next (put s { j with started := true })) ∧
        (j.started = false → j.accepted = false →
          exec (.pumpJobHalt n ch) s = .next ((stop 1 j.ccbAddr 0).wakeWaitx n ch)) ∧
        (j.started = true → j.done < j.total → ∀ u d, s.pumpLine n (some n) j 63 = .ok (u, d) →
          exec (.pumpJobComplete n ch) s = .next (put u { j with done := d })) ∧
        (j.kind = .copy → s.pumpLine n (some n) j 63 = s.pumpMove n (some n) j) ∧
        (j.started = true → j.done < j.total → ∀ tr, s.pumpLine n (some n) j 63 = .error (.trap tr) → tr.cause ≠ .poison →
          exec (.pumpJobHalt n ch) s = .next ((stop (match tr.cause with | .xlate => 2 | .lsrange => 4 | .align => 5 | _ => 1)
            tr.addr tr.info).wakeWaitx n ch)) ∧
        (j.started = true → j.total ≤ j.done → j.issued + 32 ≤ k.clock →
          exec (.pumpJobComplete n ch) s = .next ((s.setCoreAt n (k.setPump ch { p with
            jobs := rest,
            below := BitVec.ofNat 64 (max (max p.below.toNat (j.id.toNat + 1)) (j.through.getD 0).toNat) })).wakeWaitx n ch)) ∧
        (j.started = true → j.total ≤ j.done → k.clock < j.issued + 32 → exec (.pumpJobComplete n ch) s = .next s)) ∧
    (∀ j, k.jobs.find? (fun j => j.isRange && !s.rangeBlocked n j) = some j →
      let u := s.setCoreAt n { k with jobs := k.jobs.erase j }
      let ag : Agent := { part := tagPart j.tag, tag := j.tag, core := some n }
      (∀ va len, j.what = .discard va len → exec (.engineRangeJobComplete n) s = .next (u.discardRange ag va len)) ∧
      (∀ va len inval w, j.what = .flush va len inval → u.flushRange ag va len inval = .ok w →
        exec (.engineRangeJobComplete n) s = .next w) ∧
      ∀ f remove w, j.what = .writeback f remove → u.writebackAll n f = .ok w →
        exec (.engineRangeJobComplete n) s = .next (
          if remove = true ∧ ((w.coreAt n).stashEntry f).fault = none then w.setCoreAt n ((w.coreAt n).setStash f Stash.none)
          else w)) ∧
    (∀ j op f l rest data va, k.jobs.find? (fun j => !j.isRange && !s.rangeBlocked n j) = some j →
      j.what = .reduce op f (l :: rest) data va →
      let j1 := { j with what := .reduce op f rest (data >>> (if f = .bf16 then 256 else 512)) (va + 64) }
      let u := s.setCoreAt n { k with
        jobs := if rest = [] then k.jobs.erase j else k.jobs.map fun y => if y = j then j1 else y }
      ∀ v pa, u.giveUpLine l = .ok (v, pa) → let x := v.rawLine pa
      x.poison = false → v.stackFailedAt l = false → ∃ bs : List Byte, bs.length = 64 ∧
        exec (.wellheadUpdate n) s = .next (v.wellheadPut (tagPart j.tag) j.tag l pa 0 bs) ∧
        ∀ i, i < 16 → ofBytes ((bs.drop (4 * i)).take 4) =
          watomrElem op f (if x.tag = j.tag then x.data.toNat / 2 ^ (32 * i) % 2 ^ 32 else 0) (reduceOperand f data i) % 2 ^ 32) ∧
    ((∀ v, v ∈ k.sends → v.ctx ≠ e) → exec (.volleyDrive n e) s = .next s) ∧
    (∀ v, k.sends.find? (fun v => v.ctx == e) = some v →
      (s.volleyReady n v = false → exec (.volleyDrive n e) s = .next s) ∧
      (s.volleyReady n v = true →
        let read := s.engineLoad v.tag n v.off (64 * v.len) (ownAddress n v.off)
        (∀ tr, read = .error (.trap tr) →
          exec (.volleyDrive n e) s = .next (s.endSend n v v.mask (some { tr with at_ := .firstUnissued }))) ∧
        ∀ u bs pz w bad, read = .ok (u, bs, pz) → u.driveAll n v bs = .ok (w, bad) →
          exec (.volleyDrive n e) s = .next (w.endSend n v bad (pz.map poisonTrap)))) ∧
    (∀ (v : Send) (bad : BitVec 32) (tr : Option Trap),
      let t := s.endSend n v bad tr
      let w := k.task v.ctx
      OnlyCore s t n ∧ (t.coreAt n).sends = k.sends.erase v ∧
      (w.st ≠ .free → w.tag = v.tag → w.launch = v.launch → (t.coreAt n).task v.ctx = { w with
        vsendLast := v.num, volleyFault := bad, deferred := w.deferred ++ (tr.map fun x => (0, x)).toList })) ∧
    (∀ (v : Send) (bs : List Byte) i m l, s.receivers n v = [(i, some (m, some l))] → ∀ t ok, s.drive m l bs = .ok (t, ok) →
      s.driveAll n v bs = .ok (t, if ok then 0 else BitVec.ofNat 32 (2 ^ i))) ∧
    (∀ m l bs,
      (s.latchCheck m l bs.length ≠ 0 → s.drive m l bs = .ok (s.latchFails m l (s.latchCheck m l bs.length), false)) ∧
      let off := match l.dest with | .range a => a % 2 ^ 20 | .tile x => ((s.coreAt m).tile x).base
      let store := s.engineStore l.tag m off bs (ownAddress m off)
      s.latchCheck m l bs.length = 0 →
        (∀ tr, store = .error (.trap tr) → s.drive m l bs = .ok (s.latchFails m l 2, false)) ∧
        ∀ u pz, store = .ok (u, pz) → let c := (u.coreAt m).endLatch l .ready
          s.drive m l bs = .ok (u.setCoreAt m (if c.latcher l = true then
            c.setTask l.ctx { c.task l.ctx with vlatchLast := l.num } else c), true)) ∧
    (let d := s.die e;
      exec (.spillStallRelease e) s =
        .next (if d.spillStall = true ∧ d.spill.length < 64 then s.setDie e { d with spillStall := false } else s)) ∧
    (SMap.get [] s.held e = [] → exec (.heldPostingRelease e) s = .next (s.postUnposted e)) ∧
    ∀ x rest, SMap.get [] s.held e = x :: rest →
      (s.ringSpace e = false → exec (.heldPostingRelease e) s = .next s) ∧
      (s.ringSpace e = true → exec (.heldPostingRelease e) s = .next (
        let t := ({ s with held := SMap.set [] s.held e rest } : State).writePosting e x
        (if rest = [] then t.setField (partReg e 0x88) 1 1 0 else t).postUnposted e))

/-- O48. A notify write offers a tail within the ring and sets AQ.ERR otherwise; the packet at the head of an enabled
queue is copied and the head moves on, or it is refused for its PASID; a packet begins when it is the next of its
partition, completes with status 4 if it is malformed, and else does what R358 gives its type; a COPY's moves are
those of a pump's job; a write to a BARRIER's line marks it met, which completes it, and a poll reads a host word again;
completion writes the two words of the signal and raises the interrupt, or waits until it can. A packet of no type of
R357 is taken by the launch event (log 50), GEN's partition is the word at 0x18 (log 51), the events of a COPY's job name
core 256 + q (log 56), and a word that cannot be read meets nothing when it is read again (log 118). (R19, R20, R21, R22,
R354, R355, R356, R357, R358, R359, R360, R390) -/
def Obligations.DispatcherEvents : Prop :=
  ∀ (s : State) (q idx : Nat),
    let head := s.field (queueReg q 0x10) 31 0
    let cfg := fun (hi lo : Nat) => s.field (queueReg q 8) hi lo
    (∀ (off width : Nat) (v : Word),
      let t := v.toNat % 2 ^ 32
      (s.inReset = true ∨ off % 4096 ≠ 0 ∨ 64 < off / 4096 ∨ (width ≠ 4 ∧ width ≠ 8) →
        exec (.notifyWrite off width v) s = .next s) ∧
      (s.inReset = false → off = 4096 * q → q ≤ 64 → width = 4 ∨ width = 8 →
        exec (.notifyWrite off width v) s = .next (
          if (t + 2 ^ 32 - head) % 2 ^ 32 ≤ 2 ^ cfg 3 0 then s.setField (queueReg q 0x18) 31 0 t else s.queueError q 1 t))) ∧
    (s.mayFetch q = true ↔ cfg 4 4 = 1 ∧ head ≠ s.field (queueReg q 0x18) 31 0 ∧
      (s.packets.filter fun k => k.q == q).length < 64) ∧
    (s.mayFetch q = false → exec (.packetFetch q) s = .next s) ∧
    (s.mayFetch q = true →
      let u := s.setField (queueReg q 0x10) 31 0 (head + 1)
      let bs := s.rawBytes (hostAddr (cfg 31 12) (s.field (queueReg q 0) 63 6 * 64 + 64 * (head % 2 ^ cfg 3 0))) 64
      let ok := cfg 32 32 ≠ 0 ∧ bits (BitVec.ofNat 64 (ofBytes (bs.take 8))) 51 32 = cfg 31 12
      (¬ok → exec (.packetFetch q) s = .next (u.queueError q 0 head)) ∧
      (ok → ∃ k : Packet, exec (.packetFetch q) s = .next { u with packets := s.packets ++ [k] } ∧
        k.q = q ∧ k.idx = head ∧ k.part = cfg 10 5 ∧ k.pasid = cfg 31 12 ∧ k.begun = false ∧ k.copy = none ∧ k.outcome = none ∧
        ∀ i, i < 8 → k.word i = BitVec.ofNat 64 (ofBytes ((bs.drop (8 * i)).take 8)))) ∧
    (s.packetAt q idx = none → ∀ i,
      i ∈ [Instr.launch q idx, .copy q idx, .rallyLoad q idx, .gen q idx, .barrier q idx, .fence q idx] → exec i s = .next s) ∧
    (∀ core ctx va v, let t := s.taskAt core ctx
      let now := s.peek { part := tagPart t.tag, tag := t.tag, core := some core } va.toNat
      t.st = .parked (.word va v) →
        (∀ w a, now = some (w, .host a) →
          exec (.hostWordPoll (.task core ctx)) s = .next (if w ≠ v then s.wake core ctx else s)) ∧
        ((∀ w a, now ≠ some (w, .host a)) → exec (.hostWordPoll (.task core ctx)) s = .next s)) ∧
    (∀ core ctx, (∀ va v, (s.taskAt core ctx).st ≠ .parked (.word va v)) →
      exec (.hostWordPoll (.task core ctx)) s = .next s) ∧
    ∀ k, s.packetAt q idx = some k →
      let first := s.toBegin k.part = some k
      let u := s.begin k
      let good := k.headerOk = true ∧ k.bodyOk = true
      let done := fun (t : State) (code detail hi : Nat) => Host.Outcome.next (t.completePacket k code detail hi)
      (∀ i, (k.type, i) ∈ [(2, Instr.copy q idx), (3, .rallyLoad q idx), (4, .gen q idx), (5, .barrier q idx), (6, .fence q idx)] ∨
          ((k.type < 2 ∨ 6 < k.type) ∧ i = .launch q idx) →
        (k.begun = false → ¬first → exec i s = .next s) ∧ (first → ¬good → exec i s = done u 4 0 0)) ∧
      (first → good → k.type = 6 → exec (.fence q idx) s = done u 0 0 0) ∧
      (∀ x, k.meets x = true ↔ let w := (k.word 4).toNat
        (k.word 5 = 0 ∧ w ≤ x) ∨ (k.word 5 = 1 ∧ x = w) ∨ (1 < (k.word 5).toNat ∧ x ≠ w)) ∧
      (∀ (i : Instr) (t : State), k.type = 5 →
        (first ∧ good ∧ i = .barrier q idx ∧ t = u) ∨
          (k.begun = true ∧ k.outcome = none ∧ i = .hostWordPoll (.packet q idx) ∧ t = s) →
        let y := { k with begun := true }
        (∀ c, t.dispRead k.part (k.word 3).toNat 8 = .fails c → exec i s = .next (t.completePacket y 6 c 0)) ∧
        (∀ v, t.dispRead k.part (k.word 3).toNat 8 = .wait v → exec i s = .next s) ∧
        ∀ v bs, t.dispRead k.part (k.word 3).toNat 8 = .ok v bs →
          exec i s = .next (if k.meets (ofBytes bs) = true then v.completePacket y 0 0 0 else v)) ∧
      (k.type = 5 → k.begun = true → k.outcome = none →
        exec (.barrierConditionMet q idx) s = if k.met = true then done s 0 0 0 else .next s) ∧
      (∀ a w l, k.type = 5 → k.begun = true → s.locate (s.partAgent k.part) (k.word 3).toNat = some l →
        s.peek (s.partAgent k.part) (k.word 3).toNat = some (w, l) → lineOf l.addr = a → k.meets w.toNat = true →
        { k with met := true } ∈ (s.rereadLine a).packets) ∧
      (k.type = 4 → let p := (k.word 3).toNat
        let finish := fun (t : State) => if (t.ten p).closed = true then Host.Outcome.next t else done t 0 0 (t.curTag p).toNat
        (first → good → q ≠ 64 → exec (.gen q idx) s = done u 5 0 0) ∧
        (first → good → q = 64 → exec (.gen q idx) s = finish (u.endTenancyOf p)) ∧
        (k.begun = true → k.outcome = none → exec (.gen q idx) s = finish s)) ∧
      (first → good → k.type = 1 →
        (u.readImage k.part (k.word 3) = .refused → exec (.launch q idx) s = done u 3 0 0) ∧
        (∀ c, u.readImage k.part (k.word 3) = .fails c → exec (.launch q idx) s = done u 6 c 0) ∧
        ∀ v h ps, u.readImage k.part (k.word 3) = .ok v h ps →
          let quads := v.ownedQuads k.part
          (k.word 3).toNat % 64 = 0 ∧ 1 ≤ h.quads ∧ h.quads ≤ quads.length ∧ h.codeOff % 64 = 0 ∧ h.codeSize % 64 = 0 ∧
          h.codeSize ≠ 0 ∧ h.placeOff % 8 = 0 ∧ 1 ≤ h.placeCnt ∧ h.placeCnt ≤ 4096 ∧ 1 ≤ h.spacing ∧ h.spacing ≤ 40000 ∧
          (∀ w, w ∈ ps → bits w 5 0 < h.quads ∧ bits w 15 14 = 0 ∧ bits w 47 16 % 64 = 0 ∧ bits w 47 16 < h.codeSize) ∧
          (v.quadsReady (quads.take h.quads) = false → exec (.launch q idx) s = .next s) ∧
          (v.quadsReady (quads.take h.quads) = true → ∃ l : Launch,
            exec (.launch q idx) s = .next ((({ v with nextLaunch := v.nextLaunch + 1 } : State).setLaunch v.nextLaunch
              (some l)).setPacket { k with begun := true, launch := some v.nextLaunch }) ∧
            l.part = k.part ∧ l.q = q ∧ l.idx = idx ∧ l.base = k.word 3 ∧ l.arg = k.word 4 ∧ l.err = k.word 5 ∧
            l.quads = quads.take h.quads ∧ l.waiting = ps ∧ l.priv = decide (q = 64) ∧ l.errors = 0 ∧ l.halt = none)) ∧
      (first → good → k.type = 2 →
        (∀ c, u.dispRead k.part (k.word 3).toNat 64 = .fails c → exec (.copy q idx) s = done u 6 c 0) ∧
        ∀ v bs, u.dispRead k.part (k.word 3).toNat 64 = .ok v bs → ∃ j : PumpJob,
          j.ccb = bytesToLine bs ∧ j.tag = v.curTag k.part ∧ j.done = 0 ∧
          j.kind = (if k.word 4 = 1 then .copy else if k.word 4 = 2 then .transpose else .reduce) ∧
          let c := readCcb j.ccb
          exec (.copy q idx) s = if c.ss = true ∨ c.ds = true ∨ j.accepted = false then done v 8 0 0
            else .next (v.setPacket { k with begun := true, copy := some j })) ∧
      (∀ j, k.copy = some j → k.outcome = none → j.started = true → j.issued = 0 →
        (j.total ≤ j.done → exec (.pumpJobComplete (256 + q) idx) s = done s 0 0 0) ∧
        (j.done < j.total → ∀ t d, s.pumpLine 0 none j 63 = .ok (t, d) → exec (.pumpJobComplete (256 + q) idx) s =
          .next (t.setPacket { k with copy := some { j with done := d } })) ∧
        (j.done < j.total → ∀ tr, s.pumpLine 0 none j 63 = .error (.trap tr) → tr.cause ≠ .poison →
          exec (.pumpJobHalt (256 + q) idx) s =
            done s 6 (match tr.cause with | .xlate => 2 | .lsrange => 4 | .align => 5 | _ => 1) 0)) ∧
      ∀ (t : State) (c d h : Nat),
        let ended := fun (x : State) => { x with packets := x.packets.filter fun y => !(y.q == k.q && y.idx == k.idx) }
        (k.signal = 0 → t.completePacket k c d h = ended (if k.irq = true then t.queueEvent k.q 0 else t)) ∧
        (k.signal ≠ 0 → k.signal.toNat % 16 = 0 → t.poisonedAt (t.partAgent k.part) k.signal.toNat = false →
          let ag := t.partAgent k.part
          let first := t.tryWrite ag k.signal.toNat
            (toBytes 8 (c + d % 2 ^ 8 * 2 ^ 8 + h % 2 ^ 16 * 2 ^ 16 + k.idx % 2 ^ 32 * 2 ^ 32))
          let held := fun (x : State) => x.setPacket { k with begun := true, outcome := some (c, d, h) }
          (∀ y, first = .wait y → t.completePacket k c d h = held y) ∧
          ∀ v, first = .done v () → let second := v.tryWrite ag (k.signal + 8).toNat (toBytes 8 k.sigval.toNat)
            (∀ y, second = .wait y → t.completePacket k c d h = held t) ∧
            ∀ w, second = .done w () → t.completePacket k c d h = ended (if k.irq = true then w.queueEvent k.q 0 else w))

/-- O49. A free quad goes to the next partition with work, once what another left there is saved; a slice that ends is
followed by another of its partition, or its partition is asked to stop, or the quad becomes free; a partition that is
quiescent on every quad concerned leaves them with its record saved, or keeps them where its area is too small; a task
that overruns its spacing is recorded; SAVE writes the image with its header and CRC or fails with its code, and RESTORE
loads an image that passes its checks or fails with its code. That engine jobs which a save has stopped are work is log 63, the size of a
slice-end save log 58, the layout of sections 4 to 7 log 59, launches over SAVE log 60, a quad left with nothing on it
log 104. (R35, R36, R38, R284, R363, R364, R395, R396, R397, R399, R400, R403) -/
def Obligations.SliceAndContextEvents : Prop :=
  ∀ (s : State) (quad p : Nat),
    let st := SMap.get none s.slices quad
    let group := fun (p : Nat) => (s.group quad).filter fun q => match SMap.get none s.slices q with
      | some y => y.part == p && y.quiesce.isNone
      | none => false
    (∀ q left, let t := s.giveSlice q p left
      SMap.get none t.slices q = some { part := p, left := left, endsAt := s.time + s.field (partReg p 8) 13 0 * 1000, quiesce := none } ∧
      (∀ r, r ≠ q → SMap.get none t.slices r = SMap.get none s.slices r) ∧
      let u := s.quiesce q p left
      SMap.get none u.slices q = some { part := p, left := left, endsAt := s.time, quiesce := some s.time } ∧
      ∀ r, r ≠ q → SMap.get none u.slices r = SMap.get none s.slices r) ∧
    (st ≠ none → exec (.sliceStart quad) s = .next s) ∧
    (st = none → s.nextTurn quad = none → exec (.sliceStart quad) s = .next s) ∧
    (st = none → s.nextTurn quad = some p → (∀ q x, q ∈ s.group quad → SMap.get none s.slices q = some x → x.quiesce = none) →
      let free := (s.group quad).filter fun q => (SMap.get none s.slices q).isNone
      ((∀ q, q ∈ free → s.leftOn q p = none) →
        (∀ u, s.readPolicy p = .done u () → exec (.sliceStart quad) s =
          .next (free.foldl (fun s q => (s.resumeQuad q p).giveSlice q p (s.weight p - 1)) u)) ∧
        ∀ u, s.readPolicy p = .wait u → exec (.sliceStart quad) s = .next u) ∧
      (∀ q o, free = [q] → s.leftOn q p = some o → exec (.sliceStart quad) s = .next (s.quiesce q o 0))) ∧
    (st = none → exec (.sliceEnd quad) s = .next s ∧ exec (.contextSave quad) s = .next s) ∧
    (∀ x, st = some x →
      let work := s.hasWork x.part (s.group quad) = true
      let u := (s.releaseMask (group x.part)).regroup (s.group quad)
      let again := u.mayRun x.part = true ∧ work ∧ (0 < x.left ∨ u.nextTurn quad = some x.part)
      let leaves := fun (t : State) (q : Nat) =>
        if t.nothingOn q x.part = true ∨ (t.nextTurn q = none ∧ ¬work) then t.freeQuad q else t.quiesce q x.part x.left
      let goesOn := fun (t : State) (q : Nat) => if t.inUse x.part q = true then
          (t.resumeQuad q x.part).giveSlice q x.part (if 0 < x.left then x.left - 1 else u.weight x.part - 1)
        else leaves t q
      (x.quiesce ≠ none ∨ (s.time < x.endsAt ∧ work) → exec (.sliceEnd quad) s = .next s) ∧
      (x.quiesce = none → ¬(s.time < x.endsAt ∧ work) →
        (¬again → exec (.sliceEnd quad) s = .next ((group x.part).foldl leaves u)) ∧
        (again → (∀ v, u.readPolicy x.part = .done v () →
            exec (.sliceEnd quad) s = .next ((group x.part).foldl goesOn v)) ∧
          ∀ v, u.readPolicy x.part = .wait v → exec (.sliceEnd quad) s = .next v)) ∧
      let r := partReg x.part 0xD8
      let command := s.field r 1 0 = 1
      let quads := (List.range 64).filter fun q =>
        (match SMap.get none s.slices q with | some y => y.part == x.part && y.quiesce.isSome | none => false) &&
          (s.field r 1 0 == 1 || (s.group quad).contains q)
      let asked := { s with fresh := s.fresh + 1 }
      let fits := command ∨ Config.saveUnits s.fresh ≤ s.field (partReg x.part 0xC8) 23 0
      (x.quiesce = none ∨ (∃ q, q ∈ quads ∧ s.quadQuiet q x.part = false) → exec (.contextSave quad) s = .next s) ∧
      (x.quiesce ≠ none → (∀ q, q ∈ quads → s.quadQuiet q x.part = true) →
        (fits → (∀ v, quads.foldlM (fun (t : State) q => t.beforeSave q x.part) asked = .ok v →
            exec (.contextSave quad) s =
              .next ((quads.foldl (fun t q => (t.saveQuad q x.part).freeQuad q) v).releaseMask quads)) ∧
          ∀ v, quads.foldlM (fun (t : State) q => t.beforeSave q x.part) asked = .error v →
            exec (.contextSave quad) s = .next v) ∧
        (¬fits → Completes (.contextSave quad) s fun t =>
          (∀ q, q ∈ quads ∨ (q ∈ s.group quad ∧ SMap.get none s.slices q = none ∧ s.inUse x.part q = true) →
            SMap.get none t.slices q = some { part := x.part, left := 0, endsAt := s.time + s.sliceNs x.part, quiesce := none }) ∧
          t.field r 3 3 = 1 ∧ t.field r 11 4 = 1))) ∧
    (let t := (s.saveQuad quad p).freeQuad quad;
      SMap.get none t.slices quad = none ∧
      (∀ n c, quadOf n = quad → (t.taskAt n c).st = .free ∨ tagPart (t.taskAt n c).tag ≠ p) ∧
      ∃ r, SMap.get none t.saved (64 * p + quad) = some r ∧
        (∀ m c y, m < 4 → (c, y) ∈ s.tasksOn (4 * quad + m) p → ∃ z, (4 * quad + m, c, z) ∈ r.tasks ∧
          z.pc = y.pc ∧ z.s = y.s ∧ z.a = y.a ∧ z.p = y.p ∧ z.loops = y.loops ∧ z.trap = y.trap ∧ z.vec = y.vec ∧
          z.delta = y.delta ∧ z.cycle = y.cycle + BitVec.ofNat 64 (s.coreAt (4 * quad + m)).clock)) ∧
    (∀ core ctx (ns : BitVec 48) x (l : Launch), let t := s.taskAt core ctx
      SMap.get none s.slices (quadOf core) = some x → t.launch.bind s.launch = some l →
      let due := x.quiesce ≠ none ∧ x.part = tagPart t.tag ∧ t.st ≠ .free ∧ t.stopped = none ∧ t.overran = false ∧ l.spacing < ns.toNat
      let r := partReg (tagPart t.tag) 0xD8
      let u := s.setTaskAt core ctx { t with overran := true }
      let first := fun (parked : Nat) => Host.Outcome.next ((u.setReg (partReg (tagPart t.tag) 0xE0)
        (BitVec.ofNat 64 (t.coreId.toNat + ctx % 16 * 2 ^ 8 + parked * 2 ^ 12 + ns.toNat * 2 ^ 16))).setField r 12 12 1)
      (¬due → exec (.spacingOverrun core ctx ns) s = .next s) ∧
      (due → u.field r 12 12 = 1 → exec (.spacingOverrun core ctx ns) s = .next u) ∧
      (due → u.field r 12 12 ≠ 1 → ((∀ c, t.st ≠ .parked c) → exec (.spacingOverrun core ctx ns) s = first 0) ∧
        ∀ c, t.st = .parked c → exec (.spacingOverrun core ctx ns) s = first 1)) ∧
    let r := partReg p 0xD8
    let base := s.field (partReg p 0xC0) 56 16 * 2 ^ 16
    let size := s.field (partReg p 0xC8) 23 0 * 2 ^ 16
    (s.field r 1 0 ≠ 1 → s.field r 1 0 ≠ 2 → exec (.save p) s = .next s) ∧
    (s.field r 1 0 = 1 → exec (.save p) s = .next (if s.offQuads p = true then s.setField r 1 0 2 else s)) ∧
    (s.field r 1 0 = 2 → (s.flushCisterns p).area p = (base, size) →
      let u := s.flushCisterns p
      let bs := u.image p
      (size < bs.length → exec (.save p) s = .next (u.commandFailed p 1)) ∧
      let lines := fun (i : Nat) => i < (bs.length + 63) / 64
      let bad := Config.physLimit < base + bs.length ∨ ∃ i, lines i ∧ u.stackFailed (base + 64 * i) = true
      let held := ∃ i, lines i ∧ u.stackReady (base + 64 * i) = false
      (bs.length ≤ size → bad → exec (.save p) s = .next (u.commandFailed p 6)) ∧
      (bs.length ≤ size → ¬bad → held → exec (.save p) s = .next s) ∧
      (bs.length ≤ size → ¬bad → ¬held → Completes (.save p) s fun t =>
        let w := u.deviceWrite base bs
        t = { w with regs := t.regs, saved := t.saved } ∧ t.field r 63 32 = (bs.length + 65535) / 65536 % 2 ^ 32 ∧
        t.field r 14 14 = 1 ∧ t.field r 2 2 = 1 ∧ t.field r 1 0 = 0 ∧
        ∀ q, q < 64 → p < 64 → SMap.get none t.saved (64 * p + q) = none) ∧
      ofBytes (bs.take 4) = 0x58434E47 ∧ ofBytes ((bs.drop 4).take 2) = 0x100 ∧ ofBytes ((bs.drop 6).take 1) = p % 2 ^ 8 ∧
      ofBytes ((bs.drop 0x38).take 4) = crc32c (bs.take 0x38 ++ bs.drop 0x40) % 2 ^ 32) ∧
    (∀ c, let t := s.commandFailed p c
      t.field r 1 0 = 0 ∧ t.field r 3 3 = 1 ∧ t.field r 11 4 = c % 2 ^ 8) ∧
    (s.field r 1 0 ≠ 3 → exec (.restore p) s = .next s) ∧
    (s.field r 1 0 = 3 → s.idle p = false → exec (.restore p) s = .next (s.commandFailed p 4)) ∧
    (s.field r 1 0 = 3 → s.idle p = true →
      (∀ c, s.openImage p = .error c → exec (.restore p) s = .next (s.commandFailed p c)) ∧
      ∀ parts quads, s.openImage p = .ok (parts, quads) →
        let qs := s.ownedQuads p
        let taken := ∃ q, q ∈ parts.queries ∧ s.slotTaken p q = true
        (qs.length < quads → exec (.restore p) s = .next (s.commandFailed p 9)) ∧
        (quads ≤ qs.length → taken → exec (.restore p) s = .next (s.commandFailed p 5)) ∧
        (quads ≤ qs.length → ¬taken → Completes (.restore p) s fun t =>
          t.field r 1 0 = 0 ∧ t.field r 2 2 = 1 ∧ t.field r 14 14 = 0 ∧
          (let y := t.rallyOf p;
            y = { parts.rally with tag := s.curTag p, live := y.live, posted := y.posted }) ∧
          ∀ q, q ∈ qs.take quads → ∃ x, SMap.get none t.saved (64 * p + q) = some x ∧
            x.tasks.length = (parts.saved.tasks.filter fun y => quadOf (physicalCore qs y.1) == q).length) ∧
        ∃ h bs, s.deviceRead base 64 = some h ∧ s.deviceRead base (ofBytes ((h.drop 0x10).take 8)) = some bs ∧
          ofBytes (h.take 4) = 0x58434E47 ∧ ofBytes ((h.drop 4).take 2) = 0x100 ∧ ofBytes ((h.drop 0x10).take 8) ≤ size ∧
          crc32c (bs.take 0x38 ++ bs.drop 0x40) = ofBytes ((h.drop 0x38).take 4))

/-- O50. A write to PT.SD begins a shoot-down, or sets SDLOST while one is busy; a core's acknowledgement drops its TLB
entries of the named pages once the stash sectors that map them are written back and unfilled, and the last one ends
it; each die takes up what the named cistern entries say, and spilled lines whose page now has a frame go to it; a
valid migration record starts, its lines move in ascending order, its entry is stored when all have moved, and its
state becomes 2 when its shoot-down is over; a visit of the sweeper gives a stale element the null tag and changes
nothing else, and a pass that is over rebases every partition. A record that would lie above the memory stops (log 107). Which updates
delay an acknowledgement is log 65, which old translation a write-back uses log 66, that a posting which finds no space is
made again and the DIE field of kinds 3 and 4 log 67, what ends a pass log 47, when a die learns a backing log 120. (R282, R291, R372, R375,
R376, R377, R378, R391, R392) -/
def Obligations.ShootDownsMigrationAndSweep : Prop :=
  ∀ (s : State) (p rec core key : Nat),
    (∀ w : Word, let v := w &&& 0xFFFFFFFFFFF
      let busy := s.field (partReg p 0x80) 44 44 = 1
      (s.inReset = true → exec (.shootdown p w) s = .next s) ∧
      (s.inReset = false → busy → exec (.shootdown p w) s = .next (s.setField (partReg p 0x88) 2 2 1)) ∧
      (s.inReset = false → ¬busy → exec (.shootdown p w) s =
        .next ((s.setReg (partReg p 0x80) (v ||| 2 ^ 44)).beginShoot p v)) ∧
      let t := s.beginShoot key v
      SMap.get none t.shoots key = some { value := v, cores := List.range 256 } ∧
      (∀ j, j ≠ key → SMap.get none t.shoots j = SMap.get none s.shoots j) ∧
      ∀ d x, s.dies = [(d, x)] → s.rereadCisterns p v = (s.setDie d { x with
        backed := (x.backed.filter fun b => !(b.part == p && sdNames v b.page)) ++
          (x.namedPages p v).filterMap (s.rereadPage d p) }).drainSpill d) ∧
    (∀ page w, s.walk p (page * 65536) = .ok w → s.entryValid p w.level w.entry = true → bits w.entry 9 7 ≠ 4 →
      s.rereadPage key p page = if bits w.entry 9 7 = 1 ∧ bits w.entry 12 10 = key then
        some { part := p, page := page, frame := entryAddr w.entry } else none) ∧
    (∀ c, (s.die key).spill = [c] →
      ((s.die key).frameOf c.key = none → s.drainSpill key = s) ∧
      ∀ pa, (s.die key).frameOf c.key = some pa →
        s.drainSpill key = (s.setDie key { s.die key with spill := [] }).sendFrame (tagPart c.tag) pa c.line) ∧
    (∀ (v : Word) (page : Nat), sdNames v page = true ↔
      v.getLsbD 43 = true ∨ (bits v 38 0 ≤ page ∧ page < bits v 38 0 + 2 ^ bits v 42 39)) ∧
    (SMap.get none s.shoots key = none →
      exec (.shootdownAck key core) s = .next s ∧ exec (.shootdownDone key) s = .next s) ∧
    (∀ x, SMap.get none s.shoots key = some x →
      let q := if key < 64 then key else (key - 64) / 4096
      let k := s.coreAt core
      let waits := core ∉ x.cores ∨ k.updatesIn q x.value = true
      (waits → exec (.shootdownAck key core) s = .next s) ∧
      (¬waits → ∀ u, (k.stash.filter fun y => tagPart y.2.tag == q).foldlM (fun (t : State) y => t.shootStash core y.1 x.value) s =
          .ok u → Completes (.shootdownAck key core) s fun t =>
        t = { u.setCoreAt core { u.coreAt core with
          tlb := (u.coreAt core).tlb.filter fun e => !(e.part == q && sdNamesEntry x.value e) } with shoots := t.shoots } ∧
        SMap.get none t.shoots key = some { x with cores := x.cores.filter (· != core) } ∧
        (∀ e, e ∈ (t.coreAt core).tlb → ¬(e.part = q ∧ sdNamesEntry x.value e = true))) ∧
      (∀ e i c, (k.stashEntry e).sectors = [(i, c)] → c.dirty = false → s.shootStash core e x.value = .ok (
        if sdNames x.value (((k.stashEntry e).glob + 16 * i) / 65536) = true then s.setSector core e i Sector.none else s)) ∧
      (64 ≤ key ∨ x.cores ≠ [] → exec (.shootdownDone key) s = .next s) ∧
      (key < 64 → x.cores = [] → ∀ u,
        s.post key { page := bits x.value 38 0, die := 0, kind := 4, detail := 0 } = some u → exec (.shootdownDone key) s =
          .next (({ u with shoots := SMap.set none u.shoots key none } : State).setField (partReg key 0x80) 44 44 0))) ∧
    (let r := s.recordAddr p rec
      let old := s.word64 r
      let new := s.word64 (r + 8)
      let state := bits (s.word64 (r + 0x10)) 1 0
      let page := bits (s.word64 (r + 0x18)) 38 0
      let own := SMap.get none s.shoots (64 + 4096 * p + rec)
      (Config.physLimit < r + 256 → exec (.migrationLineMove p rec) s = .fault (.noMemory r) ∧
        exec (.migrationFinish p rec) s = .fault (.noMemory r) ∧ exec (.migrationDone p rec) s = .fault (.noMemory r) ∧
        (s.inReset = false → exec (.migrationStart p rec) s = .fault (.noMemory r))) ∧
      (s.inReset = true → exec (.migrationStart p rec) s = .next s) ∧
      (∀ (e : Word) (o : Bool), recordEntryOk e o = true ↔ bits e 63 57 = 0 ∧ bits e 6 6 = 0 ∧
        ((bits e 9 7 = 0 ∧ bits e 15 10 = 0 ∧ entryAddr e < Config.physLimit) ∨
          (bits e 9 7 = 1 ∧ bits e 15 13 = 0 ∧ entryAddr e < Config.physLimit) ∨
          (bits e 9 7 = 2 ∧ o = true ∧ bits e 15 10 = 0))) ∧
      (r + 256 ≤ Config.physLimit →
        let ok := state = 0 ∧ recordEntryOk old true = true ∧ recordEntryOk new false = true ∧ new.getLsbD 0 = true ∧
          ∀ i, i < 12 → s.word64 (r + 0x20 + 8 * i) = 0
        (s.inReset = false → ok → exec (.migrationStart p rec) s =
          .next { s.putWord (r + 0x10) 1 with moving := s.moving ++ [(p, rec)] }) ∧
        (s.inReset = false → ¬ok → exec (.migrationStart p rec) s = .next (s.setField (partReg p 0x88) 3 3 1)) ∧
        (state ≠ 1 → exec (.migrationLineMove p rec) s = .next s ∧ exec (.migrationFinish p rec) s = .next s) ∧
        (state = 1 →
          ((∀ l, l < 1024 → s.lineMoved p rec l = true) → exec (.migrationLineMove p rec) s = .next s) ∧
          (∀ l, l < 1024 → s.lineMoved p rec l = false → (∀ j, j < l → s.lineMoved p rec j = true) →
            (∀ t, s.moveLine p rec page l = .ok t → exec (.migrationLineMove p rec) s = .next t) ∧
            exec (.migrationFinish p rec) s = .next s) ∧
          (own ≠ none → exec (.migrationFinish p rec) s = .next s) ∧
          ((∀ l, l < 1024 → s.lineMoved p rec l = true) → own = none →
            ∀ w, s.walk p (page * 65536) = .ok w → bits w.entry 9 7 = 4 → bits w.entry 27 16 = rec →
            exec (.migrationFinish p rec) s = .next ((s.putWord w.slot (new ||| (w.entry &&& 24))).beginShoot
              (64 + 4096 * p + rec) (BitVec.ofNat 64 page)))) ∧
        (own = none → exec (.migrationDone p rec) s = .next s) ∧
        ∀ x, own = some x →
          (x.cores ≠ [] → exec (.migrationDone p rec) s = .next s) ∧
          ∀ u, x.cores = [] → s.post p { page := bits x.value 38 0, die := 0, kind := 3, detail := rec } = some u →
            let v := u.putWord (r + 0x10) (putBits (u.word64 (r + 0x10)) 1 0 2)
            exec (.migrationDone p rec) s = .next { v with
              shoots := SMap.set none v.shoots (64 + 4096 * p + rec) none, moving := v.moving.filter (· != (p, rec)) })) ∧
    exec .sweepPassStart s = .next (if s.sweeper.owed = true ∧ s.sweeper.running = false then s.startPass else s) ∧
    (∀ t : Tag, s.sweepTag t = if tagGen t ≠ 0 ∧ tagGen t ≠ (s.ten (tagPart t)).gen.toNat then mkTag (tagPart t) 0 else t) ∧
    (∀ e, (s.sweeper.running = false ∨ e ∉ s.sweeper.todo → exec (.sweepElement e) s = .next s) ∧
      (s.sweeper.running = true → e ∈ s.sweeper.todo → exec (.sweepElement e) s =
        let t := s.sweepAt e
        .next { t with sweeper := { t.sweeper with todo := t.sweeper.todo.erase e } })) ∧
    (∀ n i,
      (s.sweepAt (.ctx n i)).taskAt n i = { s.taskAt n i with tag := s.sweepTag (s.taskAt n i).tag } ∧
      (let old := SMap.get VReg.zero (s.coreAt n).v i;
        SMap.get VReg.zero ((s.sweepAt (.vreg n i)).coreAt n).v i = { old with tag := s.sweepTag old.tag }) ∧
      (let old := SMap.get AccRow.zero (s.coreAt n).acc i;
        SMap.get AccRow.zero ((s.sweepAt (.accRow n i)).coreAt n).acc i = { old with tag := s.sweepTag old.tag }) ∧
      (let old := SMap.get XReg.zero (s.coreAt n).x i;
        SMap.get XReg.zero ((s.sweepAt (.scale n i)).coreAt n).x i = { old with tag := s.sweepTag old.tag }) ∧
      (let old := SMap.get VReg.zero (s.coreAt n).planes i;
        SMap.get VReg.zero ((s.sweepAt (.plane n i)).coreAt n).planes i = { old with tag := s.sweepTag old.tag }) ∧
      (s.sweepAt (.queue n i)).queue n i = { s.queue n i with tag := s.sweepTag (s.queue n i).tag } ∧
      (let l := localAddr n (64 * i) / 64;
        s.sweepAt (.localLine n i) = { s with tags := SMap.set nullTag s.tags l (s.sweepTag (SMap.get nullTag s.tags l)) }) ∧
      s.sweepAt (.hbmLine i) = { s with tags := SMap.set nullTag s.tags i (s.sweepTag (SMap.get nullTag s.tags i)) }) ∧
    let over_ := s.sweeper.running = true ∧ s.sweeper.todo = [] ∧ ∀ p, p < 64 → s.oldOps p = 0
    (¬over_ → exec .sweepPassComplete s = .next s) ∧
    (over_ → (∀ p, p < 64 → (s.ten p).closed = false) → Completes .sweepPassComplete s fun t =>
      t.sweeper = { s.sweeper with running := false, passes := s.sweeper.passes + 1 } ∧
      ∀ p, p < 64 → t.ten p = { s.ten p with base := SMap.get 0 s.sweeper.startGens p }) ∧
    (over_ → ∀ u, u = { s.rebase with sweeper := { s.rebase.sweeper with running := false, passes := s.rebase.sweeper.passes + 1 } } →
      exec .sweepPassComplete s = .next ((List.range 64).foldl (fun s p => if (s.ten p).closed = true then s.stepNow p else s) u))

/-- O51. A port sends again what a report asks for, else the next flit of its packet, else the header of a packet that
its channel's allowance lets through, sealed with its sequence number and CRC and kept for replay; a flit in sequence
is accepted and a whole packet is kept, with the binding of its job and the tag that hold as it arrives, or goes on, any
other is discarded with a report; a report frees what it acknowledges, and one that shows a loss counts the flits lost as
passed; a header that waits too long takes the escape channel; training marks a neighbour's port up, but not port 31 of a
node that is its own polar; a written
node identifier makes the ports train again. A packet's flits read back as the packet. The place of fields that R407
leaves open is log 75, the order of channels log 76, what is sent again log 77, when buffer entries free log 78, the
hop limit log 79, training by log 80 and 81, how far the discarding of flits reaches log 126. (R407, R408, R409, R410,
R411, R412, R413, R415, R417, R418, R428) -/
def Obligations.LinkEvents : Prop :=
  (∀ (s : State) (n : Nat),
    let p := s.port n
    (0 < p.resend → exec (.flitSend n) s = .next (s.setPort n { p with resend := p.resend - 1 })) ∧
    (p.resend = 0 → s.portUp n = false ∨ 512 ≤ p.replay.length → exec (.flitSend n) s = .next s) ∧
    (p.resend = 0 → s.portUp n = true → p.replay.length < 512 →
      (∀ f rest, p.sending = f :: rest → exec (.flitSend n) s = .next (s.setPort n (p.push f rest))) ∧
      (p.sending = [] → p.nextPacket = none → exec (.flitSend n) s = .next s) ∧
      ∀ vc k, p.sending = [] → p.nextPacket = some (vc, k) → ∃ f rest, k.toFlits = f :: rest ∧
        (SMap.get [] p.out vc).head? = some k ∧ k.flits ≤ p.allowance vc ∧
        exec (.flitSend n) s = .next (s.setPort n (({ p with
          out := SMap.set [] p.out vc (afterHead s.time (SMap.get [] p.out vc)), sendVc := vc } : Port).push f rest))) ∧
    (∀ f rest, let q := p.push f rest
      q.replay = p.replay ++ [f.sealed p.sent] ∧ q.sending = rest ∧ q.sent = (p.sent + 1) % 2 ^ 32 ∧ q.rcvd = p.rcvd ∧
      SMap.get 0 q.sentOn (ctlVc f.ctl) = (SMap.get 0 p.sentOn (ctlVc f.ctl) + 1) % 2 ^ 32) ∧
    (∀ (payload : BitVec 512) (ctl : BitVec 32),
      let i := Instr.flitReceive n payload ctl
      let good := flitOk payload ctl = true ∧ ctlSeq ctl = p.rcvd % 2 ^ 8 ∧ p.passed ≠ some 255
      let f : Flit := { payload := payload, ctl := ctl }
      let vc := ctlVc ctl
      let u := { p with rcvd := (p.rcvd + 1) % 2 ^ 32, passed := none }
      (s.portUp n = false ∨ ctlPos ctl = 3 → exec i s = .next s) ∧
      (s.portUp n = true → ctlPos ctl ≠ 3 → ¬good →
        exec i s = .next ((s.setPort n { p with
          reports := p.reports + 1, passed := some (p.placesPassed (flitOk payload ctl) ctl) }).count (portErr n) 31 0 1)) ∧
      (p.placesPassed true ctl = (ctlSeq ctl + 256 - p.rcvd % 256) % 256 ∧
        p.placesPassed false ctl = match p.passed with | some r => (r + 1) % 256 | none => 0) ∧
      (s.portUp n = true → good → ctlPos ctl = 0 →
        (headerNdata f = 0 → exec i s = .next ((s.setPort n { u with bufs := SMap.set [] p.bufs vc [] }).takeIn n
          (FPacket.ofFlits [f] vc n s.time))) ∧
        (headerNdata f ≠ 0 → exec i s = .next (s.setPort n { u with bufs := SMap.set [] p.bufs vc [f] }))) ∧
      ∀ h fs, s.portUp n = true → good → ctlPos ctl = 1 ∨ ctlPos ctl = 2 → SMap.get [] p.bufs vc = h :: fs → ctlPos h.ctl = 0 →
        (fs.length + 1 = headerNdata h → exec i s = .next ((s.setPort n { u with bufs := SMap.set [] p.bufs vc [] }).takeIn n
          (FPacket.ofFlits (h :: fs ++ [f]) vc n s.time))) ∧
        (fs.length + 1 ≠ headerNdata h → exec i s =
          .next (s.setPort n { u with bufs := SMap.set [] p.bufs vc (h :: fs ++ [f]) }))) ∧
    (∀ k, s.node < 993 →
      let r := k.route % 2 ^ 13 + (if k.route / 2 ^ 13 + 1 ≤ 7 then k.route / 2 ^ 13 + 1 else 7) * 2 ^ 13
      let passes := k.route.testBit 10 = true ∧ k.route.testBit 11 = false ∧ k.route.testBit 12 = false ∧ k.route % 2 ^ 10 ≠ s.node
      (k.dst = s.node → ¬passes → s.takeIn n k = { s with
        arrived := s.arrived ++ [{ k with route := r, bound := (s.targetPart k.job).map s.curTag }] }) ∧
      (k.dst ≠ s.node ∨ passes → s.takeIn n k = (s.forward { k with route := r }).freeFlits n k.vc k.flits)) ∧
    (∀ k, k.route.testBit 10 = false ∨ k.route.testBit 11 = true ∨ k.route.testBit 12 = true →
      (4 ≤ k.route / 2 ^ 13 → s.forward k = s.count (fabricReg 0x28) 47 32 1) ∧
      (k.route / 2 ^ 13 < 4 → s.forward k =
        s.enqueue (if k.route.testBit 12 = true then bits (s.routeEntry k.dst) 56 52 else bits (s.routeEntry k.dst) 4 0) k)) ∧
    (∀ k, k.route.testBit 10 = true → k.route.testBit 11 = false → k.route.testBit 12 = false →
      (k.route % 2 ^ 10 = s.node → s.forward k = s.enqueue (bits (s.routeEntry k.dst) 4 0)
        { k with route := (k.route + 2 ^ 11) % 2 ^ 13 }) ∧
      (k.route % 2 ^ 10 ≠ s.node → 4 ≤ k.route / 2 ^ 13 → s.forward k = s.count (fabricReg 0x28) 47 32 1) ∧
      (k.route % 2 ^ 10 ≠ s.node → k.route / 2 ^ 13 < 4 →
        s.forward k = s.enqueue (bits (s.routeEntry (k.route % 2 ^ 10)) 4 0) k)) ∧
    exec (.reportTimer n) s = .next (s.setPort n { p with reports := p.reports + 1, reportAt := s.time }) ∧
    (let w := (s.report n).payload.toNat;
      ctlPos (s.report n).ctl = 3 ∧ flitOk (s.report n).payload (s.report n).ctl = true ∧ w % 2 ^ 16 = s.node ∧
      w / 2 ^ 16 % 2 ^ 16 = s.incarnation ∧ w / 2 ^ 32 % 2 ^ 8 = n % 2 ^ 8 ∧ w / 2 ^ 64 % 2 ^ 32 = p.sent % 2 ^ 32 ∧
      w / 2 ^ 96 % 2 ^ 32 = p.rcvd % 2 ^ 32 ∧
      ∀ v, v < 4 → w / 2 ^ (128 + 32 * v) % 2 ^ 32 = SMap.get 0 p.freed v % 2 ^ 32) ∧
    (∀ (payload : BitVec 512) (ctl : BitVec 32),
      let i := Instr.reportReceive n payload ctl
      let at_ := fun (off : Nat) => payload.toNat / 2 ^ (8 * off) % 2 ^ 32
      (flitOk payload ctl = false ∨ ctlPos ctl ≠ 3 → exec i s = .next s) ∧
      (flitOk payload ctl = true → ctlPos ctl = 3 → Completes i s fun t =>
        let q := t.port n
        let ahead := (at_ 8 + 2 ^ 32 - p.rcvd) % 2 ^ 32
        let lost := ahead ≠ 0 ∧ ahead < 2 ^ 31
        let passed := (at_ 12 + 2 ^ 32 - (p.sent + 2 ^ 32 - p.replay.length) % 2 ^ 32) % 2 ^ 32
        (∀ v, v < 4 → SMap.get 0 q.freedBy v = at_ (16 + 4 * v)) ∧
        q.replay = (if passed ≤ p.replay.length then p.replay.drop passed else p.replay) ∧ q.resend = q.replay.length ∧
        q.sent = p.sent ∧ q.rcvd = p.rcvd ∧ q.out = p.out ∧ q.sending = p.sending ∧
        q.reports = (if lost then p.reports + 1 else p.reports) ∧
        q.passed = (if lost then some ((ahead - 1) % 256) else p.passed) ∧
        t = (if q.replay = [] then s.setPort n q else (s.setPort n q).count (portErr n) 63 32 1))) ∧
    (∀ vc, let q := SMap.get [] p.out vc
      (q = [] → exec (.escapeMove n vc) s = .next s) ∧
      ∀ k ks, q = k :: ks →
        let due := vc < 3 ∧ k.since + s.dlr ≤ s.time
        (¬due → exec (.escapeMove n vc) s = .next s) ∧
        (due → exec (.escapeMove n vc) s = .next (((s.setPort n { p with out := SMap.set [] p.out vc (afterHead s.time q) }).enqueue
          (bits (s.routeEntry k.dst) 56 52) { k with vc := 3, route := k.route % 2 ^ 12 + 2 ^ 12 }).count (fabricReg 0x20) 31 0 1))) ∧
    (∀ (peer : BitVec 10) (pport : BitVec 5),
      let i := Instr.portTrainingDone n peer pport
      let may := n < 32 ∧ s.groupBegun (portGroup n) = true ∧ s.field (resetReg 0x18) n n = 0
      let good := neighbours s.node peer.toNat = true ∧
        ∀ m, m ∈ List.range 32 → m ≠ n → s.portUp m = true → s.field (portStat m) 11 2 ≠ peer.toNat
      let z := nodePoint s.node
      let polar := (z.1 * z.1 + z.2.1 * z.2.1 + z.2.2 * z.2.2) % 31 = 0
      (¬may → exec i s = .next s) ∧
      (may → Completes i s fun t =>
        t.reg (portStat n) = BitVec.ofNat 64 ((if s.node < 993 then (if good then (if n = 31 ∧ polar then 0 else 1) else 2) else 0) +
          peer.toNat * 2 ^ 2 + pport.toNat * 2 ^ 12) ∧
        t.field (resetReg 0x18) n n = 1 ∧ t.port n = { Port.reset with out := p.out } ∧
        (s.node < 993 → t.field (resetReg 0x18) 31 0 = 2 ^ 32 - 1 → t.announces = (List.range 993).filter (· ≠ s.node)))) ∧
    ∀ v : Word,
      (s.inReset = true → exec (.nodeIdWrite v) s = .next s) ∧
      (s.inReset = false → Completes (.nodeIdWrite v) s fun t =>
        t.node = (if 993 ≤ v.toNat % 2 ^ 10 then 1023 else v.toNat % 2 ^ 10) ∧
        (∀ m, m < 32 → t.reg (portStat m) = 0) ∧ t.field (resetReg 0x18) 31 0 = 0 ∧ t.announces = [] ∧ t.ports = s.ports)) ∧
  (∀ (f : Flit) (q : Nat), let g := f.sealed q
    g.payload = f.payload ∧ ctlSeq g.ctl = q % 2 ^ 8 ∧ ctlVc g.ctl = ctlVc f.ctl ∧ ctlPos g.ctl = ctlPos f.ctl ∧
    (f.ctl.toNat / 2 ^ 12 % 2 ^ 4 = 0 → flitOk g.payload g.ctl = true)) ∧
  (∀ u v, neighbours u v = true ↔ u < 993 ∧ v < 993 ∧ u ≠ v ∧
    ((nodePoint u).1 * (nodePoint v).1 + (nodePoint u).2.1 * (nodePoint v).2.1 + (nodePoint u).2.2 * (nodePoint v).2.2) % 31 = 0) ∧
  ∀ (k : FPacket) (n t : Nat), k.dst < 2 ^ 10 → k.src < 2 ^ 10 → k.dinc < 2 ^ 16 → k.sinc < 2 ^ 16 → k.kind < 2 ^ 8 →
    k.route < 2 ^ 16 → k.job < 2 ^ 16 → k.pseq < 2 ^ 16 → k.rtag < 2 ^ 32 → k.opw < 2 ^ 32 → k.data.length % 64 = 0 →
    FPacket.ofFlits k.toFlits k.vc n t = { k with port := some n, since := t, bound := none }

/-- O52. With no response waiting, the first request of a kind is discarded and counted if stale, answered with status
1 where no binding knew its job on arrival, and else performed under the tag that held then and answered with its status;
posted writes of a source are performed in sequence, and a gap of 500 microseconds counts as lost; a response in time
goes to the access of its request tag, which ends with its last, and any other is counted; a stale notice or announce
teaches the incarnation; an access unanswered at its deadline fails with code 4, and a task that waits for something else
first gets its answer or its trap as well. That a packet's buffer entries free as it is served is log 78, the slot mask of
the traps is log 30. Status 2 of a faulting access is log
85, when a posted sequence restarts log 82 and 83, which notices are stale log 84, an increment's layout log 46. (R233,
R330, R411, R416, R417, R418, R419, R420, R435) -/
def Obligations.FabricTargetEvents : Prop :=
  (∀ (s : State),
    let stale := fun (k : FPacket) => k.dinc ≠ s.incarnation ∨ k.sinc ≠ s.peerInc k.src
    let named := fun (g : Tag) => ({ part := tagPart g, tag := g, core := none } : Agent)
    let quiet := ∀ k, k ∈ s.arrived → k.kind ≠ 5 ∧ k.kind ≠ 6 ∧ k.kind ≠ 7
    (∀ (i : Instr) (kind : Nat) (perform : State → Agent → FPacket → Served),
      (i, kind, perform) ∈ [(Instr.fabricRead, 1, State.targetRead), (.fabricWrite, 2, State.targetWrite),
        (.fabricAtomic, 4, State.targetAtomic), (.rallyIncrement, 8, State.targetIncrement)] →
      (¬quiet → exec i s = .next s) ∧
      (s.arrived.filter (fun k => k.kind = kind) = [] → exec i s = .next s) ∧
      ∀ k rest, quiet → s.arrived.filter (fun k => k.kind = kind) = k :: rest →
        let u := s.takeArrived k
        (stale k → exec i s = .next (u.discardStale k)) ∧
        (¬stale k → k.bound = none → exec i s = .next (u.answer k 1 0 [])) ∧
        ∀ g t, ¬stale k → k.bound = some g → perform u (named g) k = .done t → exec i s = .next t) ∧
    (∀ k, s.takeArrived k = match k.port with
      | some n => ({ s with arrived := s.arrived.erase k } : State).freeFlits n k.vc k.flits
      | none => { s with arrived := s.arrived.erase k }) ∧
    (∀ k, let u := s.count (fabricReg 0x20) 63 32 1
      (k.dinc ≠ s.incarnation → k.sinc = s.peerInc k.src → k.kind ≠ 6 → s.discardStale k =
        u.sendPacket { u.packet k.src 6 k.job k.rtag k.addr with dinc := k.sinc }) ∧
      (k.dinc = s.incarnation ∨ k.sinc ≠ s.peerInc k.src ∨ k.kind = 6 → s.discardStale k = u)) ∧
    (∀ job p, s.targetPart job = some p → ∃ i, i < 256 ∧ s.field (fabricReg (0x30000 + 8 * i)) 22 22 = 1 ∧
      s.field (fabricReg (0x30000 + 8 * i)) 15 0 = job ∧ s.field (fabricReg (0x30000 + 8 * i)) 21 16 = p) ∧
    (∀ job, s.targetPart job = none → ∀ i, i < 256 → s.field (fabricReg (0x30000 + 8 * i)) 22 22 = 1 →
      s.field (fabricReg (0x30000 + 8 * i)) 15 0 ≠ job) ∧
    (∀ (ag : Agent) (k : FPacket),
      let a := k.addr.toNat
      let z := k.size
      let fault := (s.logError 11 0 false 4 (k.port.getD 255) (2 ^ ag.part) a (k.src + k.job * 2 ^ 16)).answer k 2 0 []
      (k.aligned = false → s.targetRead ag k = .done fault ∧ s.targetWrite ag k = .done fault) ∧
      (k.aligned = true →
        (∀ c l w d, s.readSpan ag a z .plain (z / 64 + 2) = .error (.fault c l w d) → s.targetRead ag k = .done fault) ∧
        (∀ u bs x, s.readSpan ag a z .plain (z / 64 + 2) = .ok (u, bs, some x) → s.targetRead ag k = .done (u.answer k 4 0 [])) ∧
        (∀ u bs, s.readSpan ag a z .plain (z / 64 + 2) = .ok (u, bs, none) → s.targetRead ag k = .done (
          if z ≤ 32 then u.answer k 0 (BitVec.ofNat 256 (ofBytes bs)) [] else u.answer k 0 0 bs)) ∧
        (∀ c l w d, s.writeSpan ag a k.bytes (z / 64 + 2) = .error (.fault c l w d) → s.targetWrite ag k = .done fault) ∧
        ∀ u l t, s.translate ag a .write .plain = .ok (u, l) → s.writeSpan ag a k.bytes (z / 64 + 2) = .ok t →
          s.targetWrite ag k = .done (t.answer k (if z < 64 ∧ (u.line l).poison = true then 4 else 0) 0 [])) ∧
      (let f := Fmt.dec (BitVec.ofNat 4 (k.opw / 2 ^ 6))
        let w := fmtWidth f
        let op := AtomOp.dec (BitVec.ofNat 3 (k.opw / 2 ^ 3 % 8))
        let ok := k.opw / 2 ^ 3 % 8 ≠ 7 ∧ Fmt.codeOk (BitVec.ofNat 4 (k.opw / 2 ^ 6)) = true ∧ atomOk op f = true ∧ a % (w / 8) = 0
        (¬ok → s.targetAtomic ag k = .done fault) ∧
        ∀ u x l t, ok → s.readAt ag a (w / 8) .atomic .atomg = .ok (u, x, l) → x.poison = false →
          let m := ofBytes (u.seenBytes ag.tag l x (a % 64) (w / 8))
          u.putPart ag l a (toBytes (w / 8)
            (atomNew op f m (k.imm.toNat % 2 ^ w) (k.imm.toNat / 2 ^ 64 % 2 ^ w))) = .ok t →
          s.targetAtomic ag k = .done (t.answer k 0 (BitVec.ofNat 256 m) [])) ∧
      (let r := s.rallyOf ag.part
        let v := k.imm.toNat % 2 ^ 16
        let lands := s.lands ag.tag = true
        let stands := r.st ≠ 0 ∧ r.tag = ag.tag
        let over_ := fun (n cnt : Nat) => if cnt < n then ({ r with errs := r.errs ||| 2, errEntry := if r.errs = 0 then r.head else r.errEntry } : Rally) else r
        let clip := fun (n cnt : Nat) => if cnt < n then cnt else n
        (¬lands → s.targetIncrement ag k = .done ((s.countDrop ag.tag).answer k 2 0 [])) ∧
        (lands → ¬stands → s.targetIncrement ag k = .done (s.answer k 2 0 [])) ∧
        (lands → stands → ∀ q, q = (match k.imm.toNat / 2 ^ 16 % 4 with
            | 0 => { over_ (r.fillF + v) r.fin.cnt with fillF := clip (r.fillF + v) r.fin.cnt }
            | 1 => { over_ (r.fillB + v) r.bin.cnt with fillB := clip (r.fillB + v) r.bin.cnt }
            | 2 => { over_ (r.freeDn + v) r.dn.cnt with freeDn := clip (r.freeDn + v) r.dn.cnt }
            | _ => { over_ (r.freeUp + v) r.up.cnt with freeUp := clip (r.freeUp + v) r.up.cnt }) →
          s.targetIncrement ag k = .done ((s.setRally ag.part q).answer k 0 0 [])))) ∧
    (¬quiet → exec .fabricPostedWrite s = .next s) ∧
    (s.arrived.filter s.postedReady = [] → exec .fabricPostedWrite s = .next s) ∧
    (∀ k, s.postedReady k = true ↔
      k.kind = 3 ∧ (stale k ∨ s.pseqAhead k = 0 ∨ 2 ^ 15 ≤ s.pseqAhead k)) ∧
    (∀ k rest, quiet → s.arrived.filter s.postedReady = k :: rest →
      let u := s.takeArrived k
      let turned := fun (t : State) => ({ t with pseqIn := SMap.set 0 t.pseqIn k.src ((k.pseq + 1) % 2 ^ 16) } : State)
      (stale k → exec .fabricPostedWrite s = .next (u.discardStale k)) ∧
      (¬stale k → k.bound = none → exec .fabricPostedWrite s =
        .next (if s.pseqAhead k = 0 then turned (u.answer k 1 0 []) else u.answer k 1 0 [])) ∧
      ∀ g, ¬stale k → k.bound = some g →
        (2 ^ 15 ≤ s.pseqAhead k → exec .fabricPostedWrite s = .next u) ∧
        ∀ t, s.pseqAhead k = 0 → u.targetWrite (named g) k = .done t → exec .fabricPostedWrite s = .next (turned t)) ∧
    (∀ src, let held := s.heldPosted src
      ((∀ k, k ∈ held → s.time < k.since + 500000) → exec (.postedWriteGapTimeout src) s = .next s) ∧
      ∀ k, held = [k] → k.since + 500000 ≤ s.time →
        let n := s.pseqAhead k
        exec (.postedWriteGapTimeout src) s = .next (({ s with
          pseqIn := SMap.set 0 s.pseqIn src ((SMap.get 0 s.pseqIn src + n) % 2 ^ 16) } : State).count (fabricReg 0x28) 63 48 n)) ∧
    (∀ i, i ∈ [Instr.fabricResponse, .staleNotice, .announce] → s.responseHead = none → exec i s = .next s) ∧
    (∀ k, s.responseHead = some k →
      let u := s.takeArrived k
      (k.kind ≠ 5 → exec .fabricResponse s = .next s) ∧ (k.kind ≠ 6 → exec .staleNotice s = .next s) ∧
      (k.kind ≠ 7 → exec .announce s = .next s) ∧
      (k.kind = 5 → exec .fabricResponse s = .next (
        if k.dinc = s.incarnation ∧ k.sinc = s.peerInc k.src then u.takeResponse k else u.discardStale k)) ∧
      (k.kind = 6 → k.dinc ≠ s.incarnation → exec .staleNotice s = .next (u.discardStale k)) ∧
      (k.kind = 6 → k.dinc = s.incarnation → let v := u.learn k.src k.sinc
        (∀ r, SMap.get none v.remotes k.rtag = some r → r.node = k.src →
          exec .staleNotice s = .next (v.remoteFails k.rtag r 3)) ∧
        ((∀ r, SMap.get none v.remotes k.rtag = some r → r.node ≠ k.src) → exec .staleNotice s = .next v)) ∧
      (k.kind = 7 → exec .announce s = .next (
        if k.src = s.node ∨ u.peerInc k.src = k.sinc then u
        else let v := u.learn k.src k.sinc; v.sendPacket (v.packet k.src 7 0 0 0)))) ∧
    (∀ node inc, node < 993 → s.peerInc node ≠ inc → node ≠ s.node → let t := s.learn node inc
      t.peerInc node = inc % 2 ^ 16 ∧ SMap.get 0 t.pseqOut node = 0 ∧ SMap.get 0 t.pseqIn node = 0) ∧
    (∀ node, exec (.announceSend node) s = .next (if node ∈ s.announces then
        let t := ({ s with announces := s.announces.erase node } : State); t.sendPacket (t.packet node 7 0 0 0)
      else s)) ∧
    (∀ k, let count := s.count (fabricReg 0x28) 31 0 1
      (SMap.get none s.remotes k.rtag = none → s.takeResponse k = count) ∧
      ∀ r, SMap.get none s.remotes k.rtag = some r →
        let a := match r.what with | .increment _ _ => 0 | _ => k.addr.toNat
        let x := { r with
          parts := r.parts.erase a,
          got := r.got ++ [(a, if k.data = [] then toBytes 32 k.imm.toNat else k.data)],
          bad := if k.opw % 8 = 0 then r.bad else k.opw % 8 }
        (r.node ≠ k.src ∨ a ∉ r.parts ∨ r.deadline ≤ s.time → s.takeResponse k = count) ∧
        (r.node = k.src → a ∈ r.parts → s.time < r.deadline → x.parts = [] → s.takeResponse k = s.remoteOver k.rtag x) ∧
        (r.node = k.src → a ∈ r.parts → s.time < r.deadline → x.parts ≠ [] →
          s.takeResponse k = { s with remotes := SMap.set none s.remotes k.rtag (some x) })) ∧
    (∀ (n : Nat) (r : Remote) p e, SMap.get none s.remotes n = some r → r.what = .increment p e →
      exec (.remoteTimeout n) s = .next s ∧ s.remoteOver n r = s.incrementOver n p e (decide (r.bad ≠ 0)) ∧
      ∀ c, s.remoteFails n r c = s.incrementOver n p e true) ∧
    ∀ (n : Nat) (r : Remote), SMap.get none s.remotes n = some r → (∀ p e, r.what ≠ .increment p e) →
      (s.time < r.deadline → exec (.remoteTimeout n) s = .next s) ∧
      (r.deadline ≤ s.time → exec (.remoteTimeout n) s = .next (s.remoteFails n r 4)) ∧
      let gone := ({ s with remotes := SMap.set none s.remotes n none } : State)
      let y := s.taskAt r.core r.ctx
      let waits := y.waitsRemote n = true
      (waits ↔ ∃ c, y.st = .parked c ∧ (c = .remote n ∨ y.andThen = some (.remote n))) ∧
      (∀ tr : Option Trap, let z := { y with deferred := y.deferred ++ (tr.map fun x => (0x40, x)).toList }
        (y.st = .parked (.remote n) → gone.remoteWake r n tr = (gone.setTaskAt r.core r.ctx z).wake r.core r.ctx) ∧
        (y.st ≠ .parked (.remote n) → gone.remoteWake r n tr = gone.setTaskAt r.core r.ctx { z with andThen := none })) ∧
      (r.what = .posted → ∀ c, s.remoteFails n r c = gone.postedOver r c ∧
        s.remoteOver n r = gone.postedOver r (if r.bad = 4 then 5 else r.bad)) ∧
      (r.what ≠ .posted → ∀ c, s.remoteFails n r c =
        if waits then gone.remoteWake r n (some (remoteTrap c r.node r.ea r.link)) else gone) ∧
      (waits → s.lands r.tag = true →
        (r.what = .store → r.bad = 0 → s.remoteOver n r = gone.remoteWake r n none) ∧
        (∀ d z, r.what = .load d z → r.bad = 4 → s.remoteOver n r =
          (gone.remoteLand r d (List.replicate z 0)).remoteWake r n (some { cause := .poison, addr := r.ea, info := 0, at_ := .address r.link })) ∧
        (∀ d z a bs, r.what = .load d z → r.bad = 0 → r.got = [(a, bs)] →
          s.remoteOver n r = (gone.remoteLand r d (takeBytes z bs)).remoteWake r n none) ∧
        ∀ sd f a bs, r.what = .atomic sd f → r.bad = 0 → r.got = [(a, bs)] → s.remoteOver n r =
          (gone.setTaskAt r.core r.ctx ((gone.taskAt r.core r.ctx).setScalar sd
            (atomOld f (ofBytes bs % 2 ^ fmtWidth f)))).remoteWake r n none))

/-- O53. A cold or warm reset leaves every unit at reset with the next incarnation, a warm one keeping memory tags,
generations and the sweeper and stepping every partition; a function reset clears the queue blocks and the packets that
have not begun; groups begin in order and units become READY or fail with a class-12 record, and the last port to
finish training has the node announce itself; corrections are counted and reported at the threshold; a lost line is
dropped or left poisoned with its record; of two records of one unit and one cycle the lower class comes first; an
injection arms and reports once, EI.MASK reading the bits last set; each close of an interval that is asked for is made; a
rollback is refused with its code or drops the partition's dirty lines; once a millisecond the clock moves by 100 MHz within
its bounds; a register write does what R10 gives its bits. What a reset leaves of memory is log 86 and 88, when the tag pass
of a stack is over log 87, the single mark that a reset leaves on the MSI-X table log 90, a function reset's indices log 89,
failures log 92, announces log 81, the order of a correction's record log 93 and of the records of a cycle log 141, arming
log 94, a close log 98, that a rollback drops dirty cistern lines log 97, the clock log 99. (R10, R424, R425, R426, R428, R430, R432, R434, R435, R436, R440, R441) -/
def Obligations.ResetAndReliabilityEvents : Prop :=
  ∀ (s : State),
    (∀ (d : State) (last : Nat), let t := d.cleared last
      t = { State.reset with
        mem := t.mem, poisoned := t.poisoned, regs := t.regs, msix := d.msix, agenda := d.agenda, fresh := d.fresh,
        resetAt := d.time, time := d.time, tickAt := d.time } ∧ t.msixClear = true ∧
      t.incarnation = (if d.incarnation = 65535 then 1 else d.incarnation + 1) ∧ t.field (resetReg 8) 1 0 = last % 4 ∧
      (∀ off, off ≠ fabricReg 8 → off ≠ resetReg 8 → t.reg off = regReset off) ∧
      (memoryOk d → ∀ a, t.rawByte a = if isLocal a = true ∨ isCistern a = true then 0 else d.rawByte a)) ∧
    exec .coldReset s = .next (s.cleared 0) ∧
    (let d := s.flushDies
      let u : State := { d.cleared 1 with
        tags := d.tags.filter (fun e => isDevice (64 * e.1)), tenancy := d.tenancy, sweeper := d.sweeper }
      exec .warmReset s = .next ((List.range 64).foldl (fun s p => s.endTenancyOf p) u)) ∧
    (∀ d x c, s.dies = [(d, x)] → x.lines = [c] → s.flushDies =
      if c.reserved = true then s else s.writeBack c) ∧
    Completes .functionReset s (fun t =>
      t = { s with packets := t.packets, launches := t.launches, regs := t.regs, msixClear := true } ∧
      t.packets = (s.packets.filter fun k => k.begun).map (fun k => { k with idx := k.idx + 2 ^ 32 }) ∧
      t.field (resetReg 8) 1 0 = 2 ∧
      (SMap.wf 0 s.regs = true → ∀ off, off ≠ resetReg 8 →
        t.reg off = if 0x100000 ≤ off ∧ off < 0x100000 + 0x100 * 65 then regReset off else s.reg off)) ∧
    (∀ g, let may := 1 ≤ g ∧ g ≤ 31 ∧ s.field (resetReg 8) 6 2 + 1 = g ∧ s.resetAt + 25000 * g ≤ s.time
      exec (.startGroupBegin g) s = .next (if may then (s.setField (resetReg 8) 6 2 g).markDone else s)) ∧
    (∀ ok, exec (.unitReady .host ok) s = .next (if ok = true then (s.setField (resetReg 0x10) 0 0 1).markDone else s)) ∧
    (∀ (u : StartUnit) (group rdy fail kind index : Nat) (ok : Bool),
      (∃ n, n < 24 ∧ (u, group, rdy, fail, kind, index) = (StartUnit.stack n, n + 1, 1 + n, n, 3, n)) ∨
        (∃ n, n < 8 ∧ (u, group, rdy, fail, kind, index) = (.die n, 25 + n / 2, 25 + n, 24 + n, 2, n)) →
      let may := group ≤ s.field (resetReg 8) 6 2 ∧ s.field (resetReg 0x10) rdy rdy = 0 ∧ s.field (resetReg 0x20) fail fail = 0
      (¬may → exec (.unitReady u ok) s = .next s) ∧
      (may → ok = true → exec (.unitReady u ok) s = .next (s.setField (resetReg 0x10) rdy rdy 1).markDone) ∧
      (may → ok = false → exec (.unitReady u ok) s =
        .next ((s.setField (resetReg 0x20) fail fail 1).logError 12 2 false kind index 0 0 0).markDone)) ∧
    (∀ n, n < 32 → s.groupBegun (portGroup n) = true → s.field (resetReg 0x18) n n = 0 →
      (let u := (s.setField (resetReg 0x18) n n 1).markDone;
        exec (.unitReady (.port n) false) s = .next
          (if s.node < 993 ∧ u.field (resetReg 0x18) 31 0 = 2 ^ 32 - 1 then
            { u with announces := (List.range 993).filter (· ≠ s.node) } else u)) ∧
      exec (.unitReady (.port n) true) s = .next s) ∧
    (∀ (cls sev : Nat) (inj : Bool) (kind index pmask addr detail : Nat),
      let f := s.field
      let prod := f (relReg 0x10) 31 0
      let size := 2 ^ (f (relReg 8) 3 0 + 6)
      let base := f (relReg 0) 56 6 * 64 + 32 * (prod % size)
      let used := (prod + 2 ^ 32 - f (relReg 0x10) 63 32) % 2 ^ 32
      let room := f (relReg 8) 4 4 = 1 ∧ used < size
      let t := s.logError cls sev inj kind index pmask addr detail
      let bytes := toBytes 4 (cls + sev * 2 ^ 8 + (if inj = true then 2 ^ 10 else 0) + kind * 2 ^ 16 + index * 2 ^ 24) ++
        toBytes 4 prod ++ toBytes 8 pmask ++ toBytes 8 addr ++ toBytes 8 detail
      let after := fun (r : ErrRec) => r.time = s.time ∧ r.cycle = s.front ∧ r.kind = kind ∧ r.index = index ∧ cls < r.cls ∧
        (prod + 2 ^ 32 - r.seq) % 2 ^ 32 ≤ used
      let intact := s.stackFailed base = false ∧ (s.frameLine (lineOf base)).poison = false
      let held := (s.die (dieOf base)).find (lineOf base)
      ((∀ r, r ∈ s.recent → ¬after r) →
        (¬room → t = (s.count (relReg 0x18) 31 0 1).setField (relReg 0x18) 32 32 1) ∧
        (room → t.field (relReg 0x10) 31 0 = (prod + 1) % 2 ^ 32) ∧
        (room → intact → held = none → t.rawBytes base 32 = bytes) ∧
        (room → intact → held ≠ none → ∀ x, s.dies = [(dieOf base, x)] →
          ((lineToBytes (t.frameLine (lineOf base)).data).drop (base % 64)).take 32 = bytes)) ∧
      (∀ r, s.recent = [r] → after r →
        let x : ErrRec := { time := s.time, cycle := s.front, cls := cls, sev := sev, inj := inj, kind := kind, index := index,
                            pmask := pmask, addr := addr, detail := detail, seq := r.seq }
        t = ({ s.putRecord x with recent := [x] } : State).appendRecord r)) ∧
    (∀ (kind : UnitKind) (index : Nat) (addr : Word) (part : Nat),
      let k := unitCode kind
      let c := s.corrected k index
      let limit := if 1 ≤ s.field (relReg 8) 47 32 then s.field (relReg 8) 47 32 else 1
      let u := s.reportCorrected k index
      (c.count < limit → u = s) ∧
      (limit ≤ c.count → u = (s.logError 2 0 false k index (2 ^ c.part) c.addr.toNat c.count).setCorrected k index Corrected.zero) ∧
      exec (.correctedThreshold kind index) s = .next u ∧
      (k ∈ [1, 2, 3, 6] → index ≤ 255 → part ≤ 63 → exec (.correctedError kind index addr part) s =
        .next (u.setCorrected k index { count := (u.corrected k index).count + 1, addr := addr, part := part })) ∧
      (k ∉ [1, 2, 3, 6] ∨ 255 < index ∨ 63 < part → exec (.correctedError kind index addr part) s = .next s)) ∧
    (∀ n, let key := 64 * n
      (s.holder key = none → exec (.uncorrectableLineError true n) s = .next s) ∧
      (∀ d c, s.holder key = some (d, c) → let dirty := if c.dirty = 0 then 0 else 1
        exec (.uncorrectableLineError true n) s = .next ((s.loseLine d c c.tag c.doomed).logError 3 dirty false 2 d
          (2 ^ tagPart c.tag) (s.physicalLine d key) (dirty * 2 ^ 4))) ∧
      (isDevice key = false → exec (.uncorrectableLineError false n) s = .next s) ∧
      (isDevice key = true → let x := s.rawLine key
        exec (.uncorrectableLineError false n) s = .next ((s.setRawLine key { x with poison := true }).logError 5 1 false 3
          (stackOf key) (2 ^ tagPart x.tag) key (n % 64))) ∧
      ∀ d, let held := (s.die d).lines.find? fun c => c.key == key
        (held = none → exec (.tagParityError d n) s = .next s) ∧
        ∀ c, held = some c → let dirty := if c.dirty = 0 then 0 else 1
          exec (.tagParityError d n) s = .next ((s.loseLine d c nullTag (s.sharing d c.way)).logError 4 dirty false 2 d
            (s.sharing d c.way).toNat (s.physicalLine d key) (c.way % 2 ^ 4 + dirty * 2 ^ 4 + lineSet key * 2 ^ 8))) ∧
    (∀ d c tag doomed,
      (c.dirty = 0 → s.loseLine d c tag doomed = s.dropLine d c.key) ∧
      (∀ pa, c.dirty ≠ 0 → s.frameFor d c.key = some pa → s.loseLine d c tag doomed =
        (s.dropLine d c.key).putFrame pa { c.overlay (s.rawLine pa) with tag := tag, poison := true }) ∧
      (c.dirty ≠ 0 → s.frameFor d c.key = none → s.loseLine d c tag doomed =
        s.setDie d ((s.die d).keepPoisoned c.key tag doomed))) ∧
    (∀ v : Word, (s.inReset = true → exec (.errorInject v) s = .next s) ∧
      (s.inReset = false → Completes (.errorInject v) s fun t =>
        let kind := s.field (relReg 0x20) 10 8
        let index := s.field (relReg 0x20) 7 0
        let set_ := fun (c : Nat) => c < 16 ∧ v.getLsbD c = true ∧ kind ∈ classKinds c
        (∀ c, (∃ a, a ∈ t.armed ∧ a.kind = kind ∧ a.index = index ∧ a.cls = c) ↔
          set_ c) ∧
        (∀ j, j < 64 → ((t.reg (relReg 0x28)).getLsbD j = true ↔ set_ j)) ∧
        (∀ off, off ≠ relReg 0x28 → t.reg off = s.reg off) ∧
        (∀ a, a ∈ t.armed → (a.last = true ↔ (a.kind, a.index) = (kind, index))) ∧
        ∀ a : Armed, (a.kind, a.index) ≠ (kind, index) → a.last = false →
          (a ∈ t.armed ↔ ∃ b, b ∈ s.armed ∧ { b with last := false } = a))) ∧
    (∀ (kind : UnitKind) (index cls : Nat) (addr detail : Word),
      let k := unitCode kind
      let mine := fun (a : Armed) => a.kind == k && a.index == index && a.cls == cls
      let off : State := { s with armed := s.armed.filter fun a => !mine a }
      let u := if (s.armed.any fun a => mine a && a.last) = true then off.setField (relReg 0x28) cls cls 0 else off
      let i := Instr.injectedReport kind index cls addr detail
      (s.armed.any mine = false → exec i s = .next s) ∧
      (s.armed.any mine = true → cls ≠ 2 → exec i s = .next (u.logError cls (classSev cls detail.toNat) true k index
        (u.injectedMask index cls addr.toNat detail.toNat) addr.toNat detail.toNat)) ∧
      (s.armed.any mine = true → cls = 2 → exec i s = .next ((u.logError 2 0 true k index 0 addr.toNat
        ((u.corrected k index).count + 1)).setCorrected k index Corrected.zero))) ∧
    (∀ p, let r := partReg p 0xF8
      let code := s.rollbackCode p
      (s.field r 32 32 = 0 → exec (.ckptCloseDone p) s = .next s) ∧
      (∀ er, s.field r 32 32 = 1 → s.flushStash p = .error er → exec (.ckptCloseDone p) s = .next (s.noteWait p er)) ∧
      (∀ u0, s.field r 32 32 = 1 → s.flushStash p = .ok u0 → let u := u0.flushPart p
        let more := SMap.get 0 u.ckptNext p
        Completes (.ckptCloseDone p) s fun t =>
          t.field r 31 0 = (u.field r 31 0 + 1) % 2 ^ 32 ∧ t.field r 33 33 = 0 ∧ t.field r 32 32 = (if more = 0 then 0 else 1) ∧
          SMap.get 0 t.ckptNext p = more - 1 ∧
          t.undo = u.undo.filter (fun y => y.part != p) ∧ t.mem = u.mem ∧ t.dies = u.dies) ∧
      (s.inReset = true ∨ s.field r 34 34 = 1 → exec (.rollback p) s = .next s) ∧
      (s.inReset = false → s.field r 34 34 = 0 → code ≠ 0 → exec (.rollback p) s =
        .next ((s.setField r 36 36 1).setField r 39 37 code)) ∧
      (s.inReset = false → s.field r 34 34 = 0 → code = 0 → exec (.rollback p) s = .next (s.setField r 34 34 1)) ∧
      (s.field r 34 34 = 0 → exec (.rollbackDone p) s = .next s) ∧
      (s.field r 34 34 = 1 → Completes (.rollbackDone p) s fun t => ∃ v,
        v = (s.undo.filter fun y => y.part == p && y.logged).foldl (fun s y => s.replayLine y) (s.dropDirty p) ∧
        t = ((({ v with undo := v.undo.filter fun y => y.part != p } : State).setField r 34 34 0).setField r 35 35 1)) ∧
      ∀ n d, s.dies = [(n, d)] → (∀ c, c ∈ d.lines → isHome n c.key = true) → ((s.dropDirty p).die n).lines = d.lines.filter fun c => !(tagPart c.tag == p && c.dirty != 0)) ∧
    (∀ w : BitVec 13, let cap := s.field (relReg 0x40) 12 0
      let mhz := s.field (relReg 0x48) 27 16
      let next := if cap < w.toNat then (if 700 ≤ mhz then mhz - 100 else 600)
        else if 100 * w.toNat < 95 * cap then (if mhz + 100 ≤ 2400 then mhz + 100 else 2400) else mhz
      let due := s.tickAt + 1000000 ≤ s.time
      (¬due → exec (.powerControlTick w) s = .next s) ∧
      (due → 600 < mhz ∨ w.toNat ≤ cap → Completes (.powerControlTick w) s fun t =>
        t.field (relReg 0x48) 12 0 = w.toNat ∧ t.field (relReg 0x48) 27 16 = next ∧
        t.field (relReg 0x50) 32 32 = (if next < 2400 then 1 else 0) ∧ t.tickAt = s.tickAt + 1000000 ∧
        t.field (relReg 0x50) 31 0 = (let ms := s.field (relReg 0x50) 31 0
          if mhz < 2400 then (if ms + 1 < 2 ^ 32 then ms + 1 else 2 ^ 32 - 1) else ms)) ∧
      (due → mhz ≤ 600 → cap < w.toNat → Completes (.powerControlTick w) s fun t => ∃ u : State,
        t = u.logError 14 0 false 7 0 0 0 (u.reg (relReg 0x48)).toNat ∧ u.field (relReg 0x48) 27 16 = 600)) ∧
    (∀ (r : RegRule) (old v : Word) (j : Nat), r.fix = id → j < 64 → (r.apply old v).getLsbD j =
      if r.rw.getLsbD j = true then v.getLsbD j else old.getLsbD j && !(r.w1c.getLsbD j && v.getLsbD j)) ∧
    ∀ (off : Nat) (v : Word),
      let i := Instr.registerWrite off v
      let special := fun (p x : Nat) => off = partReg p x ∧ p < 64
      (off = resetReg 0 → exec i s = if v.getLsbD 0 = true then exec .warmReset s else .next s) ∧
      (off ≠ resetReg 0 → s.inReset = true → exec i s = .next s) ∧
      (s.inReset = false →
        (off = fabricReg 0 → exec i s = exec (.nodeIdWrite v) s) ∧
        (off = relReg 0x28 → exec i s = exec (.errorInject v) s) ∧
        ∀ p, (special p 0x78 → exec i s = exec (.migrationStart p (bits v 11 0)) s) ∧
          (special p 0x80 → exec i s = exec (.shootdown p v) s) ∧
          (special p 0xD0 → exec i s = .next (s.contextCommand p (bits v 1 0))) ∧
          (special p 0x100 → exec i s = if v.getLsbD 0 = true then exec (.rollback p) s else .next s) ∧
          (special p 0x838 → exec i s = .next (s.setRally p { s.rallyOf p with errs := (s.rallyOf p).errs &&& ~~~ v.setWidth 7 })) ∧
          (special p 0 → let u := s.storeReg off v
            Completes i s fun t => t = { u with heldQuads := t.heldQuads } ∧
              (∀ x, x ≠ p → SMap.get 0 t.heldQuads x = SMap.get 0 s.heldQuads x) ∧
              ∀ q, q < 64 → ((SMap.get 0 t.heldQuads p).getLsbD q = true ↔
                ((s.reg off).getLsbD q = true ∨ (SMap.get 0 s.heldQuads p).getLsbD q = true) ∧
                  (u.reg off).getLsbD q = false ∧ u.boundOn p q = true))) ∧
      (s.inReset = false → off ∉ [resetReg 0, fabricReg 0, relReg 0x28] →
        (∀ p x, special p x → x ∉ [0, 0x78, 0x80, 0xD0, 0x100, 0x838]) →
        (regRule off = none → exec i s = .next s) ∧
        ∀ rule, regRule off = some rule → exec i s = .next (s.setReg off (rule.apply (s.reg off) v))) ∧
      ∀ p, let r := partReg p 0xD8
        (s.field r 1 0 ≠ 0 → s.contextCommand p 1 = (s.setField r 3 3 1).setField r 11 4 7) ∧
        (s.field r 1 0 ≠ 0 → s.contextCommand p 2 = (s.setField r 3 3 1).setField r 11 4 7) ∧
        (s.field r 1 0 = 0 → s.contextCommand p 2 = s.setField r 1 0 3) ∧
        (s.field r 1 0 = 0 → (s.contextCommand p 1).field r 1 0 = 1)

/-- O54. iN reads the index of the Nth level outward from the innermost, and 0 when N is not below LOOP.DEPTH, the
number of active levels; a level that a LOOP, LOOPI or LOOP.P pushes has index 0 at its first iteration and moves every other level
one further out, and a loop-back that continues the innermost level adds 1 to what i0 reads and changes no other.
(R42) -/
def Obligations.IndexRegisters : Prop :=
  ∀ s : State, s.sysRead 4 = BitVec.ofNat 64 s.task.loops.length ∧
    (∀ n : BitVec 3, s.task.loops.length ≤ n.toNat → s.task.scalar (.i n) = 0) ∧
    (∀ (n : BitVec 3) (l : Level), s.task.loops[n.toNat]? = some l → s.task.scalar (.i n) = l.index) ∧
    (∀ (g : Guard) (count : BitVec 14) (imm : BitVec 22) (sa : SReg) (stages : BitVec 4) (i : Instr),
      s.guard g = true → s.task.loops.length < 6 →
      (i = .loopi g count imm ∧ count ≠ 0) ∨ (i = .loop g sa imm ∧ s.scalar sa ≠ 0) ∨
        (i = .loopP g sa stages imm ∧ s.scalar sa ≠ 0 ∧ ∀ l, l ∈ s.task.loops → l.stages = none) →
      Completes i s fun t => t.task.scalar (.i 0) = 0 ∧
        ∀ n : Nat, n < 7 → t.task.scalar (.i (BitVec.ofNat 3 (n + 1))) = s.task.scalar (.i (BitVec.ofNat 3 n))) ∧
    ∀ (l : Level) (rest : List Level) (next : Word) (fuel : Nat), s.task.loops = l :: rest → l.index.toNat + 1 < l.total →
      l.index.toNat + 1 < 2 ^ 64 → let t := s.task.loopBack next (fuel + 1)
        t.scalar (.i 0) = s.task.scalar (.i 0) + 1 ∧ ∀ n : BitVec 3, n ≠ 0 → t.scalar (.i n) = s.task.scalar (.i n)

/-- O55. In the C, S, P, M, L and E slots the guard is lane 0 of the predicate in G, inverted when GN is 1; if it is
false the instruction of the word leaves the state as it was, but that in the L and E slots it may hold its bundle while a
TLB walk or the occupancy of a SPLIT lasts; and if it is true the instruction does exactly what it
does when guarded by p0, whatever the predicate holds in other lanes. (R49) -/
def Obligations.FalseGuardNoEffect : Prop :=
  ∀ (s : State) (x : SlotWord) (i : Instr), (∀ w, x ≠ .v w) → x.instr? = some i →
    let g := x.guard
    let on := (s.pred g.pred).getLsbD 0 ^^ g.neg
    let busy := 6 ≤ x.slot ∧ (s.preCore.walk.isSome = true ∨ s.preCore.splitBusy = true)
    (on = false → ¬busy → exec i s = .next s) ∧
    (on = false → busy → exec i s = .next s ∨ exec i s = s.settle stall) ∧
    (on = true → ∀ j, (x.withGuard { pred := 0, neg := false }).instr? = some j → exec i s = exec j s)

/-- O56. A branch, an immediate loop, a scalar addition, three immediate additions of the spec's examples, a predicate
operation, a scale load, a queue format, two vector operations, a beat, a local load and a queue advance, each written
out bit by bit, decode to the instruction with the operands that their fields hold, and an unassigned opcode, a
nonzero unused field and a reserved operand code decode to none. (R43, R44, R115, R116, R117, R118, R119, R122, R124,
R125, R126, R127) -/
def Obligations.DecodeSanity : Prop :=
  (∀ p : Nat × Nat × Instr, p ∈ [
    (0, 0x0001_0000_0033, Instr.br ⟨3, true⟩ 64),
    (0, 0x0001_0012_C0C0, .loopi ⟨0, false⟩ 300 64),
    (1, 0x0001_1C30_5022, .add ⟨2, false⟩ (.s 5) (.s 6) (.a 7)),
    (1, 0x0010_0018_3400, .addi ⟨0, false⟩ (.s 3) (.s 3) 8),
    (1, 0x00A0_0028_5413, .addi ⟨3, true⟩ (.s 5) (.s 5) 80),
    (1, 0xFFFE_0008_1400, .addi ⟨0, false⟩ (.s 1) (.s 1) 0x7FFF),
    (2, 0x00BA_9020, .pand ⟨0, false⟩ 9 10 11),
    (2, 0x00A4_3200, .xld ⟨0, false⟩ 3 4 5),
    (2, 0x0C01_2300, .qfmt ⟨0, false⟩ 2 .bf16 .f32 .rna true),
    (3, 0x0000_0020_0380_6020, .vadd ⟨0, false⟩ .f32 .rne (.v 6) (.v 7) (.v 8)),
    (4, 0x12CC_980C_0100_1080, .vfma ⟨0, false⟩ .f16 .rtz (.v 1) (.v 2) (.t 3) (.k 4 2 true)),
    (5, 0x1000_0B18_3200_7060, .mshift ⟨0, false⟩ .bf16 ⟨100, some 3⟩ (.v 7) (.imm 5) 0 0 true),
    (6, 0x0304_FFFF_8100_9020, .lds ⟨0, false⟩ 2 true (.s 9) 2 (.s 4) 0xFFFF8),
    (7, 0x0000_0000_3000_5321, .qadv ⟨1, false⟩ 5 3)] → (SlotWord.ofNum p.1 p.2.1).instr? = some p.2.2) ∧
  (SlotWord.ofNum 0 0xFE0).instr? = none ∧ (SlotWord.ofNum 2 0x1000).instr? = none ∧
  (SlotWord.ofNum 1 0x0001_1C36_6022).instr? = none

/-- O57. For every well-formed instruction that has a word, with every operand at every value that its encoding
admits, the word decodes to that instruction, and the bits of the word read in its slot are that word; and every legal
word is the one that its instruction, which is well-formed, encodes to. (R43, R44, R108, R115, R116, R117, R118, R119,
R120) -/
def Obligations.DecodeEncode : Prop :=
  ∀ i : Instr,
    (i.wf = true → ∀ x, encode i = some x →
      x.instr? = some i ∧ ∀ n, n = x.slot ∨ (n = 4 ∧ x.slot = 3) → SlotWord.ofNum n x.num = x) ∧
    ∀ x : SlotWord, x.instr? = some i → i.wf = true ∧ encode i = some x

/-- O58. When the line at the pc of the ISSUING task holds a legal bundle there, which the nullifier does not remove
and which waits for no load, and the task's last bundle is complete, the turn of its core dispatches it and runs the
instruction of each slot word by exec, in slot order, between the opening and the closing of the bundle, so that a
bundle of one word does what exec gives for its decoded instruction; BUNDLE_FETCH by itself dispatches it, or traps
ILLBUNDLE with the reasons and slots of an illegal one or for a pc at which no bundle starts; and an input that is an
event, or an event that the module performs by itself, is exec of that event, or the paying of owed writes, or a hand-off
that a bundle has left to be done, its exec; and with no detector armed a step is nothing more. The interleaving is log 3, and that slots run one after another log 109. (R111, R112, R130, R133, R134, R137, R262, R268,
R275) -/
def Obligations.StepRunsDecodedBundle : Prop :=
  ∀ (s : State) (n x : Nat) (rest : List Input), s.frame = none →
    (s.armed = [] → ∀ o, s.notice o = o) ∧
    (∀ e, s.agenda = .event e :: rest → step s = s.notice (exec e { s with agenda := rest })) ∧
    (∀ e, s.agenda = [] → s.nextEvent = some e → step s = s.notice (e.run s)) ∧
    (∀ u, Event.owedWrites.run u = .next u.payOwed) ∧
    (∀ e, e ≠ .owedWrites → (∀ c y, e ≠ .handoff c y) → ∃ i, ∀ u, Event.run e u = exec i u) ∧
    (∀ c y f i t (u : State), SMap.get none u.later (16 * c + y) = some f → f.ops = [(7, i)] → isHandoff i = true →
      exec i { u.turnTo c y with slot := 7, now := (u.coreAt c).clock, frame := some f } = .next t →
      (∀ g, t.frame = some g → g.holds = []) →
      (Event.handoff c y).run u = .next (({ t with frame := none } : State).setLater c y f.waiting)) ∧
    ((s.coreAt n).issuing = some x → (s.coreAt n).switch = none →
      ((s.coreAt n).leaving = true → (s.coreAt n).issue.owed = true) → SMap.get none s.later (16 * n + x) = none →
      s.agenda = .core n :: rest →
      let s0 : State := { s with agenda := rest }
      let u := s0.turnTo n x
      let pc := u.task.pc
      u.task.deferred = [] → u.core.bad.contains (1, x) = false → ∀ s1 line, u.codeLine pc.toNat = .ok (s1, line, false) →
      ((∀ b, b ∈ bundles line → b.off ≠ pc.toNat % 64) → exec (.bundleFetch n) s0 =
        .next (u.fetchStops 0 { cause := .illbundle, addr := pc, info := 0x100, at_ := .address pc })) ∧
      ∀ b, (bundles line).find? (fun b => b.off == pc.toNat % 64) = some b →
        let v := s1.modTask fun t => { t with link := s1.nextBundle (lineOf pc.toNat) (bundles line) b }
        (b.reasons ≠ 0 → exec (.bundleFetch n) s0 = .next (v.fetchStops b.marks
          { cause := .illbundle, addr := v.task.pc, info := b.reasons.setWidth 64, at_ := .address v.task.pc })) ∧
        (b.reasons = 0 → v.nullified b.ops = false → v.core.awaited v.x b.ops = [] → v.task.deferred = [] →
          let d := v.dispatch b.ops b.len
          let tm := d.core.timing d.x b.ops
          let c := (b.ops.find? fun o => o.1 == 0).map (·.2)
          exec (.bundleFetch n) s0 = .next d ∧
          ∃ f, d.frame = some f ∧ f.ops = b.ops ∧ f.task = v.task ∧ f.core = v.core ∧
            let o := d.openSlots f tm
            (∀ t, runSlots exec tm b.ops o = .next t →
              step s = s.notice (.next (State.closeBundle { d with frame := none } t tm c).moveFront)) ∧
            ∀ k w i, b.words = [(k, w)] → (SlotWord.ofNum k w).instr? = some i →
              ∀ t, exec i { o with slot := k, now := tm.slot k } = .next t →
                step s = s.notice (.next (State.closeBundle { d with frame := none } t tm (if k = 0 then some i else none)).moveFront)))

/-- O59. From every state whose memory is in canonical form (addresses strictly rising, and no byte, tag or poison
mark listed that is equal to what an unlisted address reads as), a step that answers a next state leaves memory in
canonical form, whichever instruction or event it performs. That an unlisted byte reads as zero is the model's choice
(log 5). (R6, R7, R66, R133) -/
def Obligations.StepKeepsMemoryCanonical : Prop :=
  ∀ s t : State, memoryOk s → step s = .next t → memoryOk t

/-- O60. After a cold reset memory is in canonical form, the reset is in progress, every generation and base
generation is 1, every context is FREE, every tag on the module is null, each core's split is 8 and its pump
identifiers start at 1, and every register of BAR0 reads the reset value of its map, which is zero but for the queue
size 4, the policy 0x43E8, the unassigned node 1023, the remote time-out 50, the corrected-error threshold 256, the
power cap 4200 and the clock 2400 MHz. That bytes read zero (log 5), that no partition is closed and FN.INC is 1 (log
4) are the model's choices, and that the MSI-X table is cleared as a whole is log 90. (R7, R19, R236, R286, R352, R353, R382, R421, R423, R427, R429, R441) -/
def Obligations.ResetValues : Prop :=
  let r := State.reset
  memoryOk r ∧ r.inReset = true ∧ r.frame = none ∧ r.agenda = [] ∧ r.msixClear = true ∧
  (∀ p, r.ten p = { gen := 1, base := 1, closed := false }) ∧
  (∀ n, let k := r.coreAt n
    k.scr = 8 ∧ k.issuing = none ∧ k.switch = none ∧ k.pend = [] ∧ k.snapshot = [] ∧
    (∀ x, (r.taskAt n x).st = .free ∧ (r.taskAt n x).tag = 0) ∧
    (∀ m, (SMap.get VReg.zero k.v m).tag = 0 ∧ (SMap.get XReg.zero k.x m).tag = 0 ∧ (SMap.get AccRow.zero k.acc m).tag = 0 ∧
      (SMap.get VReg.zero k.planes m).tag = 0 ∧ (SMap.get LatchRow.zero k.latch m).tag = 0 ∧
      (SMap.get Tile.none k.tiles m).tag = 0 ∧ (SMap.get Tile.none k.tiles m).st = .empty ∧
      (SMap.get Stash.none k.stash m).tag = 0 ∧ (SMap.get Stash.none k.stash m).active = false ∧
      (SMap.get Pump.init k.pumps m).next = 1)) ∧
  (∀ a, r.rawByte a = 0 ∧ SMap.get nullTag r.tags a = 0 ∧ SMap.get false r.poisoned a = false) ∧
  (∀ q, q ≤ 64 → r.reg (queueReg q 8) = 4) ∧ (∀ p, p < 64 → r.reg (partReg p 8) = 0x43E8) ∧
  r.reg (fabricReg 0) = 1023 ∧ r.reg (fabricReg 8) = 1 ∧ r.reg (fabricReg 0x18) = 50 ∧
  r.reg (relReg 8) = BitVec.ofNat 64 (256 * 2 ^ 32) ∧ r.reg (relReg 0x40) = 4200 ∧
  r.reg (relReg 0x48) = BitVec.ofNat 64 (2400 * 2 ^ 16) ∧
  ∀ off, (∀ q, q ≤ 64 → off ≠ queueReg q 8) → (∀ p, p < 64 → off ≠ partReg p 8) →
    off ∉ [fabricReg 0, fabricReg 8, fabricReg 0x18, relReg 8, relReg 0x40, relReg 0x48] → (regRule off).isSome = true → r.reg off = 0
end

