-- ==== Sys2Proof/Laws/Exec.lean ====
section
/-! SUPPORT. One equation per instruction: exec of it is its meaning. -/

namespace Sys2Proof.Machine

@[simp] theorem exec_cNop g s : exec (.cNop g) s = execCNop g s := rfl
@[simp] theorem exec_br g disp s : exec (.br g disp) s = execBr g disp s := rfl
@[simp] theorem exec_brl g disp s : exec (.brl g disp) s = execBrl g disp s := rfl
@[simp] theorem exec_jmp g sa disp s : exec (.jmp g sa disp) s = execJmp g sa disp s := rfl
@[simp] theorem exec_jmpl g sa disp s : exec (.jmpl g sa disp) s = execJmpl g sa disp s := rfl
@[simp] theorem exec_ret g s : exec (.ret g) s = execRet g s := rfl
@[simp] theorem exec_loop g sa imm s : exec (.loop g sa imm) s = execLoop g sa imm s := rfl
@[simp] theorem exec_loopi g count imm s : exec (.loopi g count imm) s = execLoopi g count imm s := rfl
@[simp] theorem exec_loopP g sa stages imm s : exec (.loopP g sa stages imm) s = execLoopP g sa stages imm s := rfl
@[simp] theorem exec_lbrk g s : exec (.lbrk g) s = execLbrk g s := rfl
@[simp] theorem exec_lcont g s : exec (.lcont g) s = execLcont g s := rfl
@[simp] theorem exec_ldelta g r d sa s : exec (.ldelta g r d sa) s = execLdelta g r d sa s := rfl
@[simp] theorem exec_sync g mask land s : exec (.sync g mask land) s = execSync g mask land s := rfl
@[simp] theorem exec_safe g map s : exec (.safe g map) s = execSafe g map s := rfl
@[simp] theorem exec_waitx g ch sa s : exec (.waitx g ch sa) s = execWaitx g ch sa s := rfl
@[simp] theorem exec_parkYield g s : exec (.parkYield g) s = execParkYield g s := rfl
@[simp] theorem exec_parkTime g sa s : exec (.parkTime g sa) s = execParkTime g sa s := rfl
@[simp] theorem exec_parkWord g sa sb s : exec (.parkWord g sa sb) s = execParkWord g sa sb s := rfl
@[simp] theorem exec_parkQueue g k s : exec (.parkQueue g k) s = execParkQueue g k s := rfl
@[simp] theorem exec_tspawn g ctx prio sa sb s : exec (.tspawn g ctx prio sa sb) s = execTspawn g ctx prio sa sb s := rfl
@[simp] theorem exec_texit g s : exec (.texit g) s = execTexit g s := rfl
@[simp] theorem exec_halt g code s : exec (.halt g code) s = execHalt g code s := rfl
@[simp] theorem exec_barq g b sa s : exec (.barq g b sa) s = execBarq g b sa s := rfl
@[simp] theorem exec_bard g b sa s : exec (.bard g b sa) s = execBard g b sa s := rfl
@[simp] theorem exec_bara g b die s : exec (.bara g b die) s = execBara g b die s := rfl
@[simp] theorem exec_barw g b die s : exec (.barw g b die) s = execBarw g b die s := rfl
@[simp] theorem exec_pgwait g sa s : exec (.pgwait g sa) s = execPgwait g sa s := rfl
@[simp] theorem exec_trap g n s : exec (.trap g n) s = execTrap g n s := rfl
@[simp] theorem exec_eret g s : exec (.eret g) s = execEret g s := rfl
@[simp] theorem exec_mfs g sd num s : exec (.mfs g sd num) s = execMfs g sd num s := rfl
@[simp] theorem exec_mts g num sa s : exec (.mts g num sa) s = execMts g num sa s := rfl
@[simp] theorem exec_geninc g sd sp s : exec (.geninc g sd sp) s = execGeninc g sd sp s := rfl
@[simp] theorem exec_genrd g sd sp s : exec (.genrd g sd sp) s = execGenrd g sd sp s := rfl
@[simp] theorem exec_sweep g sa start rate s : exec (.sweep g sa start rate) s = execSweep g sa start rate s := rfl
@[simp] theorem exec_ckpt g sp s : exec (.ckpt g sp) s = execCkpt g sp s := rfl
@[simp] theorem exec_sNop g s : exec (.sNop g) s = execSNop g s := rfl
@[simp] theorem exec_add g sd sa sb s : exec (.add g sd sa sb) s = execAdd g sd sa sb s := rfl
@[simp] theorem exec_sub g sd sa sb s : exec (.sub g sd sa sb) s = execSub g sd sa sb s := rfl
@[simp] theorem exec_mul g sd sa sb s : exec (.mul g sd sa sb) s = execMul g sd sa sb s := rfl
@[simp] theorem exec_mulhu g sd sa sb s : exec (.mulhu g sd sa sb) s = execMulhu g sd sa sb s := rfl
@[simp] theorem exec_mulhs g sd sa sb s : exec (.mulhs g sd sa sb) s = execMulhs g sd sa sb s := rfl
@[simp] theorem exec_divu g sd sa sb s : exec (.divu g sd sa sb) s = execDivu g sd sa sb s := rfl
@[simp] theorem exec_divs g sd sa sb s : exec (.divs g sd sa sb) s = execDivs g sd sa sb s := rfl
@[simp] theorem exec_remu g sd sa sb s : exec (.remu g sd sa sb) s = execRemu g sd sa sb s := rfl
@[simp] theorem exec_rems g sd sa sb s : exec (.rems g sd sa sb) s = execRems g sd sa sb s := rfl
@[simp] theorem exec_and g sd sa sb s : exec (.and g sd sa sb) s = execAnd g sd sa sb s := rfl
@[simp] theorem exec_or g sd sa sb s : exec (.or g sd sa sb) s = execOr g sd sa sb s := rfl
@[simp] theorem exec_xor g sd sa sb s : exec (.xor g sd sa sb) s = execXor g sd sa sb s := rfl
@[simp] theorem exec_andn g sd sa sb s : exec (.andn g sd sa sb) s = execAndn g sd sa sb s := rfl
@[simp] theorem exec_shl g sd sa sb s : exec (.shl g sd sa sb) s = execShl g sd sa sb s := rfl
@[simp] theorem exec_shr g sd sa sb s : exec (.shr g sd sa sb) s = execShr g sd sa sb s := rfl
@[simp] theorem exec_sra g sd sa sb s : exec (.sra g sd sa sb) s = execSra g sd sa sb s := rfl
@[simp] theorem exec_rol g sd sa sb s : exec (.rol g sd sa sb) s = execRol g sd sa sb s := rfl
@[simp] theorem exec_min g sd sa sb s : exec (.min g sd sa sb) s = execMin g sd sa sb s := rfl
@[simp] theorem exec_max g sd sa sb s : exec (.max g sd sa sb) s = execMax g sd sa sb s := rfl
@[simp] theorem exec_minu g sd sa sb s : exec (.minu g sd sa sb) s = execMinu g sd sa sb s := rfl
@[simp] theorem exec_maxu g sd sa sb s : exec (.maxu g sd sa sb) s = execMaxu g sd sa sb s := rfl
@[simp] theorem exec_clz g sd sa s : exec (.clz g sd sa) s = execClz g sd sa s := rfl
@[simp] theorem exec_ctz g sd sa s : exec (.ctz g sd sa) s = execCtz g sd sa s := rfl
@[simp] theorem exec_popc g sd sa s : exec (.popc g sd sa) s = execPopc g sd sa s := rfl
@[simp] theorem exec_sext g sd sa w s : exec (.sext g sd sa w) s = execSext g sd sa w s := rfl
@[simp] theorem exec_zext g sd sa w s : exec (.zext g sd sa w) s = execZext g sd sa w s := rfl
@[simp] theorem exec_mov g sd sa s : exec (.mov g sd sa) s = execMov g sd sa s := rfl
@[simp] theorem exec_addx g sd sa sb sh s : exec (.addx g sd sa sb sh) s = execAddx g sd sa sb sh s := rfl
@[simp] theorem exec_addi g sd sa imm s : exec (.addi g sd sa imm) s = execAddi g sd sa imm s := rfl
@[simp] theorem exec_andi g sd sa imm s : exec (.andi g sd sa imm) s = execAndi g sd sa imm s := rfl
@[simp] theorem exec_ori g sd sa imm s : exec (.ori g sd sa imm) s = execOri g sd sa imm s := rfl
@[simp] theorem exec_xori g sd sa imm s : exec (.xori g sd sa imm) s = execXori g sd sa imm s := rfl
@[simp] theorem exec_shli g sd sa sh s : exec (.shli g sd sa sh) s = execShli g sd sa sh s := rfl
@[simp] theorem exec_shri g sd sa sh s : exec (.shri g sd sa sh) s = execShri g sd sa sh s := rfl
@[simp] theorem exec_srai g sd sa sh s : exec (.srai g sd sa sh) s = execSrai g sd sa sh s := rfl
@[simp] theorem exec_li g sd imm s : exec (.li g sd imm) s = execLi g sd imm s := rfl
@[simp] theorem exec_lih g sd imm s : exec (.lih g sd imm) s = execLih g sd imm s := rfl
@[simp] theorem exec_ceq g pd sa sb s : exec (.ceq g pd sa sb) s = execCeq g pd sa sb s := rfl
@[simp] theorem exec_cne g pd sa sb s : exec (.cne g pd sa sb) s = execCne g pd sa sb s := rfl
@[simp] theorem exec_clt g pd sa sb s : exec (.clt g pd sa sb) s = execClt g pd sa sb s := rfl
@[simp] theorem exec_cle g pd sa sb s : exec (.cle g pd sa sb) s = execCle g pd sa sb s := rfl
@[simp] theorem exec_cltu g pd sa sb s : exec (.cltu g pd sa sb) s = execCltu g pd sa sb s := rfl
@[simp] theorem exec_cleu g pd sa sb s : exec (.cleu g pd sa sb) s = execCleu g pd sa sb s := rfl
@[simp] theorem exec_ceqi g pd sa imm s : exec (.ceqi g pd sa imm) s = execCeqi g pd sa imm s := rfl
@[simp] theorem exec_clti g pd sa imm s : exec (.clti g pd sa imm) s = execClti g pd sa imm s := rfl
@[simp] theorem exec_cltui g pd sa imm s : exec (.cltui g pd sa imm) s = execCltui g pd sa imm s := rfl
@[simp] theorem exec_sel g sd sa sb pn s : exec (.sel g sd sa sb pn) s = execSel g sd sa sb pn s := rfl
@[simp] theorem exec_fadd g sd sa sb s : exec (.fadd g sd sa sb) s = execFadd g sd sa sb s := rfl
@[simp] theorem exec_fmul g sd sa sb s : exec (.fmul g sd sa sb) s = execFmul g sd sa sb s := rfl
@[simp] theorem exec_fmin g sd sa sb s : exec (.fmin g sd sa sb) s = execFmin g sd sa sb s := rfl
@[simp] theorem exec_fmax g sd sa sb s : exec (.fmax g sd sa sb) s = execFmax g sd sa sb s := rfl
@[simp] theorem exec_ftoi g sd sa s : exec (.ftoi g sd sa) s = execFtoi g sd sa s := rfl
@[simp] theorem exec_itof g sd sa s : exec (.itof g sd sa) s = execItof g sd sa s := rfl
@[simp] theorem exec_pNop g s : exec (.pNop g) s = execPNop g s := rfl
@[simp] theorem exec_pand g pd pa pb s : exec (.pand g pd pa pb) s = execPand g pd pa pb s := rfl
@[simp] theorem exec_por g pd pa pb s : exec (.por g pd pa pb) s = execPor g pd pa pb s := rfl
@[simp] theorem exec_pxor g pd pa pb s : exec (.pxor g pd pa pb) s = execPxor g pd pa pb s := rfl
@[simp] theorem exec_pandn g pd pa pb s : exec (.pandn g pd pa pb) s = execPandn g pd pa pb s := rfl
@[simp] theorem exec_pnot g pd pa s : exec (.pnot g pd pa) s = execPnot g pd pa s := rfl
@[simp] theorem exec_pseti g pd n s : exec (.pseti g pd n) s = execPseti g pd n s := rfl
@[simp] theorem exec_planes g pd pa n s : exec (.planes g pd pa n) s = execPlanes g pd pa n s := rfl
@[simp] theorem exec_pbcst g pd pa n s : exec (.pbcst g pd pa n) s = execPbcst g pd pa n s := rfl
@[simp] theorem exec_pany g pd pa s : exec (.pany g pd pa) s = execPany g pd pa s := rfl
@[simp] theorem exec_pall g pd pa s : exec (.pall g pd pa) s = execPall g pd pa s := rfl
@[simp] theorem exec_prot g pd pa n s : exec (.prot g pd pa n) s = execProt g pd pa n s := rfl
@[simp] theorem exec_xld g xd ab off s : exec (.xld g xd ab off) s = execXld g xd ab off s := rfl
@[simp] theorem exec_xset g xd n s : exec (.xset g xd n) s = execXset g xd n s := rfl
@[simp] theorem exec_xmov g xd xa s : exec (.xmov g xd xa) s = execXmov g xd xa s := rfl
@[simp] theorem exec_qfmt g k fs fk rm sat s : exec (.qfmt g k fs fk rm sat) s = execQfmt g k fs fk rm sat s := rfl
@[simp] theorem exec_vNop g s : exec (.vNop g) s = execVNop g s := rfl
@[simp] theorem exec_vadd g f rm vd va vb s : exec (.vadd g f rm vd va vb) s = execVadd g f rm vd va vb s := rfl
@[simp] theorem exec_vsub g f rm vd va vb s : exec (.vsub g f rm vd va vb) s = execVsub g f rm vd va vb s := rfl
@[simp] theorem exec_vmul g f rm vd va vb s : exec (.vmul g f rm vd va vb) s = execVmul g f rm vd va vb s := rfl
@[simp] theorem exec_vfma g f rm vd va vb vc s : exec (.vfma g f rm vd va vb vc) s = execVfma g f rm vd va vb vc s := rfl
@[simp] theorem exec_vfms g f rm vd va vb vc s : exec (.vfms g f rm vd va vb vc) s = execVfms g f rm vd va vb vc s := rfl
@[simp] theorem exec_vfnma g f rm vd va vb vc s : exec (.vfnma g f rm vd va vb vc) s = execVfnma g f rm vd va vb vc s := rfl
@[simp] theorem exec_vmin g f rm vd va vb s : exec (.vmin g f rm vd va vb) s = execVmin g f rm vd va vb s := rfl
@[simp] theorem exec_vmax g f rm vd va vb s : exec (.vmax g f rm vd va vb) s = execVmax g f rm vd va vb s := rfl
@[simp] theorem exec_vabs g f rm vd va s : exec (.vabs g f rm vd va) s = execVabs g f rm vd va s := rfl
@[simp] theorem exec_vneg g f rm vd va s : exec (.vneg g f rm vd va) s = execVneg g f rm vd va s := rfl
@[simp] theorem exec_vrcp g f rm vd va s : exec (.vrcp g f rm vd va) s = execVrcp g f rm vd va s := rfl
@[simp] theorem exec_vrsq g f rm vd va s : exec (.vrsq g f rm vd va) s = execVrsq g f rm vd va s := rfl
@[simp] theorem exec_vsqrt g f rm vd va s : exec (.vsqrt g f rm vd va) s = execVsqrt g f rm vd va s := rfl
@[simp] theorem exec_vexp2 g f rm vd va s : exec (.vexp2 g f rm vd va) s = execVexp2 g f rm vd va s := rfl
@[simp] theorem exec_vlog2 g f rm vd va s : exec (.vlog2 g f rm vd va) s = execVlog2 g f rm vd va s := rfl
@[simp] theorem exec_vcmpeq g f rm pd va vb s : exec (.vcmpeq g f rm pd va vb) s = execVcmpeq g f rm pd va vb s := rfl
@[simp] theorem exec_vcmplt g f rm pd va vb s : exec (.vcmplt g f rm pd va vb) s = execVcmplt g f rm pd va vb s := rfl
@[simp] theorem exec_vcmple g f rm pd va vb s : exec (.vcmple g f rm pd va vb) s = execVcmple g f rm pd va vb s := rfl
@[simp] theorem exec_vcmpne g f rm pd va vb s : exec (.vcmpne g f rm pd va vb) s = execVcmpne g f rm pd va vb s := rfl
@[simp] theorem exec_vclass g f rm pd va mask s : exec (.vclass g f rm pd va mask) s = execVclass g f rm pd va mask s := rfl
@[simp] theorem exec_vsel g f rm vd va vb pc s : exec (.vsel g f rm vd va vb pc) s = execVsel g f rm vd va vb pc s := rfl
@[simp] theorem exec_vcvt g fd rm vd va fs sat part s : exec (.vcvt g fd rm vd va fs sat part) s = execVcvt g fd rm vd va fs sat part s := rfl
@[simp] theorem exec_vqnt g fd rm vd va vc fs sat part s : exec (.vqnt g fd rm vd va vc fs sat part) s = execVqnt g fd rm vd va vc fs sat part s := rfl
@[simp] theorem exec_vcbdec g fd rm vd va part s : exec (.vcbdec g fd rm vd va part) s = execVcbdec g fd rm vd va part s := rfl
@[simp] theorem exec_vround g f rm vd va s : exec (.vround g f rm vd va) s = execVround g f rm vd va s := rfl
@[simp] theorem exec_viadd g f rm vd va vb s : exec (.viadd g f rm vd va vb) s = execViadd g f rm vd va vb s := rfl
@[simp] theorem exec_visub g f rm vd va vb s : exec (.visub g f rm vd va vb) s = execVisub g f rm vd va vb s := rfl
@[simp] theorem exec_vimul g f rm vd va vb s : exec (.vimul g f rm vd va vb) s = execVimul g f rm vd va vb s := rfl
@[simp] theorem exec_vimin g f rm vd va vb s : exec (.vimin g f rm vd va vb) s = execVimin g f rm vd va vb s := rfl
@[simp] theorem exec_vimax g f rm vd va vb s : exec (.vimax g f rm vd va vb) s = execVimax g f rm vd va vb s := rfl
@[simp] theorem exec_vand g f rm vd va vb s : exec (.vand g f rm vd va vb) s = execVand g f rm vd va vb s := rfl
@[simp] theorem exec_vor g f rm vd va vb s : exec (.vor g f rm vd va vb) s = execVor g f rm vd va vb s := rfl
@[simp] theorem exec_vxor g f rm vd va vb s : exec (.vxor g f rm vd va vb) s = execVxor g f rm vd va vb s := rfl
@[simp] theorem exec_vshl g f rm vd va vb s : exec (.vshl g f rm vd va vb) s = execVshl g f rm vd va vb s := rfl
@[simp] theorem exec_vshr g f rm vd va vb s : exec (.vshr g f rm vd va vb) s = execVshr g f rm vd va vb s := rfl
@[simp] theorem exec_vsra g f rm vd va vb s : exec (.vsra g f rm vd va vb) s = execVsra g f rm vd va vb s := rfl
@[simp] theorem exec_vicmpeq g f rm pd va vb s : exec (.vicmpeq g f rm pd va vb) s = execVicmpeq g f rm pd va vb s := rfl
@[simp] theorem exec_vicmplt g f rm pd va vb s : exec (.vicmplt g f rm pd va vb) s = execVicmplt g f rm pd va vb s := rfl
@[simp] theorem exec_viabs g f rm vd va s : exec (.viabs g f rm vd va) s = execViabs g f rm vd va s := rfl
@[simp] theorem exec_vpopc g f rm vd va s : exec (.vpopc g f rm vd va) s = execVpopc g f rm vd va s := rfl
@[simp] theorem exec_vmov g f rm vd va s : exec (.vmov g f rm vd va) s = execVmov g f rm vd va s := rfl
@[simp] theorem exec_vbcst g f rm vd va n s : exec (.vbcst g f rm vd va n) s = execVbcst g f rm vd va n s := rfl
@[simp] theorem exec_vperm g f rm vd va vb s : exec (.vperm g f rm vd va vb) s = execVperm g f rm vd va vb s := rfl
@[simp] theorem exec_vrotl g f rm vd va n s : exec (.vrotl g f rm vd va n) s = execVrotl g f rm vd va n s := rfl
@[simp] theorem exec_vextr g f rm vd va vb n s : exec (.vextr g f rm vd va vb n) s = execVextr g f rm vd va vb n s := rfl
@[simp] theorem exec_vins g f rm vd va vb n s : exec (.vins g f rm vd va vb n) s = execVins g f rm vd va vb n s := rfl
@[simp] theorem exec_vzip g f rm vd va vb h s : exec (.vzip g f rm vd va vb h) s = execVzip g f rm vd va vb h s := rfl
@[simp] theorem exec_vunzip g f rm vd va vb o s : exec (.vunzip g f rm vd va vb o) s = execVunzip g f rm vd va vb o s := rfl
@[simp] theorem exec_viota g f rm vd s : exec (.viota g f rm vd) s = execViota g f rm vd s := rfl
@[simp] theorem exec_vcompr g f rm vd va pc s : exec (.vcompr g f rm vd va pc) s = execVcompr g f rm vd va pc s := rfl
@[simp] theorem exec_vexpnd g f rm vd va pc s : exec (.vexpnd g f rm vd va pc) s = execVexpnd g f rm vd va pc s := rfl
@[simp] theorem exec_vrsum g f rm vd va pc s : exec (.vrsum g f rm vd va pc) s = execVrsum g f rm vd va pc s := rfl
@[simp] theorem exec_vrmax g f rm vd va pc s : exec (.vrmax g f rm vd va pc) s = execVrmax g f rm vd va pc s := rfl
@[simp] theorem exec_vrmin g f rm vd va pc s : exec (.vrmin g f rm vd va pc) s = execVrmin g f rm vd va pc s := rfl
@[simp] theorem exec_vscan g f rm vd va pc s : exec (.vscan g f rm vd va pc) s = execVscan g f rm vd va pc s := rfl
@[simp] theorem exec_vdot g f rm vd va vb pc s : exec (.vdot g f rm vd va vb pc) s = execVdot g f rm vd va vb pc s := rfl
@[simp] theorem exec_vargmx g f rm vd va pc s : exec (.vargmx g f rm vd va pc) s = execVargmx g f rm vd va pc s := rfl
@[simp] theorem exec_mNop g s : exec (.mNop g) s = execMNop g s := rfl
@[simp] theorem exec_mpush g f vs row s : exec (.mpush g f vs row) s = execMpush g f vs row s := rfl
@[simp] theorem exec_mpusht g f e row s : exec (.mpusht g f e row) s = execMpusht g f e row s := rfl
@[simp] theorem exec_mshift g f acc vs row xa xb ovr s : exec (.mshift g f acc vs row xa xb ovr) s = execMshift g f acc vs row xa xb ovr s := rfl
@[simp] theorem exec_mshiftl g f acc row xa xb ovr s : exec (.mshiftl g f acc row xa xb ovr) s = execMshiftl g f acc row xa xb ovr s := rfl
@[simp] theorem exec_mshiftt g f acc e row xa xb ovr s : exec (.mshiftt g f acc e row xa xb ovr) s = execMshiftt g f acc e row xa xb ovr s := rfl
@[simp] theorem exec_mflip g s : exec (.mflip g) s = execMflip g s := rfl
@[simp] theorem exec_mdrain g f acc vd row rm sat s : exec (.mdrain g f acc vd row rm sat) s = execMdrain g f acc vd row rm sat s := rfl
@[simp] theorem exec_mzero g acc s : exec (.mzero g acc) s = execMzero g acc s := rfl
@[simp] theorem exec_maddv g f acc vs row ovr s : exec (.maddv g f acc vs row ovr) s = execMaddv g f acc vs row ovr s := rfl
@[simp] theorem exec_mdrainz g f acc vd row rm sat s : exec (.mdrainz g f acc vd row rm sat) s = execMdrainz g f acc vd row rm sat s := rfl
@[simp] theorem exec_lNop g s : exec (.lNop g) s = execLNop g s := rfl
@[simp] theorem exec_lds g w sx sd ab sa off s : exec (.lds g w sx sd ab sa off) s = execLds g w sx sd ab sa off s := rfl
@[simp] theorem exec_sts g w sv ab sa off s : exec (.sts g w sv ab sa off) s = execSts g w sv ab sa off s := rfl
@[simp] theorem exec_vld g len vd ab sa off s : exec (.vld g len vd ab sa off) s = execVld g len vd ab sa off s := rfl
@[simp] theorem exec_vst g len vd ab sa off s : exec (.vst g len vd ab sa off) s = execVst g len vd ab sa off s := rfl
@[simp] theorem exec_vlds g w vd ab off sa s : exec (.vlds g w vd ab off sa) s = execVlds g w vd ab off sa s := rfl
@[simp] theorem exec_vsts g w vd ab off sa s : exec (.vsts g w vd ab off sa) s = execVsts g w vd ab off sa s := rfl
@[simp] theorem exec_vldx g w vd ab sa vx s : exec (.vldx g w vd ab sa vx) s = execVldx g w vd ab sa vx s := rfl
@[simp] theorem exec_vstx g w vd ab sa vx s : exec (.vstx g w vd ab sa vx) s = execVstx g w vd ab sa vx s := rfl
@[simp] theorem exec_gathr g glob res vx ab sa f cnt pr s : exec (.gathr g glob res vx ab sa f cnt pr) s = execGathr g glob res vx ab sa f cnt pr s := rfl
@[simp] theorem exec_atoml g op f sd ab sa off s : exec (.atoml g op f sd ab sa off) s = execAtoml g op f sd ab sa off s := rfl
@[simp] theorem exec_ldg g w sx sd ab sa off pr s : exec (.ldg g w sx sd ab sa off pr) s = execLdg g w sx sd ab sa off pr s := rfl
@[simp] theorem exec_stg g w sv ab sa off s : exec (.stg g w sv ab sa off) s = execStg g w sv ab sa off s := rfl
@[simp] theorem exec_vldg g len vd ab sa off pr s : exec (.vldg g len vd ab sa off pr) s = execVldg g len vd ab sa off pr s := rfl
@[simp] theorem exec_vstg g len vd ab sa off s : exec (.vstg g len vd ab sa off) s = execVstg g len vd ab sa off s := rfl
@[simp] theorem exec_atomg g op f sd ab sa off s : exec (.atomg g op f sd ab sa off) s = execAtomg g op f sd ab sa off s := rfl
@[simp] theorem exec_watom g op f sd ab sa off s : exec (.watom g op f sd ab sa off) s = execWatom g op f sd ab sa off s := rfl
@[simp] theorem exec_watomr g op f vd ab sa off s : exec (.watomr g op f vd ab sa off) s = execWatomr g op f vd ab sa off s := rfl
@[simp] theorem exec_pgreq g wr ab sa off s : exec (.pgreq g wr ab sa off) s = execPgreq g wr ab sa off s := rfl
@[simp] theorem exec_cdisc g ab off sa s : exec (.cdisc g ab off sa) s = execCdisc g ab off sa s := rfl
@[simp] theorem exec_cflush g inv ab off sa s : exec (.cflush g inv ab off sa) s = execCflush g inv ab off sa s := rfl
@[simp] theorem exec_smap g e ab off sg sz s : exec (.smap g e ab off sg sz) s = execSmap g e ab off sg sz s := rfl
@[simp] theorem exec_sunmap g e s : exec (.sunmap g e) s = execSunmap g e s := rfl
@[simp] theorem exec_sflush g e s : exec (.sflush g e) s = execSflush g e s := rfl
@[simp] theorem exec_sdisc g e s : exec (.sdisc g e) s = execSdisc g e s := rfl
@[simp] theorem exec_rldg g wd d ab off sa s : exec (.rldg g wd d ab off sa) s = execRldg g wd d ab off sa s := rfl
@[simp] theorem exec_rstg g wd d ab off sa s : exec (.rstg g wd d ab off sa) s = execRstg g wd d ab off sa s := rfl
@[simp] theorem exec_rstp g wd d ab off sa s : exec (.rstp g wd d ab off sa) s = execRstp g wd d ab off sa s := rfl
@[simp] theorem exec_ratom g op f sd ab off sa s : exec (.ratom g op f sd ab off sa) s = execRatom g op f sd ab off sa s := rfl
@[simp] theorem exec_rfence g s : exec (.rfence g) s = execRfence g s := rfl
@[simp] theorem exec_eNop g s : exec (.eNop g) s = execENop g s := rfl
@[simp] theorem exec_pcopy g ch ab off sd s : exec (.pcopy g ch ab off sd) s = execPcopy g ch ab off sd s := rfl
@[simp] theorem exec_pcopyt g ch ab off sd s : exec (.pcopyt g ch ab off sd) s = execPcopyt g ch ab off sd s := rfl
@[simp] theorem exec_pcopyr g ch ab off sd s : exec (.pcopyr g ch ab off sd) s = execPcopyr g ch ab off sd s := rfl
@[simp] theorem exec_pstat g ch sd s : exec (.pstat g ch sd) s = execPstat g ch sd s := rfl
@[simp] theorem exec_pstatErr g ch sd s : exec (.pstatErr g ch sd) s = execPstatErr g ch sd s := rfl
@[simp] theorem exec_pstatClr g ch sd s : exec (.pstatClr g ch sd) s = execPstatClr g ch sd s := rfl
@[simp] theorem exec_tbind g e lvl ab sa ac n rows pair s : exec (.tbind g e lvl ab sa ac n rows pair) s = execTbind g e lvl ab sa ac n rows pair s := rfl
@[simp] theorem exec_tfill g e s : exec (.tfill g e) s = execTfill g e s := rfl
@[simp] theorem exec_tdrain g e s : exec (.tdrain g e) s = execTdrain g e s := rfl
@[simp] theorem exec_tfree g e s : exec (.tfree g e) s = execTfree g e s := rfl
@[simp] theorem exec_tstate g e sd s : exec (.tstate g e sd) s = execTstate g e sd s := rfl
@[simp] theorem exec_vsend g sa ab off num len s : exec (.vsend g sa ab off num len) s = execVsend g sa ab off num len s := rfl
@[simp] theorem exec_vlatch g t sender num s : exec (.vlatch g t sender num) s = execVlatch g t sender num s := rfl
@[simp] theorem exec_vstat g sd s : exec (.vstat g sd) s = execVstat g sd s := rfl
@[simp] theorem exec_qpush g k ab off s : exec (.qpush g k ab off) s = execQpush g k ab off s := rfl
@[simp] theorem exec_qadv g k n s : exec (.qadv g k n) s = execQadv g k n s := rfl
@[simp] theorem exec_qcfg g k prod cons s : exec (.qcfg g k prod cons) s = execQcfg g k prod cons s := rfl
@[simp] theorem exec_qrst g k s : exec (.qrst g k) s = execQrst g k s := rfl
@[simp] theorem exec_gsrch g ab off sd s : exec (.gsrch g ab off sd) s = execGsrch g ab off sd s := rfl
@[simp] theorem exec_gstat g sd sa s : exec (.gstat g sd sa) s = execGstat g sd sa s := rfl
@[simp] theorem exec_rlydone g n s : exec (.rlydone g n) s = execRlydone g n s := rfl
@[simp] theorem exec_rlyfree g n s : exec (.rlyfree g n) s = execRlyfree g n s := rfl
@[simp] theorem exec_rlystash g n s : exec (.rlystash g n) s = execRlystash g n s := rfl
@[simp] theorem exec_rlypop g n s : exec (.rlypop g n) s = execRlypop g n s := rfl
@[simp] theorem exec_cres g sd ab sa s : exec (.cres g sd ab sa) s = execCres g sd ab sa s := rfl
@[simp] theorem exec_crel g ab sa s : exec (.crel g ab sa) s = execCrel g ab sa s := rfl
@[simp] theorem exec_split g n s : exec (.split g n) s = execSplit g n s := rfl
@[simp] theorem exec_splitOccupancyEnd core s : exec (.splitOccupancyEnd core) s = execSplitOccupancyEnd core s := rfl
@[simp] theorem exec_bundleFetch core s : exec (.bundleFetch core) s = execBundleFetch core s := rfl
@[simp] theorem exec_resultDelivery core s : exec (.resultDelivery core) s = execResultDelivery core s := rfl
@[simp] theorem exec_loadDataReturn core s : exec (.loadDataReturn core) s = execLoadDataReturn core s := rfl
@[simp] theorem exec_xldLanding core s : exec (.xldLanding core) s = execXldLanding core s := rfl
@[simp] theorem exec_contributionLanding core s : exec (.contributionLanding core) s = execContributionLanding core s := rfl
@[simp] theorem exec_pushLanding core s : exec (.pushLanding core) s = execPushLanding core s := rfl
@[simp] theorem exec_queueProducerLanding quad k s : exec (.queueProducerLanding quad k) s = execQueueProducerLanding quad k s := rfl
@[simp] theorem exec_stallPark core ctx s : exec (.stallPark core ctx) s = execStallPark core ctx s := rfl
@[simp] theorem exec_taskWake core ctx s : exec (.taskWake core ctx) s = execTaskWake core ctx s := rfl
@[simp] theorem exec_priorityPromotion core ctx s : exec (.priorityPromotion core ctx) s = execPriorityPromotion core ctx s := rfl
@[simp] theorem exec_turnEnd core s : exec (.turnEnd core) s = execTurnEnd core s := rfl
@[simp] theorem exec_switchBegin core s : exec (.switchBegin core) s = execSwitchBegin core s := rfl
@[simp] theorem exec_switchEnd core s : exec (.switchEnd core) s = execSwitchEnd core s := rfl
@[simp] theorem exec_placementStart launch entry s : exec (.placementStart launch entry) s = execPlacementStart launch entry s := rfl
@[simp] theorem exec_stashFill core e sector s : exec (.stashFill core e sector) s = execStashFill core e sector s := rfl
@[simp] theorem exec_tileFillComplete core e s : exec (.tileFillComplete core e) s = execTileFillComplete core e s := rfl
@[simp] theorem exec_tileDrainComplete core e s : exec (.tileDrainComplete core e) s = execTileDrainComplete core e s := rfl
@[simp] theorem exec_pumpJobStart core ch s : exec (.pumpJobStart core ch) s = execPumpJobStart core ch s := rfl
@[simp] theorem exec_pumpJobComplete core ch s : exec (.pumpJobComplete core ch) s = execPumpJobComplete core ch s := rfl
@[simp] theorem exec_pumpJobHalt core ch s : exec (.pumpJobHalt core ch) s = execPumpJobHalt core ch s := rfl
@[simp] theorem exec_engineRangeJobComplete core s : exec (.engineRangeJobComplete core) s = execEngineRangeJobComplete core s := rfl
@[simp] theorem exec_wellheadUpdate core s : exec (.wellheadUpdate core) s = execWellheadUpdate core s := rfl
@[simp] theorem exec_volleyDrive core ctx s : exec (.volleyDrive core ctx) s = execVolleyDrive core ctx s := rfl
@[simp] theorem exec_spillStallRelease die s : exec (.spillStallRelease die) s = execSpillStallRelease die s := rfl
@[simp] theorem exec_heldPostingRelease part s : exec (.heldPostingRelease part) s = execHeldPostingRelease part s := rfl
@[simp] theorem exec_notifyWrite offset width value s : exec (.notifyWrite offset width value) s = execNotifyWrite offset width value s := rfl
@[simp] theorem exec_packetFetch q s : exec (.packetFetch q) s = execPacketFetch q s := rfl
@[simp] theorem exec_launch q idx s : exec (.launch q idx) s = execLaunch q idx s := rfl
@[simp] theorem exec_launchComplete launch s : exec (.launchComplete launch) s = execLaunchComplete launch s := rfl
@[simp] theorem exec_copy q idx s : exec (.copy q idx) s = execCopy q idx s := rfl
@[simp] theorem exec_rallyLoad q idx s : exec (.rallyLoad q idx) s = execRallyLoad q idx s := rfl
@[simp] theorem exec_gen q idx s : exec (.gen q idx) s = execGen q idx s := rfl
@[simp] theorem exec_barrier q idx s : exec (.barrier q idx) s = execBarrier q idx s := rfl
@[simp] theorem exec_barrierConditionMet q idx s : exec (.barrierConditionMet q idx) s = execBarrierConditionMet q idx s := rfl
@[simp] theorem exec_fence q idx s : exec (.fence q idx) s = execFence q idx s := rfl
@[simp] theorem exec_hostWordPoll w s : exec (.hostWordPoll w) s = execHostWordPoll w s := rfl
@[simp] theorem exec_sliceEnd quad s : exec (.sliceEnd quad) s = execSliceEnd quad s := rfl
@[simp] theorem exec_sliceStart quad s : exec (.sliceStart quad) s = execSliceStart quad s := rfl
@[simp] theorem exec_spacingOverrun core ctx ns s : exec (.spacingOverrun core ctx ns) s = execSpacingOverrun core ctx ns s := rfl
@[simp] theorem exec_contextSave quad s : exec (.contextSave quad) s = execContextSave quad s := rfl
@[simp] theorem exec_save part s : exec (.save part) s = execSave part s := rfl
@[simp] theorem exec_restore part s : exec (.restore part) s = execRestore part s := rfl
@[simp] theorem exec_shootdown part value s : exec (.shootdown part value) s = execShootdown part value s := rfl
@[simp] theorem exec_shootdownAck part core s : exec (.shootdownAck part core) s = execShootdownAck part core s := rfl
@[simp] theorem exec_shootdownDone part s : exec (.shootdownDone part) s = execShootdownDone part s := rfl
@[simp] theorem exec_migrationStart part rec s : exec (.migrationStart part rec) s = execMigrationStart part rec s := rfl
@[simp] theorem exec_migrationLineMove part rec s : exec (.migrationLineMove part rec) s = execMigrationLineMove part rec s := rfl
@[simp] theorem exec_migrationFinish part rec s : exec (.migrationFinish part rec) s = execMigrationFinish part rec s := rfl
@[simp] theorem exec_migrationDone part rec s : exec (.migrationDone part rec) s = execMigrationDone part rec s := rfl
@[simp] theorem exec_sweepPassStart s : exec (.sweepPassStart) s = execSweepPassStart s := rfl
@[simp] theorem exec_sweepElement e s : exec (.sweepElement e) s = execSweepElement e s := rfl
@[simp] theorem exec_sweepPassComplete s : exec (.sweepPassComplete) s = execSweepPassComplete s := rfl
@[simp] theorem exec_rallyEntryStart part s : exec (.rallyEntryStart part) s = execRallyEntryStart part s := rfl
@[simp] theorem exec_rallyEntryComplete part s : exec (.rallyEntryComplete part) s = execRallyEntryComplete part s := rfl
@[simp] theorem exec_rallyIncrementTimeout rtag s : exec (.rallyIncrementTimeout rtag) s = execRallyIncrementTimeout rtag s := rfl
@[simp] theorem exec_gseQueryPacket stack s : exec (.gseQueryPacket stack) s = execGseQueryPacket stack s := rfl
@[simp] theorem exec_gseRound stack slot s : exec (.gseRound stack slot) s = execGseRound stack slot s := rfl
@[simp] theorem exec_gseForwardedRequest stack s : exec (.gseForwardedRequest stack) s = execGseForwardedRequest stack s := rfl
@[simp] theorem exec_gseQueryComplete stack slot s : exec (.gseQueryComplete stack slot) s = execGseQueryComplete stack slot s := rfl
@[simp] theorem exec_flitSend port s : exec (.flitSend port) s = execFlitSend port s := rfl
@[simp] theorem exec_flitReceive port payload ctl s : exec (.flitReceive port payload ctl) s = execFlitReceive port payload ctl s := rfl
@[simp] theorem exec_reportTimer port s : exec (.reportTimer port) s = execReportTimer port s := rfl
@[simp] theorem exec_reportReceive port payload ctl s : exec (.reportReceive port payload ctl) s = execReportReceive port payload ctl s := rfl
@[simp] theorem exec_fabricRead s : exec (.fabricRead) s = execFabricRead s := rfl
@[simp] theorem exec_fabricWrite s : exec (.fabricWrite) s = execFabricWrite s := rfl
@[simp] theorem exec_fabricPostedWrite s : exec (.fabricPostedWrite) s = execFabricPostedWrite s := rfl
@[simp] theorem exec_fabricAtomic s : exec (.fabricAtomic) s = execFabricAtomic s := rfl
@[simp] theorem exec_fabricResponse s : exec (.fabricResponse) s = execFabricResponse s := rfl
@[simp] theorem exec_staleNotice s : exec (.staleNotice) s = execStaleNotice s := rfl
@[simp] theorem exec_announce s : exec (.announce) s = execAnnounce s := rfl
@[simp] theorem exec_announceSend node s : exec (.announceSend node) s = execAnnounceSend node s := rfl
@[simp] theorem exec_rallyIncrement s : exec (.rallyIncrement) s = execRallyIncrement s := rfl
@[simp] theorem exec_postedWriteGapTimeout src s : exec (.postedWriteGapTimeout src) s = execPostedWriteGapTimeout src s := rfl
@[simp] theorem exec_escapeMove port vc s : exec (.escapeMove port vc) s = execEscapeMove port vc s := rfl
@[simp] theorem exec_remoteTimeout rtag s : exec (.remoteTimeout rtag) s = execRemoteTimeout rtag s := rfl
@[simp] theorem exec_portTrainingDone port peer pport s : exec (.portTrainingDone port peer pport) s = execPortTrainingDone port peer pport s := rfl
@[simp] theorem exec_nodeIdWrite value s : exec (.nodeIdWrite value) s = execNodeIdWrite value s := rfl
@[simp] theorem exec_coldReset s : exec (.coldReset) s = execColdReset s := rfl
@[simp] theorem exec_warmReset s : exec (.warmReset) s = execWarmReset s := rfl
@[simp] theorem exec_functionReset s : exec (.functionReset) s = execFunctionReset s := rfl
@[simp] theorem exec_startGroupBegin group s : exec (.startGroupBegin group) s = execStartGroupBegin group s := rfl
@[simp] theorem exec_unitReady u ok s : exec (.unitReady u ok) s = execUnitReady u ok s := rfl
@[simp] theorem exec_correctedError kind index addr part s : exec (.correctedError kind index addr part) s = execCorrectedError kind index addr part s := rfl
@[simp] theorem exec_correctedThreshold kind index s : exec (.correctedThreshold kind index) s = execCorrectedThreshold kind index s := rfl
@[simp] theorem exec_uncorrectableLineError cache line s : exec (.uncorrectableLineError cache line) s = execUncorrectableLineError cache line s := rfl
@[simp] theorem exec_tagParityError die line s : exec (.tagParityError die line) s = execTagParityError die line s := rfl
@[simp] theorem exec_errorInject value s : exec (.errorInject value) s = execErrorInject value s := rfl
@[simp] theorem exec_injectedReport kind index cls addr detail s : exec (.injectedReport kind index cls addr detail) s = execInjectedReport kind index cls addr detail s := rfl
@[simp] theorem exec_ckptCloseDone part s : exec (.ckptCloseDone part) s = execCkptCloseDone part s := rfl
@[simp] theorem exec_rollback part s : exec (.rollback part) s = execRollback part s := rfl
@[simp] theorem exec_rollbackDone part s : exec (.rollbackDone part) s = execRollbackDone part s := rfl
@[simp] theorem exec_powerControlTick watts s : exec (.powerControlTick watts) s = execPowerControlTick watts s := rfl
@[simp] theorem exec_registerWrite offset value s : exec (.registerWrite offset value) s = execRegisterWrite offset value s := rfl
@[simp] theorem exec_tlbWalkComplete core s : exec (.tlbWalkComplete core) s = execTlbWalkComplete core s := rfl

end Sys2Proof.Machine
end

