-- ==== Sys2Proof/Laws/SMap.lean ====
section
/-! SUPPORT. Sparse maps: reading after writing, and the canonical form that writing keeps. -/

namespace Sys2Proof.Machine

theorem SMap.get_filter_above {α : Type} (d : α) (m : SMap α) (k j : Nat) (h : k < j) :
    SMap.get d (m.filter fun e => k < e.1) j = SMap.get d m j := by
  induction m with
  | nil => rfl
  | cons e m ih =>
    by_cases hk : k < e.1
    · simp [hk, SMap.get, ih]
    · have h1 : ¬ j < e.1 := by omega
      have h2 : ¬ j = e.1 := by omega
      simp [hk, SMap.get, ih, h1, h2]

theorem SMap.get_filter_below {α : Type} (d : α) (m : SMap α) (k j : Nat) (h : j ≤ k) :
    SMap.get d (m.filter fun e => k < e.1) j = d := by
  induction m with
  | nil => rfl
  | cons e m ih =>
    by_cases hk : k < e.1
    · have : j < e.1 := by omega
      simp [hk, SMap.get, this]
    · simp [hk, ih]

/-- A read after a write: the value written at its key, the old value at every other. -/
theorem SMap.get_set {α : Type} [DecidableEq α] (d : α) (m : SMap α) (k j : Nat) (v : α) :
    SMap.get d (SMap.set d m k v) j = if j = k then v else SMap.get d m j := by
  induction m with
  | nil => by_cases hv : v = d <;> by_cases hj : j = k <;> simp_all [SMap.set, SMap.get]
  | cons e m ih =>
    obtain ⟨i, w⟩ := e
    simp only [SMap.set]
    split
    · rename_i hki
      split
      · rename_i hv
        by_cases hj : j = k
        · subst hj; simp [SMap.get, hki, hv]
        · simp [hj]
      · by_cases hj : j = k
        · subst hj; simp [SMap.get]
        · rw [SMap.get]
          by_cases hlt : j < k
          · have : j < i := by omega
            simp [hlt, hj, SMap.get, this]
          · simp [hlt, hj]
    · split
      · rename_i hki
        subst hki
        split
        · rename_i hv
          by_cases hj : j = k
          · subst hj; simp [SMap.get_filter_below, hv]
          · by_cases hlt : j < k
            · simp [SMap.get_filter_below d m k j (by omega), hj, SMap.get, hlt]
            · simp [SMap.get_filter_above d m k j (by omega), hj, SMap.get, hlt]
        · by_cases hj : j = k
          · subst hj; simp [SMap.get]
          · simp [SMap.get, hj]
      · rename_i h1 h2
        by_cases hj : j = k
        · subst hj; simp [SMap.get, h1, h2, ih]
        · simp [SMap.get, hj, ih]

@[simp] theorem SMap.get_set_same {α : Type} [DecidableEq α] (d : α) (m : SMap α) (k : Nat) (v : α) :
    SMap.get d (SMap.set d m k v) k = v := by simp [SMap.get_set]

theorem SMap.get_set_other {α : Type} [DecidableEq α] (d : α) (m : SMap α) {k j : Nat} (v : α) (h : j ≠ k) :
    SMap.get d (SMap.set d m k v) j = SMap.get d m j := by simp [SMap.get_set, h]

/-- The bound of a canonical map: every key lies above it. -/
def SMap.above (b : Option Nat) (k : Nat) : Bool := match b with | none => true | some j => decide (j < k)

theorem SMap.okFrom_cons {α : Type} [DecidableEq α] (d : α) (b : Option Nat) (k : Nat) (v : α) (m : SMap α) :
    SMap.okFrom d b ((k, v) :: m) = (SMap.above b k && decide (v ≠ d) && SMap.okFrom d (some k) m) := by
  cases b <;> simp [SMap.okFrom, SMap.above]

theorem SMap.okFrom_weaken {α : Type} [DecidableEq α] (d : α) {b c : Option Nat} {m : SMap α}
    (hbc : ∀ k, SMap.above b k → SMap.above c k) (h : SMap.okFrom d b m) : SMap.okFrom d c m := by
  cases m with
  | nil => simp [SMap.okFrom]
  | cons e m =>
    obtain ⟨k, v⟩ := e
    simp only [SMap.okFrom_cons, Bool.and_eq_true] at h ⊢
    exact ⟨⟨hbc k h.1.1, h.1.2⟩, h.2⟩

theorem SMap.okFrom_filter {α : Type} [DecidableEq α] (d : α) (f : Nat × α → Bool) {b : Option Nat} {m : SMap α}
    (h : SMap.okFrom d b m) : SMap.okFrom d b (m.filter f) := by
  induction m generalizing b with
  | nil => simp [SMap.okFrom]
  | cons e m ih =>
    obtain ⟨k, v⟩ := e
    simp only [SMap.okFrom_cons, Bool.and_eq_true] at h
    by_cases hf : f (k, v)
    · simp only [List.filter_cons, hf, if_true, SMap.okFrom_cons, Bool.and_eq_true]
      exact ⟨h.1, ih h.2⟩
    · simp only [List.filter_cons, hf]
      refine ih (SMap.okFrom_weaken d (fun j hj => ?_) h.2)
      have := h.1.1
      cases b <;> simp_all [SMap.above]; omega

theorem SMap.okFrom_set {α : Type} [DecidableEq α] (d : α) {b : Option Nat} {m : SMap α} (k : Nat) (v : α)
    (hb : SMap.above b k) (h : SMap.okFrom d b m) : SMap.okFrom d b (SMap.set d m k v) := by
  induction m generalizing b with
  | nil =>
    by_cases hv : v = d
    · simp [SMap.set, hv, SMap.okFrom]
    · simp [SMap.set, hv, SMap.okFrom_cons, hb, SMap.okFrom]
  | cons e m ih =>
    obtain ⟨i, w⟩ := e
    have h0 := h
    simp only [SMap.okFrom_cons, Bool.and_eq_true] at h
    simp only [SMap.set]
    split
    · rename_i hki
      split
      · exact h0
      · rename_i hv
        simp only [SMap.okFrom_cons, Bool.and_eq_true]
        exact ⟨⟨hb, by simpa using hv⟩, ⟨by simpa [SMap.above] using hki, h.1.2⟩, h.2⟩
    · split
      · rename_i hki
        subst hki
        split
        · refine SMap.okFrom_filter d _ (SMap.okFrom_weaken d (fun j hj => ?_) h.2)
          have := h.1.1
          cases b <;> simp_all [SMap.above]; omega
        · rename_i hv
          simp only [SMap.okFrom_cons, Bool.and_eq_true]
          exact ⟨⟨hb, by simpa using hv⟩, h.2⟩
      · rename_i h1 h2
        simp only [SMap.okFrom_cons, Bool.and_eq_true]
        refine ⟨h.1, ih ?_ h.2⟩
        simp [SMap.above]; omega

/-- Writing keeps the canonical form. -/
theorem SMap.wf_set {α : Type} [DecidableEq α] (d : α) {m : SMap α} (k : Nat) (v : α) (h : SMap.wf d m) :
    SMap.wf d (SMap.set d m k v) := SMap.okFrom_set d k v rfl h

/-- Leaving entries out keeps the canonical form. -/
theorem SMap.wf_filter {α : Type} [DecidableEq α] (d : α) (f : Nat × α → Bool) {m : SMap α} (h : SMap.wf d m) :
    SMap.wf d (m.filter f) := SMap.okFrom_filter d f h

theorem SMap.wf_nil {α : Type} [DecidableEq α] (d : α) : SMap.wf d ([] : SMap α) := rfl

/-- The map through a function is canonical whatever it was before. -/
theorem SMap.wf_mapAll {α : Type} [DecidableEq α] (d : α) (f : Nat → α → α) (m : SMap α) :
    SMap.wf d (SMap.mapAll d f m) := by
  unfold SMap.mapAll
  have : ∀ (l : List (Nat × α)) (acc : SMap α), SMap.wf d acc → SMap.wf d (l.foldl (fun acc kv => SMap.set d acc kv.1 (f kv.1 kv.2)) acc) := by
    intro l
    induction l with
    | nil => intro acc h; exact h
    | cons e l ih => intro acc h; exact ih _ (SMap.wf_set d _ _ h)
  exact this m [] rfl

end Sys2Proof.Machine
end

