-- ==== Sys2Proof/Laws/State.lean ====
section
/-! SUPPORT. What the updates of the state leave in each field: one lemma a field for the update of a core, a queue, a
register, a die, a tenancy and memory, and what the accessors read after each. -/

namespace Sys2Proof.Machine

@[simp] theorem State.setCoreAt_c (s : State) (n : Nat) (k : Core) : (s.setCoreAt n k).c = s.c := rfl
@[simp] theorem State.setCoreAt_x (s : State) (n : Nat) (k : Core) : (s.setCoreAt n k).x = s.x := rfl
@[simp] theorem State.setCoreAt_slot (s : State) (n : Nat) (k : Core) : (s.setCoreAt n k).slot = s.slot := rfl
@[simp] theorem State.setCoreAt_now (s : State) (n : Nat) (k : Core) : (s.setCoreAt n k).now = s.now := rfl
@[simp] theorem State.setCoreAt_frame (s : State) (n : Nat) (k : Core) : (s.setCoreAt n k).frame = s.frame := rfl
@[simp] theorem State.setCoreAt_agenda (s : State) (n : Nat) (k : Core) : (s.setCoreAt n k).agenda = s.agenda := rfl
@[simp] theorem State.setCoreAt_fresh (s : State) (n : Nat) (k : Core) : (s.setCoreAt n k).fresh = s.fresh := rfl
@[simp] theorem State.setCoreAt_later (s : State) (n : Nat) (k : Core) : (s.setCoreAt n k).later = s.later := rfl
@[simp] theorem State.setCoreAt_queues (s : State) (n : Nat) (k : Core) : (s.setCoreAt n k).queues = s.queues := rfl
@[simp] theorem State.setCoreAt_quadBars (s : State) (n : Nat) (k : Core) : (s.setCoreAt n k).quadBars = s.quadBars := rfl
@[simp] theorem State.setCoreAt_dieBars (s : State) (n : Nat) (k : Core) : (s.setCoreAt n k).dieBars = s.dieBars := rfl
@[simp] theorem State.setCoreAt_dies (s : State) (n : Nat) (k : Core) : (s.setCoreAt n k).dies = s.dies := rfl
@[simp] theorem State.setCoreAt_evicted (s : State) (n : Nat) (k : Core) : (s.setCoreAt n k).evicted = s.evicted := rfl
@[simp] theorem State.setCoreAt_mem (s : State) (n : Nat) (k : Core) : (s.setCoreAt n k).mem = s.mem := rfl
@[simp] theorem State.setCoreAt_tags (s : State) (n : Nat) (k : Core) : (s.setCoreAt n k).tags = s.tags := rfl
@[simp] theorem State.setCoreAt_poisoned (s : State) (n : Nat) (k : Core) : (s.setCoreAt n k).poisoned = s.poisoned := rfl
@[simp] theorem State.setCoreAt_regs (s : State) (n : Nat) (k : Core) : (s.setCoreAt n k).regs = s.regs := rfl
@[simp] theorem State.setCoreAt_tenancy (s : State) (n : Nat) (k : Core) : (s.setCoreAt n k).tenancy = s.tenancy := rfl
@[simp] theorem State.setCoreAt_sweeper (s : State) (n : Nat) (k : Core) : (s.setCoreAt n k).sweeper = s.sweeper := rfl
@[simp] theorem State.setCoreAt_packets (s : State) (n : Nat) (k : Core) : (s.setCoreAt n k).packets = s.packets := rfl
@[simp] theorem State.setCoreAt_launches (s : State) (n : Nat) (k : Core) : (s.setCoreAt n k).launches = s.launches := rfl
@[simp] theorem State.setCoreAt_nextLaunch (s : State) (n : Nat) (k : Core) : (s.setCoreAt n k).nextLaunch = s.nextLaunch := rfl
@[simp] theorem State.setCoreAt_msix (s : State) (n : Nat) (k : Core) : (s.setCoreAt n k).msix = s.msix := rfl
@[simp] theorem State.setCoreAt_msixClear (s : State) (n : Nat) (k : Core) : (s.setCoreAt n k).msixClear = s.msixClear := rfl
@[simp] theorem State.setCoreAt_undo (s : State) (n : Nat) (k : Core) : (s.setCoreAt n k).undo = s.undo := rfl
@[simp] theorem State.setCoreAt_held (s : State) (n : Nat) (k : Core) : (s.setCoreAt n k).held = s.held := rfl
@[simp] theorem State.setCoreAt_slices (s : State) (n : Nat) (k : Core) : (s.setCoreAt n k).slices = s.slices := rfl
@[simp] theorem State.setCoreAt_lastTurn (s : State) (n : Nat) (k : Core) : (s.setCoreAt n k).lastTurn = s.lastTurn := rfl
@[simp] theorem State.setCoreAt_heldQuads (s : State) (n : Nat) (k : Core) : (s.setCoreAt n k).heldQuads = s.heldQuads := rfl
@[simp] theorem State.setCoreAt_saved (s : State) (n : Nat) (k : Core) : (s.setCoreAt n k).saved = s.saved := rfl
@[simp] theorem State.setCoreAt_sharedBy (s : State) (n : Nat) (k : Core) : (s.setCoreAt n k).sharedBy = s.sharedBy := rfl
@[simp] theorem State.setCoreAt_policy (s : State) (n : Nat) (k : Core) : (s.setCoreAt n k).policy = s.policy := rfl
@[simp] theorem State.setCoreAt_served (s : State) (n : Nat) (k : Core) : (s.setCoreAt n k).served = s.served := rfl
@[simp] theorem State.setCoreAt_rally (s : State) (n : Nat) (k : Core) : (s.setCoreAt n k).rally = s.rally := rfl
@[simp] theorem State.setCoreAt_gse (s : State) (n : Nat) (k : Core) : (s.setCoreAt n k).gse = s.gse := rfl
@[simp] theorem State.setCoreAt_ports (s : State) (n : Nat) (k : Core) : (s.setCoreAt n k).ports = s.ports := rfl
@[simp] theorem State.setCoreAt_arrived (s : State) (n : Nat) (k : Core) : (s.setCoreAt n k).arrived = s.arrived := rfl
@[simp] theorem State.setCoreAt_announces (s : State) (n : Nat) (k : Core) : (s.setCoreAt n k).announces = s.announces := rfl
@[simp] theorem State.setCoreAt_pseqOut (s : State) (n : Nat) (k : Core) : (s.setCoreAt n k).pseqOut = s.pseqOut := rfl
@[simp] theorem State.setCoreAt_pseqIn (s : State) (n : Nat) (k : Core) : (s.setCoreAt n k).pseqIn = s.pseqIn := rfl
@[simp] theorem State.setCoreAt_remotes (s : State) (n : Nat) (k : Core) : (s.setCoreAt n k).remotes = s.remotes := rfl
@[simp] theorem State.setCoreAt_nextRtag (s : State) (n : Nat) (k : Core) : (s.setCoreAt n k).nextRtag = s.nextRtag := rfl
@[simp] theorem State.setCoreAt_shoots (s : State) (n : Nat) (k : Core) : (s.setCoreAt n k).shoots = s.shoots := rfl
@[simp] theorem State.setCoreAt_moving (s : State) (n : Nat) (k : Core) : (s.setCoreAt n k).moving = s.moving := rfl
@[simp] theorem State.setCoreAt_corrections (s : State) (n : Nat) (k : Core) : (s.setCoreAt n k).corrections = s.corrections := rfl
@[simp] theorem State.setCoreAt_armed (s : State) (n : Nat) (k : Core) : (s.setCoreAt n k).armed = s.armed := rfl
@[simp] theorem State.setCoreAt_recent (s : State) (n : Nat) (k : Core) : (s.setCoreAt n k).recent = s.recent := rfl
@[simp] theorem State.setCoreAt_ckptNext (s : State) (n : Nat) (k : Core) : (s.setCoreAt n k).ckptNext = s.ckptNext := rfl
@[simp] theorem State.setCoreAt_tickAt (s : State) (n : Nat) (k : Core) : (s.setCoreAt n k).tickAt = s.tickAt := rfl
@[simp] theorem State.setCoreAt_resetAt (s : State) (n : Nat) (k : Core) : (s.setCoreAt n k).resetAt = s.resetAt := rfl
@[simp] theorem State.setCoreAt_time (s : State) (n : Nat) (k : Core) : (s.setCoreAt n k).time = s.time := rfl
@[simp] theorem State.setCoreAt_frac (s : State) (n : Nat) (k : Core) : (s.setCoreAt n k).frac = s.frac := rfl
@[simp] theorem State.setCoreAt_front (s : State) (n : Nat) (k : Core) : (s.setCoreAt n k).front = s.front := rfl

@[simp] theorem State.setQueue_c (s : State) (q n : Nat) (x : Queue) : (s.setQueue q n x).c = s.c := rfl
@[simp] theorem State.setQueue_x (s : State) (q n : Nat) (x : Queue) : (s.setQueue q n x).x = s.x := rfl
@[simp] theorem State.setQueue_slot (s : State) (q n : Nat) (x : Queue) : (s.setQueue q n x).slot = s.slot := rfl
@[simp] theorem State.setQueue_now (s : State) (q n : Nat) (x : Queue) : (s.setQueue q n x).now = s.now := rfl
@[simp] theorem State.setQueue_frame (s : State) (q n : Nat) (x : Queue) : (s.setQueue q n x).frame = s.frame := rfl
@[simp] theorem State.setQueue_agenda (s : State) (q n : Nat) (x : Queue) : (s.setQueue q n x).agenda = s.agenda := rfl
@[simp] theorem State.setQueue_fresh (s : State) (q n : Nat) (x : Queue) : (s.setQueue q n x).fresh = s.fresh := rfl
@[simp] theorem State.setQueue_later (s : State) (q n : Nat) (x : Queue) : (s.setQueue q n x).later = s.later := rfl
@[simp] theorem State.setQueue_cores (s : State) (q n : Nat) (x : Queue) : (s.setQueue q n x).cores = s.cores := rfl
@[simp] theorem State.setQueue_quadBars (s : State) (q n : Nat) (x : Queue) : (s.setQueue q n x).quadBars = s.quadBars := rfl
@[simp] theorem State.setQueue_dieBars (s : State) (q n : Nat) (x : Queue) : (s.setQueue q n x).dieBars = s.dieBars := rfl
@[simp] theorem State.setQueue_dies (s : State) (q n : Nat) (x : Queue) : (s.setQueue q n x).dies = s.dies := rfl
@[simp] theorem State.setQueue_evicted (s : State) (q n : Nat) (x : Queue) : (s.setQueue q n x).evicted = s.evicted := rfl
@[simp] theorem State.setQueue_mem (s : State) (q n : Nat) (x : Queue) : (s.setQueue q n x).mem = s.mem := rfl
@[simp] theorem State.setQueue_tags (s : State) (q n : Nat) (x : Queue) : (s.setQueue q n x).tags = s.tags := rfl
@[simp] theorem State.setQueue_poisoned (s : State) (q n : Nat) (x : Queue) : (s.setQueue q n x).poisoned = s.poisoned := rfl
@[simp] theorem State.setQueue_regs (s : State) (q n : Nat) (x : Queue) : (s.setQueue q n x).regs = s.regs := rfl
@[simp] theorem State.setQueue_tenancy (s : State) (q n : Nat) (x : Queue) : (s.setQueue q n x).tenancy = s.tenancy := rfl
@[simp] theorem State.setQueue_sweeper (s : State) (q n : Nat) (x : Queue) : (s.setQueue q n x).sweeper = s.sweeper := rfl
@[simp] theorem State.setQueue_packets (s : State) (q n : Nat) (x : Queue) : (s.setQueue q n x).packets = s.packets := rfl
@[simp] theorem State.setQueue_launches (s : State) (q n : Nat) (x : Queue) : (s.setQueue q n x).launches = s.launches := rfl
@[simp] theorem State.setQueue_nextLaunch (s : State) (q n : Nat) (x : Queue) : (s.setQueue q n x).nextLaunch = s.nextLaunch := rfl
@[simp] theorem State.setQueue_msix (s : State) (q n : Nat) (x : Queue) : (s.setQueue q n x).msix = s.msix := rfl
@[simp] theorem State.setQueue_msixClear (s : State) (q n : Nat) (x : Queue) : (s.setQueue q n x).msixClear = s.msixClear := rfl
@[simp] theorem State.setQueue_undo (s : State) (q n : Nat) (x : Queue) : (s.setQueue q n x).undo = s.undo := rfl
@[simp] theorem State.setQueue_held (s : State) (q n : Nat) (x : Queue) : (s.setQueue q n x).held = s.held := rfl
@[simp] theorem State.setQueue_slices (s : State) (q n : Nat) (x : Queue) : (s.setQueue q n x).slices = s.slices := rfl
@[simp] theorem State.setQueue_lastTurn (s : State) (q n : Nat) (x : Queue) : (s.setQueue q n x).lastTurn = s.lastTurn := rfl
@[simp] theorem State.setQueue_heldQuads (s : State) (q n : Nat) (x : Queue) : (s.setQueue q n x).heldQuads = s.heldQuads := rfl
@[simp] theorem State.setQueue_saved (s : State) (q n : Nat) (x : Queue) : (s.setQueue q n x).saved = s.saved := rfl
@[simp] theorem State.setQueue_sharedBy (s : State) (q n : Nat) (x : Queue) : (s.setQueue q n x).sharedBy = s.sharedBy := rfl
@[simp] theorem State.setQueue_policy (s : State) (q n : Nat) (x : Queue) : (s.setQueue q n x).policy = s.policy := rfl
@[simp] theorem State.setQueue_served (s : State) (q n : Nat) (x : Queue) : (s.setQueue q n x).served = s.served := rfl
@[simp] theorem State.setQueue_rally (s : State) (q n : Nat) (x : Queue) : (s.setQueue q n x).rally = s.rally := rfl
@[simp] theorem State.setQueue_gse (s : State) (q n : Nat) (x : Queue) : (s.setQueue q n x).gse = s.gse := rfl
@[simp] theorem State.setQueue_ports (s : State) (q n : Nat) (x : Queue) : (s.setQueue q n x).ports = s.ports := rfl
@[simp] theorem State.setQueue_arrived (s : State) (q n : Nat) (x : Queue) : (s.setQueue q n x).arrived = s.arrived := rfl
@[simp] theorem State.setQueue_announces (s : State) (q n : Nat) (x : Queue) : (s.setQueue q n x).announces = s.announces := rfl
@[simp] theorem State.setQueue_pseqOut (s : State) (q n : Nat) (x : Queue) : (s.setQueue q n x).pseqOut = s.pseqOut := rfl
@[simp] theorem State.setQueue_pseqIn (s : State) (q n : Nat) (x : Queue) : (s.setQueue q n x).pseqIn = s.pseqIn := rfl
@[simp] theorem State.setQueue_remotes (s : State) (q n : Nat) (x : Queue) : (s.setQueue q n x).remotes = s.remotes := rfl
@[simp] theorem State.setQueue_nextRtag (s : State) (q n : Nat) (x : Queue) : (s.setQueue q n x).nextRtag = s.nextRtag := rfl
@[simp] theorem State.setQueue_shoots (s : State) (q n : Nat) (x : Queue) : (s.setQueue q n x).shoots = s.shoots := rfl
@[simp] theorem State.setQueue_moving (s : State) (q n : Nat) (x : Queue) : (s.setQueue q n x).moving = s.moving := rfl
@[simp] theorem State.setQueue_corrections (s : State) (q n : Nat) (x : Queue) : (s.setQueue q n x).corrections = s.corrections := rfl
@[simp] theorem State.setQueue_armed (s : State) (q n : Nat) (x : Queue) : (s.setQueue q n x).armed = s.armed := rfl
@[simp] theorem State.setQueue_recent (s : State) (q n : Nat) (x : Queue) : (s.setQueue q n x).recent = s.recent := rfl
@[simp] theorem State.setQueue_ckptNext (s : State) (q n : Nat) (x : Queue) : (s.setQueue q n x).ckptNext = s.ckptNext := rfl
@[simp] theorem State.setQueue_tickAt (s : State) (q n : Nat) (x : Queue) : (s.setQueue q n x).tickAt = s.tickAt := rfl
@[simp] theorem State.setQueue_resetAt (s : State) (q n : Nat) (x : Queue) : (s.setQueue q n x).resetAt = s.resetAt := rfl
@[simp] theorem State.setQueue_time (s : State) (q n : Nat) (x : Queue) : (s.setQueue q n x).time = s.time := rfl
@[simp] theorem State.setQueue_frac (s : State) (q n : Nat) (x : Queue) : (s.setQueue q n x).frac = s.frac := rfl
@[simp] theorem State.setQueue_front (s : State) (q n : Nat) (x : Queue) : (s.setQueue q n x).front = s.front := rfl

@[simp] theorem State.setReg_c (s : State) (off : Nat) (v : Word) : (s.setReg off v).c = s.c := rfl
@[simp] theorem State.setReg_x (s : State) (off : Nat) (v : Word) : (s.setReg off v).x = s.x := rfl
@[simp] theorem State.setReg_slot (s : State) (off : Nat) (v : Word) : (s.setReg off v).slot = s.slot := rfl
@[simp] theorem State.setReg_now (s : State) (off : Nat) (v : Word) : (s.setReg off v).now = s.now := rfl
@[simp] theorem State.setReg_frame (s : State) (off : Nat) (v : Word) : (s.setReg off v).frame = s.frame := rfl
@[simp] theorem State.setReg_agenda (s : State) (off : Nat) (v : Word) : (s.setReg off v).agenda = s.agenda := rfl
@[simp] theorem State.setReg_fresh (s : State) (off : Nat) (v : Word) : (s.setReg off v).fresh = s.fresh := rfl
@[simp] theorem State.setReg_later (s : State) (off : Nat) (v : Word) : (s.setReg off v).later = s.later := rfl
@[simp] theorem State.setReg_cores (s : State) (off : Nat) (v : Word) : (s.setReg off v).cores = s.cores := rfl
@[simp] theorem State.setReg_queues (s : State) (off : Nat) (v : Word) : (s.setReg off v).queues = s.queues := rfl
@[simp] theorem State.setReg_quadBars (s : State) (off : Nat) (v : Word) : (s.setReg off v).quadBars = s.quadBars := rfl
@[simp] theorem State.setReg_dieBars (s : State) (off : Nat) (v : Word) : (s.setReg off v).dieBars = s.dieBars := rfl
@[simp] theorem State.setReg_dies (s : State) (off : Nat) (v : Word) : (s.setReg off v).dies = s.dies := rfl
@[simp] theorem State.setReg_evicted (s : State) (off : Nat) (v : Word) : (s.setReg off v).evicted = s.evicted := rfl
@[simp] theorem State.setReg_mem (s : State) (off : Nat) (v : Word) : (s.setReg off v).mem = s.mem := rfl
@[simp] theorem State.setReg_tags (s : State) (off : Nat) (v : Word) : (s.setReg off v).tags = s.tags := rfl
@[simp] theorem State.setReg_poisoned (s : State) (off : Nat) (v : Word) : (s.setReg off v).poisoned = s.poisoned := rfl
@[simp] theorem State.setReg_tenancy (s : State) (off : Nat) (v : Word) : (s.setReg off v).tenancy = s.tenancy := rfl
@[simp] theorem State.setReg_sweeper (s : State) (off : Nat) (v : Word) : (s.setReg off v).sweeper = s.sweeper := rfl
@[simp] theorem State.setReg_packets (s : State) (off : Nat) (v : Word) : (s.setReg off v).packets = s.packets := rfl
@[simp] theorem State.setReg_launches (s : State) (off : Nat) (v : Word) : (s.setReg off v).launches = s.launches := rfl
@[simp] theorem State.setReg_nextLaunch (s : State) (off : Nat) (v : Word) : (s.setReg off v).nextLaunch = s.nextLaunch := rfl
@[simp] theorem State.setReg_msix (s : State) (off : Nat) (v : Word) : (s.setReg off v).msix = s.msix := rfl
@[simp] theorem State.setReg_msixClear (s : State) (off : Nat) (v : Word) : (s.setReg off v).msixClear = s.msixClear := rfl
@[simp] theorem State.setReg_undo (s : State) (off : Nat) (v : Word) : (s.setReg off v).undo = s.undo := rfl
@[simp] theorem State.setReg_held (s : State) (off : Nat) (v : Word) : (s.setReg off v).held = s.held := rfl
@[simp] theorem State.setReg_slices (s : State) (off : Nat) (v : Word) : (s.setReg off v).slices = s.slices := rfl
@[simp] theorem State.setReg_lastTurn (s : State) (off : Nat) (v : Word) : (s.setReg off v).lastTurn = s.lastTurn := rfl
@[simp] theorem State.setReg_heldQuads (s : State) (off : Nat) (v : Word) : (s.setReg off v).heldQuads = s.heldQuads := rfl
@[simp] theorem State.setReg_saved (s : State) (off : Nat) (v : Word) : (s.setReg off v).saved = s.saved := rfl
@[simp] theorem State.setReg_sharedBy (s : State) (off : Nat) (v : Word) : (s.setReg off v).sharedBy = s.sharedBy := rfl
@[simp] theorem State.setReg_policy (s : State) (off : Nat) (v : Word) : (s.setReg off v).policy = s.policy := rfl
@[simp] theorem State.setReg_served (s : State) (off : Nat) (v : Word) : (s.setReg off v).served = s.served := rfl
@[simp] theorem State.setReg_rally (s : State) (off : Nat) (v : Word) : (s.setReg off v).rally = s.rally := rfl
@[simp] theorem State.setReg_gse (s : State) (off : Nat) (v : Word) : (s.setReg off v).gse = s.gse := rfl
@[simp] theorem State.setReg_ports (s : State) (off : Nat) (v : Word) : (s.setReg off v).ports = s.ports := rfl
@[simp] theorem State.setReg_arrived (s : State) (off : Nat) (v : Word) : (s.setReg off v).arrived = s.arrived := rfl
@[simp] theorem State.setReg_announces (s : State) (off : Nat) (v : Word) : (s.setReg off v).announces = s.announces := rfl
@[simp] theorem State.setReg_pseqOut (s : State) (off : Nat) (v : Word) : (s.setReg off v).pseqOut = s.pseqOut := rfl
@[simp] theorem State.setReg_pseqIn (s : State) (off : Nat) (v : Word) : (s.setReg off v).pseqIn = s.pseqIn := rfl
@[simp] theorem State.setReg_remotes (s : State) (off : Nat) (v : Word) : (s.setReg off v).remotes = s.remotes := rfl
@[simp] theorem State.setReg_nextRtag (s : State) (off : Nat) (v : Word) : (s.setReg off v).nextRtag = s.nextRtag := rfl
@[simp] theorem State.setReg_shoots (s : State) (off : Nat) (v : Word) : (s.setReg off v).shoots = s.shoots := rfl
@[simp] theorem State.setReg_moving (s : State) (off : Nat) (v : Word) : (s.setReg off v).moving = s.moving := rfl
@[simp] theorem State.setReg_corrections (s : State) (off : Nat) (v : Word) : (s.setReg off v).corrections = s.corrections := rfl
@[simp] theorem State.setReg_armed (s : State) (off : Nat) (v : Word) : (s.setReg off v).armed = s.armed := rfl
@[simp] theorem State.setReg_recent (s : State) (off : Nat) (v : Word) : (s.setReg off v).recent = s.recent := rfl
@[simp] theorem State.setReg_ckptNext (s : State) (off : Nat) (v : Word) : (s.setReg off v).ckptNext = s.ckptNext := rfl
@[simp] theorem State.setReg_tickAt (s : State) (off : Nat) (v : Word) : (s.setReg off v).tickAt = s.tickAt := rfl
@[simp] theorem State.setReg_resetAt (s : State) (off : Nat) (v : Word) : (s.setReg off v).resetAt = s.resetAt := rfl
@[simp] theorem State.setReg_time (s : State) (off : Nat) (v : Word) : (s.setReg off v).time = s.time := rfl
@[simp] theorem State.setReg_frac (s : State) (off : Nat) (v : Word) : (s.setReg off v).frac = s.frac := rfl
@[simp] theorem State.setReg_front (s : State) (off : Nat) (v : Word) : (s.setReg off v).front = s.front := rfl

@[simp] theorem State.setDie_c (s : State) (d : Nat) (x : Die) : (s.setDie d x).c = s.c := rfl
@[simp] theorem State.setDie_x (s : State) (d : Nat) (x : Die) : (s.setDie d x).x = s.x := rfl
@[simp] theorem State.setDie_slot (s : State) (d : Nat) (x : Die) : (s.setDie d x).slot = s.slot := rfl
@[simp] theorem State.setDie_now (s : State) (d : Nat) (x : Die) : (s.setDie d x).now = s.now := rfl
@[simp] theorem State.setDie_frame (s : State) (d : Nat) (x : Die) : (s.setDie d x).frame = s.frame := rfl
@[simp] theorem State.setDie_agenda (s : State) (d : Nat) (x : Die) : (s.setDie d x).agenda = s.agenda := rfl
@[simp] theorem State.setDie_fresh (s : State) (d : Nat) (x : Die) : (s.setDie d x).fresh = s.fresh := rfl
@[simp] theorem State.setDie_later (s : State) (d : Nat) (x : Die) : (s.setDie d x).later = s.later := rfl
@[simp] theorem State.setDie_cores (s : State) (d : Nat) (x : Die) : (s.setDie d x).cores = s.cores := rfl
@[simp] theorem State.setDie_queues (s : State) (d : Nat) (x : Die) : (s.setDie d x).queues = s.queues := rfl
@[simp] theorem State.setDie_quadBars (s : State) (d : Nat) (x : Die) : (s.setDie d x).quadBars = s.quadBars := rfl
@[simp] theorem State.setDie_dieBars (s : State) (d : Nat) (x : Die) : (s.setDie d x).dieBars = s.dieBars := rfl
@[simp] theorem State.setDie_evicted (s : State) (d : Nat) (x : Die) : (s.setDie d x).evicted = s.evicted := rfl
@[simp] theorem State.setDie_mem (s : State) (d : Nat) (x : Die) : (s.setDie d x).mem = s.mem := rfl
@[simp] theorem State.setDie_tags (s : State) (d : Nat) (x : Die) : (s.setDie d x).tags = s.tags := rfl
@[simp] theorem State.setDie_poisoned (s : State) (d : Nat) (x : Die) : (s.setDie d x).poisoned = s.poisoned := rfl
@[simp] theorem State.setDie_regs (s : State) (d : Nat) (x : Die) : (s.setDie d x).regs = s.regs := rfl
@[simp] theorem State.setDie_tenancy (s : State) (d : Nat) (x : Die) : (s.setDie d x).tenancy = s.tenancy := rfl
@[simp] theorem State.setDie_sweeper (s : State) (d : Nat) (x : Die) : (s.setDie d x).sweeper = s.sweeper := rfl
@[simp] theorem State.setDie_packets (s : State) (d : Nat) (x : Die) : (s.setDie d x).packets = s.packets := rfl
@[simp] theorem State.setDie_launches (s : State) (d : Nat) (x : Die) : (s.setDie d x).launches = s.launches := rfl
@[simp] theorem State.setDie_nextLaunch (s : State) (d : Nat) (x : Die) : (s.setDie d x).nextLaunch = s.nextLaunch := rfl
@[simp] theorem State.setDie_msix (s : State) (d : Nat) (x : Die) : (s.setDie d x).msix = s.msix := rfl
@[simp] theorem State.setDie_msixClear (s : State) (d : Nat) (x : Die) : (s.setDie d x).msixClear = s.msixClear := rfl
@[simp] theorem State.setDie_undo (s : State) (d : Nat) (x : Die) : (s.setDie d x).undo = s.undo := rfl
@[simp] theorem State.setDie_held (s : State) (d : Nat) (x : Die) : (s.setDie d x).held = s.held := rfl
@[simp] theorem State.setDie_slices (s : State) (d : Nat) (x : Die) : (s.setDie d x).slices = s.slices := rfl
@[simp] theorem State.setDie_lastTurn (s : State) (d : Nat) (x : Die) : (s.setDie d x).lastTurn = s.lastTurn := rfl
@[simp] theorem State.setDie_heldQuads (s : State) (d : Nat) (x : Die) : (s.setDie d x).heldQuads = s.heldQuads := rfl
@[simp] theorem State.setDie_saved (s : State) (d : Nat) (x : Die) : (s.setDie d x).saved = s.saved := rfl
@[simp] theorem State.setDie_sharedBy (s : State) (d : Nat) (x : Die) : (s.setDie d x).sharedBy = s.sharedBy := rfl
@[simp] theorem State.setDie_policy (s : State) (d : Nat) (x : Die) : (s.setDie d x).policy = s.policy := rfl
@[simp] theorem State.setDie_served (s : State) (d : Nat) (x : Die) : (s.setDie d x).served = s.served := rfl
@[simp] theorem State.setDie_rally (s : State) (d : Nat) (x : Die) : (s.setDie d x).rally = s.rally := rfl
@[simp] theorem State.setDie_gse (s : State) (d : Nat) (x : Die) : (s.setDie d x).gse = s.gse := rfl
@[simp] theorem State.setDie_ports (s : State) (d : Nat) (x : Die) : (s.setDie d x).ports = s.ports := rfl
@[simp] theorem State.setDie_arrived (s : State) (d : Nat) (x : Die) : (s.setDie d x).arrived = s.arrived := rfl
@[simp] theorem State.setDie_announces (s : State) (d : Nat) (x : Die) : (s.setDie d x).announces = s.announces := rfl
@[simp] theorem State.setDie_pseqOut (s : State) (d : Nat) (x : Die) : (s.setDie d x).pseqOut = s.pseqOut := rfl
@[simp] theorem State.setDie_pseqIn (s : State) (d : Nat) (x : Die) : (s.setDie d x).pseqIn = s.pseqIn := rfl
@[simp] theorem State.setDie_remotes (s : State) (d : Nat) (x : Die) : (s.setDie d x).remotes = s.remotes := rfl
@[simp] theorem State.setDie_nextRtag (s : State) (d : Nat) (x : Die) : (s.setDie d x).nextRtag = s.nextRtag := rfl
@[simp] theorem State.setDie_shoots (s : State) (d : Nat) (x : Die) : (s.setDie d x).shoots = s.shoots := rfl
@[simp] theorem State.setDie_moving (s : State) (d : Nat) (x : Die) : (s.setDie d x).moving = s.moving := rfl
@[simp] theorem State.setDie_corrections (s : State) (d : Nat) (x : Die) : (s.setDie d x).corrections = s.corrections := rfl
@[simp] theorem State.setDie_armed (s : State) (d : Nat) (x : Die) : (s.setDie d x).armed = s.armed := rfl
@[simp] theorem State.setDie_recent (s : State) (d : Nat) (x : Die) : (s.setDie d x).recent = s.recent := rfl
@[simp] theorem State.setDie_ckptNext (s : State) (d : Nat) (x : Die) : (s.setDie d x).ckptNext = s.ckptNext := rfl
@[simp] theorem State.setDie_tickAt (s : State) (d : Nat) (x : Die) : (s.setDie d x).tickAt = s.tickAt := rfl
@[simp] theorem State.setDie_resetAt (s : State) (d : Nat) (x : Die) : (s.setDie d x).resetAt = s.resetAt := rfl
@[simp] theorem State.setDie_time (s : State) (d : Nat) (x : Die) : (s.setDie d x).time = s.time := rfl
@[simp] theorem State.setDie_frac (s : State) (d : Nat) (x : Die) : (s.setDie d x).frac = s.frac := rfl
@[simp] theorem State.setDie_front (s : State) (d : Nat) (x : Die) : (s.setDie d x).front = s.front := rfl

@[simp] theorem State.setTen_c (s : State) (p : Nat) (x : Tenancy) : (s.setTen p x).c = s.c := rfl
@[simp] theorem State.setTen_x (s : State) (p : Nat) (x : Tenancy) : (s.setTen p x).x = s.x := rfl
@[simp] theorem State.setTen_slot (s : State) (p : Nat) (x : Tenancy) : (s.setTen p x).slot = s.slot := rfl
@[simp] theorem State.setTen_now (s : State) (p : Nat) (x : Tenancy) : (s.setTen p x).now = s.now := rfl
@[simp] theorem State.setTen_frame (s : State) (p : Nat) (x : Tenancy) : (s.setTen p x).frame = s.frame := rfl
@[simp] theorem State.setTen_agenda (s : State) (p : Nat) (x : Tenancy) : (s.setTen p x).agenda = s.agenda := rfl
@[simp] theorem State.setTen_fresh (s : State) (p : Nat) (x : Tenancy) : (s.setTen p x).fresh = s.fresh := rfl
@[simp] theorem State.setTen_later (s : State) (p : Nat) (x : Tenancy) : (s.setTen p x).later = s.later := rfl
@[simp] theorem State.setTen_cores (s : State) (p : Nat) (x : Tenancy) : (s.setTen p x).cores = s.cores := rfl
@[simp] theorem State.setTen_queues (s : State) (p : Nat) (x : Tenancy) : (s.setTen p x).queues = s.queues := rfl
@[simp] theorem State.setTen_quadBars (s : State) (p : Nat) (x : Tenancy) : (s.setTen p x).quadBars = s.quadBars := rfl
@[simp] theorem State.setTen_dieBars (s : State) (p : Nat) (x : Tenancy) : (s.setTen p x).dieBars = s.dieBars := rfl
@[simp] theorem State.setTen_dies (s : State) (p : Nat) (x : Tenancy) : (s.setTen p x).dies = s.dies := rfl
@[simp] theorem State.setTen_evicted (s : State) (p : Nat) (x : Tenancy) : (s.setTen p x).evicted = s.evicted := rfl
@[simp] theorem State.setTen_mem (s : State) (p : Nat) (x : Tenancy) : (s.setTen p x).mem = s.mem := rfl
@[simp] theorem State.setTen_tags (s : State) (p : Nat) (x : Tenancy) : (s.setTen p x).tags = s.tags := rfl
@[simp] theorem State.setTen_poisoned (s : State) (p : Nat) (x : Tenancy) : (s.setTen p x).poisoned = s.poisoned := rfl
@[simp] theorem State.setTen_regs (s : State) (p : Nat) (x : Tenancy) : (s.setTen p x).regs = s.regs := rfl
@[simp] theorem State.setTen_sweeper (s : State) (p : Nat) (x : Tenancy) : (s.setTen p x).sweeper = s.sweeper := rfl
@[simp] theorem State.setTen_packets (s : State) (p : Nat) (x : Tenancy) : (s.setTen p x).packets = s.packets := rfl
@[simp] theorem State.setTen_launches (s : State) (p : Nat) (x : Tenancy) : (s.setTen p x).launches = s.launches := rfl
@[simp] theorem State.setTen_nextLaunch (s : State) (p : Nat) (x : Tenancy) : (s.setTen p x).nextLaunch = s.nextLaunch := rfl
@[simp] theorem State.setTen_msix (s : State) (p : Nat) (x : Tenancy) : (s.setTen p x).msix = s.msix := rfl
@[simp] theorem State.setTen_msixClear (s : State) (p : Nat) (x : Tenancy) : (s.setTen p x).msixClear = s.msixClear := rfl
@[simp] theorem State.setTen_undo (s : State) (p : Nat) (x : Tenancy) : (s.setTen p x).undo = s.undo := rfl
@[simp] theorem State.setTen_held (s : State) (p : Nat) (x : Tenancy) : (s.setTen p x).held = s.held := rfl
@[simp] theorem State.setTen_slices (s : State) (p : Nat) (x : Tenancy) : (s.setTen p x).slices = s.slices := rfl
@[simp] theorem State.setTen_lastTurn (s : State) (p : Nat) (x : Tenancy) : (s.setTen p x).lastTurn = s.lastTurn := rfl
@[simp] theorem State.setTen_heldQuads (s : State) (p : Nat) (x : Tenancy) : (s.setTen p x).heldQuads = s.heldQuads := rfl
@[simp] theorem State.setTen_saved (s : State) (p : Nat) (x : Tenancy) : (s.setTen p x).saved = s.saved := rfl
@[simp] theorem State.setTen_sharedBy (s : State) (p : Nat) (x : Tenancy) : (s.setTen p x).sharedBy = s.sharedBy := rfl
@[simp] theorem State.setTen_policy (s : State) (p : Nat) (x : Tenancy) : (s.setTen p x).policy = s.policy := rfl
@[simp] theorem State.setTen_served (s : State) (p : Nat) (x : Tenancy) : (s.setTen p x).served = s.served := rfl
@[simp] theorem State.setTen_rally (s : State) (p : Nat) (x : Tenancy) : (s.setTen p x).rally = s.rally := rfl
@[simp] theorem State.setTen_gse (s : State) (p : Nat) (x : Tenancy) : (s.setTen p x).gse = s.gse := rfl
@[simp] theorem State.setTen_ports (s : State) (p : Nat) (x : Tenancy) : (s.setTen p x).ports = s.ports := rfl
@[simp] theorem State.setTen_arrived (s : State) (p : Nat) (x : Tenancy) : (s.setTen p x).arrived = s.arrived := rfl
@[simp] theorem State.setTen_announces (s : State) (p : Nat) (x : Tenancy) : (s.setTen p x).announces = s.announces := rfl
@[simp] theorem State.setTen_pseqOut (s : State) (p : Nat) (x : Tenancy) : (s.setTen p x).pseqOut = s.pseqOut := rfl
@[simp] theorem State.setTen_pseqIn (s : State) (p : Nat) (x : Tenancy) : (s.setTen p x).pseqIn = s.pseqIn := rfl
@[simp] theorem State.setTen_remotes (s : State) (p : Nat) (x : Tenancy) : (s.setTen p x).remotes = s.remotes := rfl
@[simp] theorem State.setTen_nextRtag (s : State) (p : Nat) (x : Tenancy) : (s.setTen p x).nextRtag = s.nextRtag := rfl
@[simp] theorem State.setTen_shoots (s : State) (p : Nat) (x : Tenancy) : (s.setTen p x).shoots = s.shoots := rfl
@[simp] theorem State.setTen_moving (s : State) (p : Nat) (x : Tenancy) : (s.setTen p x).moving = s.moving := rfl
@[simp] theorem State.setTen_corrections (s : State) (p : Nat) (x : Tenancy) : (s.setTen p x).corrections = s.corrections := rfl
@[simp] theorem State.setTen_armed (s : State) (p : Nat) (x : Tenancy) : (s.setTen p x).armed = s.armed := rfl
@[simp] theorem State.setTen_recent (s : State) (p : Nat) (x : Tenancy) : (s.setTen p x).recent = s.recent := rfl
@[simp] theorem State.setTen_ckptNext (s : State) (p : Nat) (x : Tenancy) : (s.setTen p x).ckptNext = s.ckptNext := rfl
@[simp] theorem State.setTen_tickAt (s : State) (p : Nat) (x : Tenancy) : (s.setTen p x).tickAt = s.tickAt := rfl
@[simp] theorem State.setTen_resetAt (s : State) (p : Nat) (x : Tenancy) : (s.setTen p x).resetAt = s.resetAt := rfl
@[simp] theorem State.setTen_time (s : State) (p : Nat) (x : Tenancy) : (s.setTen p x).time = s.time := rfl
@[simp] theorem State.setTen_frac (s : State) (p : Nat) (x : Tenancy) : (s.setTen p x).frac = s.frac := rfl
@[simp] theorem State.setTen_front (s : State) (p : Nat) (x : Tenancy) : (s.setTen p x).front = s.front := rfl

@[simp] theorem State.setRaw_c (s : State) (a : Nat) (bs : List Byte) : (s.setRaw a bs).c = s.c := rfl
@[simp] theorem State.setRaw_x (s : State) (a : Nat) (bs : List Byte) : (s.setRaw a bs).x = s.x := rfl
@[simp] theorem State.setRaw_slot (s : State) (a : Nat) (bs : List Byte) : (s.setRaw a bs).slot = s.slot := rfl
@[simp] theorem State.setRaw_now (s : State) (a : Nat) (bs : List Byte) : (s.setRaw a bs).now = s.now := rfl
@[simp] theorem State.setRaw_frame (s : State) (a : Nat) (bs : List Byte) : (s.setRaw a bs).frame = s.frame := rfl
@[simp] theorem State.setRaw_agenda (s : State) (a : Nat) (bs : List Byte) : (s.setRaw a bs).agenda = s.agenda := rfl
@[simp] theorem State.setRaw_fresh (s : State) (a : Nat) (bs : List Byte) : (s.setRaw a bs).fresh = s.fresh := rfl
@[simp] theorem State.setRaw_later (s : State) (a : Nat) (bs : List Byte) : (s.setRaw a bs).later = s.later := rfl
@[simp] theorem State.setRaw_cores (s : State) (a : Nat) (bs : List Byte) : (s.setRaw a bs).cores = s.cores := rfl
@[simp] theorem State.setRaw_queues (s : State) (a : Nat) (bs : List Byte) : (s.setRaw a bs).queues = s.queues := rfl
@[simp] theorem State.setRaw_quadBars (s : State) (a : Nat) (bs : List Byte) : (s.setRaw a bs).quadBars = s.quadBars := rfl
@[simp] theorem State.setRaw_dieBars (s : State) (a : Nat) (bs : List Byte) : (s.setRaw a bs).dieBars = s.dieBars := rfl
@[simp] theorem State.setRaw_dies (s : State) (a : Nat) (bs : List Byte) : (s.setRaw a bs).dies = s.dies := rfl
@[simp] theorem State.setRaw_evicted (s : State) (a : Nat) (bs : List Byte) : (s.setRaw a bs).evicted = s.evicted := rfl
@[simp] theorem State.setRaw_tags (s : State) (a : Nat) (bs : List Byte) : (s.setRaw a bs).tags = s.tags := rfl
@[simp] theorem State.setRaw_poisoned (s : State) (a : Nat) (bs : List Byte) : (s.setRaw a bs).poisoned = s.poisoned := rfl
@[simp] theorem State.setRaw_regs (s : State) (a : Nat) (bs : List Byte) : (s.setRaw a bs).regs = s.regs := rfl
@[simp] theorem State.setRaw_tenancy (s : State) (a : Nat) (bs : List Byte) : (s.setRaw a bs).tenancy = s.tenancy := rfl
@[simp] theorem State.setRaw_sweeper (s : State) (a : Nat) (bs : List Byte) : (s.setRaw a bs).sweeper = s.sweeper := rfl
@[simp] theorem State.setRaw_packets (s : State) (a : Nat) (bs : List Byte) : (s.setRaw a bs).packets = s.packets := rfl
@[simp] theorem State.setRaw_launches (s : State) (a : Nat) (bs : List Byte) : (s.setRaw a bs).launches = s.launches := rfl
@[simp] theorem State.setRaw_nextLaunch (s : State) (a : Nat) (bs : List Byte) : (s.setRaw a bs).nextLaunch = s.nextLaunch := rfl
@[simp] theorem State.setRaw_msix (s : State) (a : Nat) (bs : List Byte) : (s.setRaw a bs).msix = s.msix := rfl
@[simp] theorem State.setRaw_msixClear (s : State) (a : Nat) (bs : List Byte) : (s.setRaw a bs).msixClear = s.msixClear := rfl
@[simp] theorem State.setRaw_undo (s : State) (a : Nat) (bs : List Byte) : (s.setRaw a bs).undo = s.undo := rfl
@[simp] theorem State.setRaw_held (s : State) (a : Nat) (bs : List Byte) : (s.setRaw a bs).held = s.held := rfl
@[simp] theorem State.setRaw_slices (s : State) (a : Nat) (bs : List Byte) : (s.setRaw a bs).slices = s.slices := rfl
@[simp] theorem State.setRaw_lastTurn (s : State) (a : Nat) (bs : List Byte) : (s.setRaw a bs).lastTurn = s.lastTurn := rfl
@[simp] theorem State.setRaw_heldQuads (s : State) (a : Nat) (bs : List Byte) : (s.setRaw a bs).heldQuads = s.heldQuads := rfl
@[simp] theorem State.setRaw_saved (s : State) (a : Nat) (bs : List Byte) : (s.setRaw a bs).saved = s.saved := rfl
@[simp] theorem State.setRaw_sharedBy (s : State) (a : Nat) (bs : List Byte) : (s.setRaw a bs).sharedBy = s.sharedBy := rfl
@[simp] theorem State.setRaw_policy (s : State) (a : Nat) (bs : List Byte) : (s.setRaw a bs).policy = s.policy := rfl
@[simp] theorem State.setRaw_served (s : State) (a : Nat) (bs : List Byte) : (s.setRaw a bs).served = s.served := rfl
@[simp] theorem State.setRaw_rally (s : State) (a : Nat) (bs : List Byte) : (s.setRaw a bs).rally = s.rally := rfl
@[simp] theorem State.setRaw_gse (s : State) (a : Nat) (bs : List Byte) : (s.setRaw a bs).gse = s.gse := rfl
@[simp] theorem State.setRaw_ports (s : State) (a : Nat) (bs : List Byte) : (s.setRaw a bs).ports = s.ports := rfl
@[simp] theorem State.setRaw_arrived (s : State) (a : Nat) (bs : List Byte) : (s.setRaw a bs).arrived = s.arrived := rfl
@[simp] theorem State.setRaw_announces (s : State) (a : Nat) (bs : List Byte) : (s.setRaw a bs).announces = s.announces := rfl
@[simp] theorem State.setRaw_pseqOut (s : State) (a : Nat) (bs : List Byte) : (s.setRaw a bs).pseqOut = s.pseqOut := rfl
@[simp] theorem State.setRaw_pseqIn (s : State) (a : Nat) (bs : List Byte) : (s.setRaw a bs).pseqIn = s.pseqIn := rfl
@[simp] theorem State.setRaw_remotes (s : State) (a : Nat) (bs : List Byte) : (s.setRaw a bs).remotes = s.remotes := rfl
@[simp] theorem State.setRaw_nextRtag (s : State) (a : Nat) (bs : List Byte) : (s.setRaw a bs).nextRtag = s.nextRtag := rfl
@[simp] theorem State.setRaw_shoots (s : State) (a : Nat) (bs : List Byte) : (s.setRaw a bs).shoots = s.shoots := rfl
@[simp] theorem State.setRaw_moving (s : State) (a : Nat) (bs : List Byte) : (s.setRaw a bs).moving = s.moving := rfl
@[simp] theorem State.setRaw_corrections (s : State) (a : Nat) (bs : List Byte) : (s.setRaw a bs).corrections = s.corrections := rfl
@[simp] theorem State.setRaw_armed (s : State) (a : Nat) (bs : List Byte) : (s.setRaw a bs).armed = s.armed := rfl
@[simp] theorem State.setRaw_recent (s : State) (a : Nat) (bs : List Byte) : (s.setRaw a bs).recent = s.recent := rfl
@[simp] theorem State.setRaw_ckptNext (s : State) (a : Nat) (bs : List Byte) : (s.setRaw a bs).ckptNext = s.ckptNext := rfl
@[simp] theorem State.setRaw_tickAt (s : State) (a : Nat) (bs : List Byte) : (s.setRaw a bs).tickAt = s.tickAt := rfl
@[simp] theorem State.setRaw_resetAt (s : State) (a : Nat) (bs : List Byte) : (s.setRaw a bs).resetAt = s.resetAt := rfl
@[simp] theorem State.setRaw_time (s : State) (a : Nat) (bs : List Byte) : (s.setRaw a bs).time = s.time := rfl
@[simp] theorem State.setRaw_frac (s : State) (a : Nat) (bs : List Byte) : (s.setRaw a bs).frac = s.frac := rfl
@[simp] theorem State.setRaw_front (s : State) (a : Nat) (bs : List Byte) : (s.setRaw a bs).front = s.front := rfl

@[simp] theorem Task.setScalar_st (t : Task) (r : SReg) (v : Word) : (t.setScalar r v).st = t.st := by
  unfold Task.setScalar; split <;> (try split) <;> rfl
@[simp] theorem Task.setScalar_pc (t : Task) (r : SReg) (v : Word) : (t.setScalar r v).pc = t.pc := by
  unfold Task.setScalar; split <;> (try split) <;> rfl
@[simp] theorem Task.setScalar_link (t : Task) (r : SReg) (v : Word) : (t.setScalar r v).link = t.link := by
  unfold Task.setScalar; split <;> (try split) <;> rfl
@[simp] theorem Task.setScalar_p (t : Task) (r : SReg) (v : Word) : (t.setScalar r v).p = t.p := by
  unfold Task.setScalar; split <;> (try split) <;> rfl
@[simp] theorem Task.setScalar_results (t : Task) (r : SReg) (v : Word) : (t.setScalar r v).results = t.results := by
  unfold Task.setScalar; split <;> (try split) <;> rfl
@[simp] theorem Task.setScalar_loops (t : Task) (r : SReg) (v : Word) : (t.setScalar r v).loops = t.loops := by
  unfold Task.setScalar; split <;> (try split) <;> rfl
@[simp] theorem Task.setScalar_delta (t : Task) (r : SReg) (v : Word) : (t.setScalar r v).delta = t.delta := by
  unfold Task.setScalar; split <;> (try split) <;> rfl
@[simp] theorem Task.setScalar_tag (t : Task) (r : SReg) (v : Word) : (t.setScalar r v).tag = t.tag := by
  unfold Task.setScalar; split <;> (try split) <;> rfl
@[simp] theorem Task.setScalar_prio (t : Task) (r : SReg) (v : Word) : (t.setScalar r v).prio = t.prio := by
  unfold Task.setScalar; split <;> (try split) <;> rfl
@[simp] theorem Task.setScalar_eff (t : Task) (r : SReg) (v : Word) : (t.setScalar r v).eff = t.eff := by
  unfold Task.setScalar; split <;> (try split) <;> rfl
@[simp] theorem Task.setScalar_passed (t : Task) (r : SReg) (v : Word) : (t.setScalar r v).passed = t.passed := by
  unfold Task.setScalar; split <;> (try split) <;> rfl
@[simp] theorem Task.setScalar_privileged (t : Task) (r : SReg) (v : Word) : (t.setScalar r v).privileged = t.privileged := by
  unfold Task.setScalar; split <;> (try split) <;> rfl
@[simp] theorem Task.setScalar_coreId (t : Task) (r : SReg) (v : Word) : (t.setScalar r v).coreId = t.coreId := by
  unfold Task.setScalar; split <;> (try split) <;> rfl
@[simp] theorem Task.setScalar_cycle (t : Task) (r : SReg) (v : Word) : (t.setScalar r v).cycle = t.cycle := by
  unfold Task.setScalar; split <;> (try split) <;> rfl
@[simp] theorem Task.setScalar_parkThresh (t : Task) (r : SReg) (v : Word) : (t.setScalar r v).parkThresh = t.parkThresh := by
  unfold Task.setScalar; split <;> (try split) <;> rfl
@[simp] theorem Task.setScalar_volleyFault (t : Task) (r : SReg) (v : Word) : (t.setScalar r v).volleyFault = t.volleyFault := by
  unfold Task.setScalar; split <;> (try split) <;> rfl
@[simp] theorem Task.setScalar_trap (t : Task) (r : SReg) (v : Word) : (t.setScalar r v).trap = t.trap := by
  unfold Task.setScalar; split <;> (try split) <;> rfl
@[simp] theorem Task.setScalar_vec (t : Task) (r : SReg) (v : Word) : (t.setScalar r v).vec = t.vec := by
  unfold Task.setScalar; split <;> (try split) <;> rfl
@[simp] theorem Task.setScalar_handling (t : Task) (r : SReg) (v : Word) : (t.setScalar r v).handling = t.handling := by
  unfold Task.setScalar; split <;> (try split) <;> rfl
@[simp] theorem Task.setScalar_barPhase (t : Task) (r : SReg) (v : Word) : (t.setScalar r v).barPhase = t.barPhase := by
  unfold Task.setScalar; split <;> (try split) <;> rfl
@[simp] theorem Task.setScalar_barSeen (t : Task) (r : SReg) (v : Word) : (t.setScalar r v).barSeen = t.barSeen := by
  unfold Task.setScalar; split <;> (try split) <;> rfl
@[simp] theorem Task.setScalar_vsendLast (t : Task) (r : SReg) (v : Word) : (t.setScalar r v).vsendLast = t.vsendLast := by
  unfold Task.setScalar; split <;> (try split) <;> rfl
@[simp] theorem Task.setScalar_vlatchLast (t : Task) (r : SReg) (v : Word) : (t.setScalar r v).vlatchLast = t.vlatchLast := by
  unfold Task.setScalar; split <;> (try split) <;> rfl
@[simp] theorem Task.setScalar_rstpFail (t : Task) (r : SReg) (v : Word) : (t.setScalar r v).rstpFail = t.rstpFail := by
  unfold Task.setScalar; split <;> (try split) <;> rfl
@[simp] theorem Task.setScalar_rstpOut (t : Task) (r : SReg) (v : Word) : (t.setScalar r v).rstpOut = t.rstpOut := by
  unfold Task.setScalar; split <;> (try split) <;> rfl
@[simp] theorem Task.setScalar_returns (t : Task) (r : SReg) (v : Word) : (t.setScalar r v).returns = t.returns := by
  unfold Task.setScalar; split <;> (try split) <;> rfl
@[simp] theorem Task.setScalar_launch (t : Task) (r : SReg) (v : Word) : (t.setScalar r v).launch = t.launch := by
  unfold Task.setScalar; split <;> (try split) <;> rfl
@[simp] theorem Task.setScalar_rally (t : Task) (r : SReg) (v : Word) : (t.setScalar r v).rally = t.rally := by
  unfold Task.setScalar; split <;> (try split) <;> rfl
@[simp] theorem Task.setScalar_stall (t : Task) (r : SReg) (v : Word) : (t.setScalar r v).stall = t.stall := by
  unfold Task.setScalar; split <;> (try split) <;> rfl
@[simp] theorem Task.setScalar_stallOn (t : Task) (r : SReg) (v : Word) : (t.setScalar r v).stallOn = t.stallOn := by
  unfold Task.setScalar; split <;> (try split) <;> rfl
@[simp] theorem Task.setScalar_wakeAt (t : Task) (r : SReg) (v : Word) : (t.setScalar r v).wakeAt = t.wakeAt := by
  unfold Task.setScalar; split <;> (try split) <;> rfl
@[simp] theorem Task.setScalar_deferred (t : Task) (r : SReg) (v : Word) : (t.setScalar r v).deferred = t.deferred := by
  unfold Task.setScalar; split <;> (try split) <;> rfl
@[simp] theorem Task.setScalar_andThen (t : Task) (r : SReg) (v : Word) : (t.setScalar r v).andThen = t.andThen := by
  unfold Task.setScalar; split <;> (try split) <;> rfl
@[simp] theorem Task.setScalar_stopped (t : Task) (r : SReg) (v : Word) : (t.setScalar r v).stopped = t.stopped := by
  unfold Task.setScalar; split <;> (try split) <;> rfl
@[simp] theorem Task.setScalar_overran (t : Task) (r : SReg) (v : Word) : (t.setScalar r v).overran = t.overran := by
  unfold Task.setScalar; split <;> (try split) <;> rfl
@[simp] theorem Task.setScalar_liveBad (t : Task) (r : SReg) (v : Word) : (t.setScalar r v).liveBad = t.liveBad := by
  unfold Task.setScalar; split <;> (try split) <;> rfl

@[simp] theorem Task.setPred_st (t : Task) (n : BitVec 4) (v : Lanes) : (t.setPred n v).st = t.st := by unfold Task.setPred; split <;> rfl
@[simp] theorem Task.setPred_pc (t : Task) (n : BitVec 4) (v : Lanes) : (t.setPred n v).pc = t.pc := by unfold Task.setPred; split <;> rfl
@[simp] theorem Task.setPred_link (t : Task) (n : BitVec 4) (v : Lanes) : (t.setPred n v).link = t.link := by unfold Task.setPred; split <;> rfl
@[simp] theorem Task.setPred_s (t : Task) (n : BitVec 4) (v : Lanes) : (t.setPred n v).s = t.s := by unfold Task.setPred; split <;> rfl
@[simp] theorem Task.setPred_a (t : Task) (n : BitVec 4) (v : Lanes) : (t.setPred n v).a = t.a := by unfold Task.setPred; split <;> rfl
@[simp] theorem Task.setPred_results (t : Task) (n : BitVec 4) (v : Lanes) : (t.setPred n v).results = t.results := by unfold Task.setPred; split <;> rfl
@[simp] theorem Task.setPred_loops (t : Task) (n : BitVec 4) (v : Lanes) : (t.setPred n v).loops = t.loops := by unfold Task.setPred; split <;> rfl
@[simp] theorem Task.setPred_delta (t : Task) (n : BitVec 4) (v : Lanes) : (t.setPred n v).delta = t.delta := by unfold Task.setPred; split <;> rfl
@[simp] theorem Task.setPred_tag (t : Task) (n : BitVec 4) (v : Lanes) : (t.setPred n v).tag = t.tag := by unfold Task.setPred; split <;> rfl
@[simp] theorem Task.setPred_prio (t : Task) (n : BitVec 4) (v : Lanes) : (t.setPred n v).prio = t.prio := by unfold Task.setPred; split <;> rfl
@[simp] theorem Task.setPred_eff (t : Task) (n : BitVec 4) (v : Lanes) : (t.setPred n v).eff = t.eff := by unfold Task.setPred; split <;> rfl
@[simp] theorem Task.setPred_passed (t : Task) (n : BitVec 4) (v : Lanes) : (t.setPred n v).passed = t.passed := by unfold Task.setPred; split <;> rfl
@[simp] theorem Task.setPred_privileged (t : Task) (n : BitVec 4) (v : Lanes) : (t.setPred n v).privileged = t.privileged := by unfold Task.setPred; split <;> rfl
@[simp] theorem Task.setPred_coreId (t : Task) (n : BitVec 4) (v : Lanes) : (t.setPred n v).coreId = t.coreId := by unfold Task.setPred; split <;> rfl
@[simp] theorem Task.setPred_cycle (t : Task) (n : BitVec 4) (v : Lanes) : (t.setPred n v).cycle = t.cycle := by unfold Task.setPred; split <;> rfl
@[simp] theorem Task.setPred_parkThresh (t : Task) (n : BitVec 4) (v : Lanes) : (t.setPred n v).parkThresh = t.parkThresh := by unfold Task.setPred; split <;> rfl
@[simp] theorem Task.setPred_volleyFault (t : Task) (n : BitVec 4) (v : Lanes) : (t.setPred n v).volleyFault = t.volleyFault := by unfold Task.setPred; split <;> rfl
@[simp] theorem Task.setPred_trap (t : Task) (n : BitVec 4) (v : Lanes) : (t.setPred n v).trap = t.trap := by unfold Task.setPred; split <;> rfl
@[simp] theorem Task.setPred_vec (t : Task) (n : BitVec 4) (v : Lanes) : (t.setPred n v).vec = t.vec := by unfold Task.setPred; split <;> rfl
@[simp] theorem Task.setPred_handling (t : Task) (n : BitVec 4) (v : Lanes) : (t.setPred n v).handling = t.handling := by unfold Task.setPred; split <;> rfl
@[simp] theorem Task.setPred_barPhase (t : Task) (n : BitVec 4) (v : Lanes) : (t.setPred n v).barPhase = t.barPhase := by unfold Task.setPred; split <;> rfl
@[simp] theorem Task.setPred_barSeen (t : Task) (n : BitVec 4) (v : Lanes) : (t.setPred n v).barSeen = t.barSeen := by unfold Task.setPred; split <;> rfl
@[simp] theorem Task.setPred_vsendLast (t : Task) (n : BitVec 4) (v : Lanes) : (t.setPred n v).vsendLast = t.vsendLast := by unfold Task.setPred; split <;> rfl
@[simp] theorem Task.setPred_vlatchLast (t : Task) (n : BitVec 4) (v : Lanes) : (t.setPred n v).vlatchLast = t.vlatchLast := by unfold Task.setPred; split <;> rfl
@[simp] theorem Task.setPred_rstpFail (t : Task) (n : BitVec 4) (v : Lanes) : (t.setPred n v).rstpFail = t.rstpFail := by unfold Task.setPred; split <;> rfl
@[simp] theorem Task.setPred_rstpOut (t : Task) (n : BitVec 4) (v : Lanes) : (t.setPred n v).rstpOut = t.rstpOut := by unfold Task.setPred; split <;> rfl
@[simp] theorem Task.setPred_returns (t : Task) (n : BitVec 4) (v : Lanes) : (t.setPred n v).returns = t.returns := by unfold Task.setPred; split <;> rfl
@[simp] theorem Task.setPred_launch (t : Task) (n : BitVec 4) (v : Lanes) : (t.setPred n v).launch = t.launch := by unfold Task.setPred; split <;> rfl
@[simp] theorem Task.setPred_rally (t : Task) (n : BitVec 4) (v : Lanes) : (t.setPred n v).rally = t.rally := by unfold Task.setPred; split <;> rfl
@[simp] theorem Task.setPred_stall (t : Task) (n : BitVec 4) (v : Lanes) : (t.setPred n v).stall = t.stall := by unfold Task.setPred; split <;> rfl
@[simp] theorem Task.setPred_stallOn (t : Task) (n : BitVec 4) (v : Lanes) : (t.setPred n v).stallOn = t.stallOn := by unfold Task.setPred; split <;> rfl
@[simp] theorem Task.setPred_wakeAt (t : Task) (n : BitVec 4) (v : Lanes) : (t.setPred n v).wakeAt = t.wakeAt := by unfold Task.setPred; split <;> rfl
@[simp] theorem Task.setPred_deferred (t : Task) (n : BitVec 4) (v : Lanes) : (t.setPred n v).deferred = t.deferred := by unfold Task.setPred; split <;> rfl
@[simp] theorem Task.setPred_andThen (t : Task) (n : BitVec 4) (v : Lanes) : (t.setPred n v).andThen = t.andThen := by unfold Task.setPred; split <;> rfl
@[simp] theorem Task.setPred_stopped (t : Task) (n : BitVec 4) (v : Lanes) : (t.setPred n v).stopped = t.stopped := by unfold Task.setPred; split <;> rfl
@[simp] theorem Task.setPred_overran (t : Task) (n : BitVec 4) (v : Lanes) : (t.setPred n v).overran = t.overran := by unfold Task.setPred; split <;> rfl
@[simp] theorem Task.setPred_liveBad (t : Task) (n : BitVec 4) (v : Lanes) : (t.setPred n v).liveBad = t.liveBad := by unfold Task.setPred; split <;> rfl

@[simp] theorem Core.setTask_v (k : Core) (n : Nat) (t : Task) : (k.setTask n t).v = k.v := rfl
@[simp] theorem Core.setTask_x (k : Core) (n : Nat) (t : Task) : (k.setTask n t).x = k.x := rfl
@[simp] theorem Core.setTask_acc (k : Core) (n : Nat) (t : Task) : (k.setTask n t).acc = k.acc := rfl
@[simp] theorem Core.setTask_planes (k : Core) (n : Nat) (t : Task) : (k.setTask n t).planes = k.planes := rfl
@[simp] theorem Core.setTask_fore (k : Core) (n : Nat) (t : Task) : (k.setTask n t).fore = k.fore := rfl
@[simp] theorem Core.setTask_latch (k : Core) (n : Nat) (t : Task) : (k.setTask n t).latch = k.latch := rfl
@[simp] theorem Core.setTask_pend (k : Core) (n : Nat) (t : Task) : (k.setTask n t).pend = k.pend := rfl
@[simp] theorem Core.setTask_snapshot (k : Core) (n : Nat) (t : Task) : (k.setTask n t).snapshot = k.snapshot := rfl
@[simp] theorem Core.setTask_scr (k : Core) (n : Nat) (t : Task) : (k.setTask n t).scr = k.scr := rfl
@[simp] theorem Core.setTask_splitEnd (k : Core) (n : Nat) (t : Task) : (k.setTask n t).splitEnd = k.splitEnd := rfl
@[simp] theorem Core.setTask_splitBusy (k : Core) (n : Nat) (t : Task) : (k.setTask n t).splitBusy = k.splitBusy := rfl
@[simp] theorem Core.setTask_stash (k : Core) (n : Nat) (t : Task) : (k.setTask n t).stash = k.stash := rfl
@[simp] theorem Core.setTask_pumps (k : Core) (n : Nat) (t : Task) : (k.setTask n t).pumps = k.pumps := rfl
@[simp] theorem Core.setTask_tiles (k : Core) (n : Nat) (t : Task) : (k.setTask n t).tiles = k.tiles := rfl
@[simp] theorem Core.setTask_sends (k : Core) (n : Nat) (t : Task) : (k.setTask n t).sends = k.sends := rfl
@[simp] theorem Core.setTask_latches (k : Core) (n : Nat) (t : Task) : (k.setTask n t).latches = k.latches := rfl
@[simp] theorem Core.setTask_jobs (k : Core) (n : Nat) (t : Task) : (k.setTask n t).jobs = k.jobs := rfl
@[simp] theorem Core.setTask_loads (k : Core) (n : Nat) (t : Task) : (k.setTask n t).loads = k.loads := rfl
@[simp] theorem Core.setTask_issue (k : Core) (n : Nat) (t : Task) : (k.setTask n t).issue = k.issue := rfl
@[simp] theorem Core.setTask_issuing (k : Core) (n : Nat) (t : Task) : (k.setTask n t).issuing = k.issuing := rfl
@[simp] theorem Core.setTask_turnStart (k : Core) (n : Nat) (t : Task) : (k.setTask n t).turnStart = k.turnStart := rfl
@[simp] theorem Core.setTask_lastWin (k : Core) (n : Nat) (t : Task) : (k.setTask n t).lastWin = k.lastWin := rfl
@[simp] theorem Core.setTask_switch (k : Core) (n : Nat) (t : Task) : (k.setTask n t).switch = k.switch := rfl
@[simp] theorem Core.setTask_tlb (k : Core) (n : Nat) (t : Task) : (k.setTask n t).tlb = k.tlb := rfl
@[simp] theorem Core.setTask_walk (k : Core) (n : Nat) (t : Task) : (k.setTask n t).walk = k.walk := rfl
@[simp] theorem Core.setTask_bad (k : Core) (n : Nat) (t : Task) : (k.setTask n t).bad = k.bad := rfl
@[simp] theorem Core.setTask_clock (k : Core) (n : Nat) (t : Task) : (k.setTask n t).clock = k.clock := rfl
@[simp] theorem Core.setTask_replay (k : Core) (n : Nat) (t : Task) : (k.setTask n t).replay = k.replay := rfl
@[simp] theorem Core.setTask_leaving (k : Core) (n : Nat) (t : Task) : (k.setTask n t).leaving = k.leaving := rfl
@[simp] theorem Core.setTask_issuedJobs (k : Core) (n : Nat) (t : Task) : (k.setTask n t).issuedJobs = k.issuedJobs := rfl
@[simp] theorem Core.setTask_cachePart (k : Core) (n : Nat) (t : Task) : (k.setTask n t).cachePart = k.cachePart := rfl
@[simp] theorem Core.setTask_inFlight (k : Core) (n : Nat) (t : Task) : (k.setTask n t).inFlight = k.inFlight := rfl
@[simp] theorem Core.setTask_banks (k : Core) (n : Nat) (t : Task) : (k.setTask n t).banks = k.banks := rfl
@[simp] theorem Core.setTask_cuts (k : Core) (n : Nat) (t : Task) : (k.setTask n t).cuts = k.cuts := rfl

/-- Core m after core n takes k. -/
theorem State.coreAt_setCoreAt (s : State) (n m : Nat) (k : Core) :
    (s.setCoreAt n k).coreAt m = if m = n then k else s.coreAt m := by
  simp [State.coreAt, State.setCoreAt, SMap.get_set]

@[simp] theorem State.coreAt_setCoreAt_same (s : State) (n : Nat) (k : Core) : (s.setCoreAt n k).coreAt n = k := by
  simp [State.coreAt_setCoreAt]

/-- Context y after context x takes t. -/
theorem Core.task_setTask (k : Core) (x y : Nat) (t : Task) : (k.setTask x t).task y = if y = x then t else k.task y := by
  simp [Core.task, Core.setTask, SMap.get_set]

@[simp] theorem Core.task_setTask_same (k : Core) (x : Nat) (t : Task) : (k.setTask x t).task x = t := by
  simp [Core.task_setTask]

@[simp] theorem State.core_setCore (s : State) (k : Core) : (s.setCore k).core = k := by
  simp [State.core, State.setCore]

@[simp] theorem State.task_setTask (s : State) (t : Task) : (s.setTask t).task = t := by
  simp [State.task, State.setTask, State.core, State.setCore]

@[simp] theorem State.setTask_c (s : State) (t : Task) : (s.setTask t).c = s.c := rfl
@[simp] theorem State.setTask_x (s : State) (t : Task) : (s.setTask t).x = s.x := rfl
@[simp] theorem State.setCore_c (s : State) (k : Core) : (s.setCore k).c = s.c := rfl
@[simp] theorem State.setCore_x (s : State) (k : Core) : (s.setCore k).x = s.x := rfl

/-- Queue (q, n) after queue (p, m) takes x. -/
theorem State.queue_setQueue_same (s : State) (q n : Nat) (x : Queue) : (s.setQueue q n x).queue q n = x := by
  simp [State.queue, State.setQueue]

/-- A register after a write of another, and of its own. -/
theorem State.reg_setReg (s : State) (a b : Nat) (v : Word) : (s.setReg a v).reg b = if b = a then v else s.reg b := by
  by_cases h : b = a
  · subst h; simp [State.reg, State.setReg, BitVec.xor_assoc]
  · simp [State.reg, State.setReg, SMap.get_set, h]

@[simp] theorem State.reg_setReg_same (s : State) (a : Nat) (v : Word) : (s.setReg a v).reg a = v := by
  simp [State.reg_setReg]

theorem State.die_setDie (s : State) (d e : Nat) (x : Die) : (s.setDie d x).die e = if e = d then x else s.die e := by
  simp [State.die, State.setDie, SMap.get_set]

@[simp] theorem State.die_setDie_same (s : State) (d : Nat) (x : Die) : (s.setDie d x).die d = x := by
  simp [State.die_setDie]

theorem State.ten_setTen (s : State) (p q : Nat) (x : Tenancy) : (s.setTen p x).ten q = if q = p then x else s.ten q := by
  simp [State.ten, State.setTen, SMap.get_set]

@[simp] theorem State.ten_setTen_same (s : State) (p : Nat) (x : Tenancy) : (s.setTen p x).ten p = x := by
  simp [State.ten_setTen]

/-- A scalar register after a write (R41, R43): s0 and the index registers take nothing. -/
theorem Task.scalar_setScalar (t : Task) (r q : SReg) (v : Word) :
    (t.setScalar r v).scalar q = if q = r then (match r with
      | .s n => if n = 0 then 0 else v
      | .a _ => v
      | .i n => t.scalar (.i n)) else t.scalar q := by
  cases r with
  | s n =>
    by_cases hn : n = 0
    · subst hn; simp [Task.setScalar]; rintro rfl; simp [Task.scalar]
    · replace hn : ¬ n = 0#6 := hn
      cases q with
      | s m =>
        by_cases hm : m = n
        · subst hm; simp [Task.setScalar, Task.scalar, hn]
        · have : ¬ m.toNat = n.toNat := fun h => hm (BitVec.eq_of_toNat_eq h)
          simp [Task.setScalar, Task.scalar, hn, hm, SMap.get_set, this]
      | a m => simp [Task.setScalar, Task.scalar, hn]
      | i m => simp [Task.setScalar, Task.scalar, hn, Task.index]
  | a n =>
    cases q with
    | s m => simp [Task.setScalar, Task.scalar]
    | a m =>
      by_cases hm : m = n
      · subst hm; simp [Task.setScalar, Task.scalar]
      · have : ¬ m.toNat = n.toNat := fun h => hm (BitVec.eq_of_toNat_eq h)
        simp [Task.setScalar, Task.scalar, hm, SMap.get_set, this]
    | i m => simp [Task.setScalar, Task.scalar, Task.index]
  | i n => simp [Task.setScalar]; rintro rfl; rfl

/-- A predicate register after a write (R41): p0 takes nothing. -/
theorem Task.pred_setPred (t : Task) (n m : BitVec 4) (v : Lanes) :
    (t.setPred n v).pred m = if m = n then (if n = 0 then BitVec.allOnes 256 else v) else t.pred m := by
  by_cases hn : n = 0
  · subst hn; simp [Task.setPred]; rintro rfl; simp [Task.pred]
  · replace hn : ¬ n = 0#4 := hn
    by_cases hm : m = n
    · subst hm; simp [Task.setPred, Task.pred, hn]
    · have : ¬ m.toNat = n.toNat := fun h => hm (BitVec.eq_of_toNat_eq h)
      simp [Task.setPred, Task.pred, hn, hm, SMap.get_set, this]

theorem Task.setScalar_eq (t : Task) (r : SReg) (v : Word) :
    t.setScalar r v = { t with s := (t.setScalar r v).s, a := (t.setScalar r v).a } := by
  unfold Task.setScalar; split <;> (try split) <;> rfl

theorem Task.setPred_eq (t : Task) (n : BitVec 4) (v : Lanes) : t.setPred n v = { t with p := (t.setPred n v).p } := by
  unfold Task.setPred; split <;> rfl

end Sys2Proof.Machine
end

