-- ==== Sys2Proof/Laws/Memory.lean ====
section
/-! SUPPORT. Memory: a byte after a store, and the canonical form that every operation on memory keeps. -/

namespace Sys2Proof.Machine

theorem get_setRawBytes (m : SMap Byte) (a : Nat) (bs : List Byte) (b : Nat) :
    SMap.get blankByte (setRawBytes m a bs) b =
      if a ≤ b ∧ b < a + bs.length then bs.getD (b - a) 0 else SMap.get blankByte m b := by
  induction bs generalizing m a with
  | nil =>
    have : ¬ (a ≤ b ∧ b < a) := by omega
    simp [setRawBytes, this]
  | cons x bs ih =>
    rw [setRawBytes, ih, SMap.get_set]
    by_cases hb : b = a
    · subst hb
      have h1 : ¬ (b + 1 ≤ b ∧ b < b + 1 + bs.length) := by omega
      have h2 : b ≤ b ∧ b < b + (x :: bs).length := by simp
      rw [if_neg h1, if_pos h2, if_pos rfl]
      simp
    · by_cases h : a + 1 ≤ b ∧ b < a + 1 + bs.length
      · have h1 : a ≤ b ∧ b < a + (x :: bs).length := by simp; omega
        have h2 : b - a = b - (a + 1) + 1 := by omega
        rw [if_pos h, if_pos h1, h2]
        simp
      · have h1 : ¬ (a ≤ b ∧ b < a + (x :: bs).length) := by simp; omega
        rw [if_neg h, if_neg h1, if_neg hb]

/-- A byte after a store below the caches: the stored one inside the range, the old one outside. -/
theorem State.rawByte_setRaw (s : State) (a : Nat) (bs : List Byte) (b : Nat) :
    (s.setRaw a bs).rawByte b = if a ≤ b ∧ b < a + bs.length then bs.getD (b - a) 0 else s.rawByte b :=
  get_setRawBytes s.mem a bs b

theorem Memory.wf_setRawBytes {m : SMap Byte} (a : Nat) (bs : List Byte) (h : Memory.wf m) :
    Memory.wf (setRawBytes m a bs) := by
  induction bs generalizing m a with
  | nil => exact h
  | cons b bs ih => exact ih (a + 1) (SMap.wf_set blankByte a b h)

/-- A store below the caches keeps the canonical form. -/
theorem Memory.wf_setRaw {s : State} (a : Nat) (bs : List Byte) (h : Memory.wf s.mem) : Memory.wf (s.setRaw a bs).mem :=
  Memory.wf_setRawBytes a bs h

theorem State.setRawLine_mem (s : State) (a : Nat) (x : Line) :
    (s.setRawLine a x).mem = setRawBytes s.mem (lineOf a) (lineToBytes x.data) := by
  simp only [State.setRawLine, State.setRaw]

/-- So does the store of a line. -/
theorem Memory.wf_setRawLine {s : State} (a : Nat) (x : Line) (h : Memory.wf s.mem) :
    Memory.wf (s.setRawLine a x).mem := by
  rw [State.setRawLine_mem]
  exact Memory.wf_setRawBytes _ _ h

theorem State.dropLine_mem (s : State) (d key : Nat) : (s.dropLine d key).mem = s.mem := rfl

/-- And a line written beside the caches. -/
theorem Memory.wf_putLine {s : State} (pa : Nat) (bs : List Byte) (tag : Tag) (h : Memory.wf s.mem) :
    Memory.wf (s.putLine pa bs tag).mem := Memory.wf_setRawLine _ _ h

theorem State.setField_mem (s : State) (off hi lo v : Nat) : (s.setField off hi lo v).mem = s.mem := rfl

theorem State.count_mem (s : State) (off hi lo n : Nat) : (s.count off hi lo n).mem = s.mem := rfl

/-- And a store to a local line. -/
theorem Memory.wf_localPut {s : State} (tag : Tag) (n off : Nat) (bs : List Byte) (h : Memory.wf s.mem) :
    Memory.wf (s.localPut tag n off bs).mem := by
  unfold State.localPut
  split
  · exact h
  · refine Memory.wf_setRawBytes _ _ ?_
    split
    · exact h
    · exact Memory.wf_setRaw _ _ h

/-- And a store to a local range. -/
theorem Memory.wf_localPutSpan {s : State} (tag : Tag) (n off : Nat) (bs : List Byte) (fuel : Nat) (h : Memory.wf s.mem) :
    Memory.wf (s.localPutSpan tag n off bs fuel).mem := by
  induction fuel generalizing s off bs with
  | zero => exact h
  | succ k ih =>
    unfold State.localPutSpan
    split
    · exact h
    · exact ih _ _ (Memory.wf_localPut _ _ _ _ h)

/-- What a reset leaves of memory is canonical. -/
theorem Memory.wf_cleared {s : State} (last : Nat) (h : Memory.wf s.mem) : Memory.wf (s.cleared last).mem :=
  SMap.wf_filter blankByte _ h

/-- Memory of the module after reset. -/
theorem Memory.wf_reset : Memory.wf State.reset.mem := rfl

end Sys2Proof.Machine
end

