-- ==== Sys2Proof/Laws/MemoryOk.lean ====
section
/-! SUPPORT. The canonical form of bytes, tags and poison marks together, kept by every operation that writes one of
them. -/

namespace Sys2Proof.Machine

/-- A state with the same bytes, tags and marks. -/
theorem memoryOk_of {s t : State} (h : memoryOk s) (hm : t.mem = s.mem) (ht : t.tags = s.tags) (hp : t.poisoned = s.poisoned) :
    memoryOk t := by
  unfold memoryOk; rw [hm, ht, hp]; exact h

theorem memoryOk_setRaw {s : State} (a : Nat) (bs : List Byte) (h : memoryOk s) : memoryOk (s.setRaw a bs) :=
  ⟨Memory.wf_setRaw a bs h.1, h.2⟩

theorem memoryOk_setTags {s : State} (l : Nat) (t : Tag) (h : memoryOk s) :
    memoryOk { s with tags := SMap.set nullTag s.tags l t } := ⟨h.1, SMap.wf_set _ _ _ h.2.1, h.2.2⟩

theorem memoryOk_filterTags {s : State} (f : Nat × Tag → Bool) (h : memoryOk s) : memoryOk { s with tags := s.tags.filter f } :=
  ⟨h.1, SMap.wf_filter _ _ h.2.1, h.2.2⟩

theorem memoryOk_setRawLine {s : State} (a : Nat) (x : Line) (h : memoryOk s) : memoryOk (s.setRawLine a x) :=
  ⟨Memory.wf_setRawLine a x h.1, SMap.wf_set _ _ _ h.2.1, SMap.wf_set _ _ _ h.2.2⟩

theorem memoryOk_putLine {s : State} (pa : Nat) (bs : List Byte) (tag : Tag) (h : memoryOk s) : memoryOk (s.putLine pa bs tag) :=
  memoryOk_setRawLine _ _ (memoryOk_of h rfl rfl rfl)

theorem memoryOk_localPut {s : State} (tag : Tag) (n off : Nat) (bs : List Byte) (h : memoryOk s) :
    memoryOk (s.localPut tag n off bs) := by
  unfold State.localPut
  split
  · exact memoryOk_of h rfl rfl rfl
  · refine memoryOk_of (memoryOk_setTags _ tag (memoryOk_setRaw _ bs ?_)) rfl rfl rfl
    split
    · exact h
    · exact memoryOk_setRaw _ _ h

theorem memoryOk_localPutSpan {s : State} (tag : Tag) (n off : Nat) (bs : List Byte) (fuel : Nat) (h : memoryOk s) :
    memoryOk (s.localPutSpan tag n off bs fuel) := by
  induction fuel generalizing s off bs with
  | zero => exact h
  | succ k ih =>
    unfold State.localPutSpan
    split
    · exact h
    · exact ih _ _ (memoryOk_localPut _ _ _ _ h)

theorem memoryOk_sweepLine {s : State} (l : Nat) (h : memoryOk s) : memoryOk (s.sweepLine l) := memoryOk_setTags _ _ h

theorem memoryOk_sweepAt {s : State} (e : SweepElem) (h : memoryOk s) : memoryOk (s.sweepAt e) := by
  cases e <;> first | exact memoryOk_of h rfl rfl rfl | exact memoryOk_sweepLine _ h

theorem memoryOk_forget {s : State} (n p : Nat) (h : memoryOk s) : memoryOk (s.forget n p) :=
  memoryOk_of (memoryOk_filterTags _ h) rfl rfl rfl

/-- A fold of an operation that keeps the form. -/
theorem memoryOk_foldl {α : Type} {f : State → α → State} (hf : ∀ s a, memoryOk s → memoryOk (f s a)) (l : List α) {s : State}
    (h : memoryOk s) : memoryOk (l.foldl f s) := by
  induction l generalizing s with
  | nil => exact h
  | cons a l ih => exact ih (hf s a h)

theorem memoryOk_cleared {s : State} (last : Nat) (h : memoryOk s) : memoryOk (s.cleared last) :=
  ⟨Memory.wf_cleared last h.1, rfl, SMap.wf_filter _ _ h.2.2⟩

theorem memoryOk_reset : memoryOk State.reset := ⟨rfl, rfl, rfl⟩

/-! The caches and the walker. -/

theorem memoryOk_setDie {s : State} (d : Nat) (x : Die) (h : memoryOk s) : memoryOk (s.setDie d x) := memoryOk_of h rfl rfl rfl

theorem memoryOk_setCoreAt {s : State} (n : Nat) (k : Core) (h : memoryOk s) : memoryOk (s.setCoreAt n k) := memoryOk_of h rfl rfl rfl

theorem memoryOk_wake {s : State} (n x : Nat) (h : memoryOk s) : memoryOk (s.wake n x) := memoryOk_of h rfl rfl rfl

theorem memoryOk_ite {c : Prop} [Decidable c] {s t : State} (hs : memoryOk s) (ht : memoryOk t) : memoryOk (if c then s else t) := by
  split
  · exact hs
  · exact ht

theorem memoryOk_dropParts {s : State} (line : Nat) (h : memoryOk s) : memoryOk (s.dropParts line) :=
  memoryOk_foldl (fun _ (_, _) hs => memoryOk_ite (memoryOk_setCoreAt _ _ hs) hs) _
    (memoryOk_foldl (fun _ (_, _) hs => memoryOk_setDie _ _ hs) _ h)

theorem memoryOk_evict {s : State} (line : Nat) (h : memoryOk s) : memoryOk (s.evict line) :=
  memoryOk_ite (memoryOk_dropParts _ h) (memoryOk_of (memoryOk_dropParts line h) rfl rfl rfl)

/-! The device's own writes, and the error log. -/

theorem memoryOk_fireMonitors {s : State} (line : Nat) (h : memoryOk s) : memoryOk (s.fireMonitors line) :=
  memoryOk_foldl (fun _ (_, _, _) hs => memoryOk_ite (memoryOk_wake _ _ hs) hs) _
    (memoryOk_foldl (fun _ (_, _) hs => memoryOk_ite (memoryOk_setDie _ _ hs) hs) _ h)

theorem memoryOk_rereadLine {s : State} (line : Nat) (h : memoryOk s) : memoryOk (s.rereadLine line) := by
  have h1 : memoryOk (s.tasks.foldl (fun s' (n, x, t) =>
      match t.st with
      | .parked (.word va v) =>
        match s.peek { part := tagPart t.tag, tag := t.tag, core := some n } va.toNat with
        | some (w, l) => if (decide (lineOf l.addr = line) && decide (w ≠ v)) = true then s'.wake n x else s'
        | none => s'
      | _ => s') s) := by
    refine memoryOk_foldl (fun u (n, x, t) hu => ?_) _ h
    dsimp only
    split
    · split
      · exact memoryOk_ite (memoryOk_wake _ _ hu) hu
      · exact hu
    · exact hu
  dsimp only [State.rereadLine]
  split
  · exact memoryOk_of h1 rfl rfl rfl
  · exact h1

theorem memoryOk_written {s : State} (l : Loc) (h : memoryOk s) : memoryOk (s.written l) := by
  cases l <;> first | exact memoryOk_rereadLine _ h | exact memoryOk_rereadLine _ (memoryOk_fireMonitors _ h)

theorem memoryOk_storeCopies {s : State} (line off : Nat) (bs : List Byte) (h : memoryOk s) : memoryOk (s.storeCopies line off bs) :=
  memoryOk_foldl (fun _ (_, _, _) hs => memoryOk_ite (memoryOk_setRaw _ _ hs) hs) _ h

theorem memoryOk_renewLine {s : State} (key : Nat) (m : BitVec 4) (x : Line) (h : memoryOk s) : memoryOk (s.renewLine key m x) := by
  unfold State.renewLine
  extract_lets d die through put s1
  have h1 : memoryOk s1 := memoryOk_ite (memoryOk_setDie _ _ h) h
  clear_value s1
  split
  · exact memoryOk_setRawLine _ _ h1
  · exact h1

theorem memoryOk_storeDevice {s : State} (pa : Nat) (bs : List Byte) (h : memoryOk s) : memoryOk (s.storeDevice pa bs).1 := by
  dsimp only [State.storeDevice]
  split
  · exact h
  · dsimp only
    apply memoryOk_written
    apply memoryOk_evict
    apply memoryOk_renewLine
    exact memoryOk_storeCopies _ _ _ h

theorem memoryOk_setReg {s : State} (off : Nat) (v : Word) (h : memoryOk s) : memoryOk (s.setReg off v) := memoryOk_of h rfl rfl rfl

theorem memoryOk_setField {s : State} (off hi lo v : Nat) (h : memoryOk s) : memoryOk (s.setField off hi lo v) := memoryOk_of h rfl rfl rfl

theorem memoryOk_count {s : State} (off hi lo n : Nat) (h : memoryOk s) : memoryOk (s.count off hi lo n) := memoryOk_of h rfl rfl rfl

theorem memoryOk_interrupt {s : State} (v : Nat) (h : memoryOk s) : memoryOk (s.interrupt v) := by
  unfold State.interrupt
  split
  · exact h
  · exact memoryOk_of h rfl rfl rfl

theorem memoryOk_putRecord {s : State} (e : ErrRec) (h : memoryOk s) : memoryOk (s.putRecord e) := memoryOk_storeDevice _ _ h

theorem memoryOk_appendRecord {s : State} (e : ErrRec) (h : memoryOk s) : memoryOk (s.appendRecord e) := by
  have hw : ∀ x : ErrRec, ∀ p, memoryOk (((s.putRecord x).setField (relReg 0x10) 31 0 p).keepRecord x) := fun x p =>
    memoryOk_of (memoryOk_setField (relReg 0x10) 31 0 p (memoryOk_putRecord x h)) rfl rfl rfl
  exact memoryOk_ite (memoryOk_setField _ _ _ _ (memoryOk_count _ _ _ _ h)) (memoryOk_ite (memoryOk_interrupt _ (hw _ _)) (hw _ _))

theorem memoryOk_orderRecord {s : State} (e : ErrRec) (fuel : Nat) (h : memoryOk s) : memoryOk (s.orderRecord e fuel) := by
  induction fuel generalizing s e with
  | zero => exact memoryOk_appendRecord _ h
  | succ k ih =>
    unfold State.orderRecord
    split
    · exact memoryOk_appendRecord _ h
    · exact ih _ (memoryOk_of (memoryOk_putRecord _ h) rfl rfl rfl)

theorem memoryOk_logError {s : State} (cls sev : Nat) (inj : Bool) (kind index pmask addr detail : Nat) (h : memoryOk s) :
    memoryOk (s.logError cls sev inj kind index pmask addr detail) := memoryOk_orderRecord _ _ h

theorem memoryOk_reportInjected {s : State} (kind index cls addr detail : Nat) (h : memoryOk s) :
    memoryOk (s.reportInjected kind index cls addr detail) := by
  have h0 : memoryOk { s with armed := s.armed.filter fun a => !(a.kind == kind && a.index == index && a.cls == cls) } :=
    memoryOk_of h rfl rfl rfl
  have h1 := fun c : Prop => fun [Decidable c] => memoryOk_ite (c := c) (memoryOk_setField (relReg 0x28) cls cls 0 h0) h0
  exact memoryOk_ite (memoryOk_of (memoryOk_logError _ _ _ _ _ _ _ _ (h1 _)) rfl rfl rfl) (memoryOk_logError _ _ _ _ _ _ _ _ (h1 _))

theorem memoryOk_checked {s : State} (kind index cls addr detail : Nat) (h : memoryOk s) :
    memoryOk (s.checked kind index cls addr detail) := memoryOk_ite (memoryOk_reportInjected _ _ _ _ _ h) h

theorem memoryOk_storeInPlace {s : State} (pa : Nat) (bs : List Byte) (h : memoryOk s) : memoryOk (s.storeInPlace pa bs) := by
  have h1 := memoryOk_storeDevice pa bs h
  unfold State.storeInPlace
  split <;> rename_i e <;> rw [e] at h1
  · exact h1
  · exact memoryOk_logError _ _ _ _ _ _ _ _ h1

theorem memoryOk_driverStore {s : State} (pa : Nat) (bs : List Byte) (fuel : Nat) (h : memoryOk s) :
    memoryOk (s.driverStore pa bs fuel) := by
  induction fuel generalizing s pa bs with
  | zero => exact h
  | succ k ih => exact memoryOk_ite h (ih _ _ (memoryOk_storeInPlace _ _ h))

theorem memoryOk_undoLog {s : State} (p pa : Nat) (h : memoryOk s) : memoryOk (s.undoLog p pa) := by
  refine memoryOk_ite h (memoryOk_ite h ?_)
  have hc := memoryOk_checked 3 (stackOf pa) 13 0 (stackOf pa) h
  exact memoryOk_ite (memoryOk_of (memoryOk_logError _ _ _ _ _ _ _ _ (memoryOk_setField _ _ _ _ hc)) rfl rfl rfl)
    (memoryOk_of (memoryOk_driverStore _ _ _ hc) rfl rfl rfl)

/-! The die caches. -/

theorem memoryOk_writeBack {s : State} (c : CLine) (h : memoryOk s) : memoryOk (s.writeBack c) :=
  memoryOk_ite h (memoryOk_setRawLine _ _ (memoryOk_undoLog _ _ h))

theorem memoryOk_flushDies {s : State} (h : memoryOk s) : memoryOk s.flushDies := by
  refine memoryOk_foldl (fun s e hs => memoryOk_foldl (fun s c hs => ?_) _ hs) _ h
  split
  · exact hs
  · exact memoryOk_writeBack c hs

theorem memoryOk_replace {s : State} (d : Nat) (c : CLine) (h : memoryOk s) : memoryOk (s.replace d c) := by
  have h1 := fun p : Prop => fun [Decidable p] => memoryOk_ite (c := p) h (memoryOk_writeBack c h)
  exact memoryOk_ite (memoryOk_evict _ (h1 _)) (h1 _)

theorem memoryOk_insertLine {s : State} (d p : Nat) (c : CLine) (below : Bool) (h : memoryOk s) :
    memoryOk (s.insertLine d p c below).1 := by
  unfold State.insertLine
  split
  · exact h
  · refine memoryOk_setDie _ _ ?_
    split
    · exact memoryOk_replace _ _ h
    · exact h

theorem memoryOk_dropLine {s : State} (d key : Nat) (h : memoryOk s) : memoryOk (s.dropLine d key) := memoryOk_of h rfl rfl rfl

theorem memoryOk_putFrame {s : State} (pa : Nat) (x : Line) (h : memoryOk s) : memoryOk (s.putFrame pa x) :=
  memoryOk_setRawLine _ _ (memoryOk_dropLine _ _ h)

theorem memoryOk_sendFrame {s : State} (p pa : Nat) (x : Line) (h : memoryOk s) : memoryOk (s.sendFrame p pa x) :=
  memoryOk_ite (memoryOk_logError _ _ _ _ _ _ _ _ h) (memoryOk_putFrame _ _ h)

theorem memoryOk_touchLine {s : State} (d key : Nat) (h : memoryOk s) : memoryOk (s.touchLine d key) := by
  unfold State.touchLine
  simp only
  split
  · exact memoryOk_setDie _ _ h
  · exact h

theorem memoryOk_fillSectors {s : State} (d key : Nat) (m : BitVec 4) (x : LineBits) (h : memoryOk s) :
    memoryOk (s.fillSectors d key m x) := memoryOk_setDie _ _ h

theorem memoryOk_fill {s : State} (d p key : Nat) (x : Line) (m : BitVec 4) (h : memoryOk s) : memoryOk (s.fill d p key x m) :=
  memoryOk_insertLine _ _ _ _ h

theorem memoryOk_copyHost {s : State} (d p : Nat) (tag : Tag) (key : Nat) (h : memoryOk s) : memoryOk (s.copyHost d p tag key) :=
  memoryOk_fill _ _ _ _ _ (memoryOk_dropLine _ _ h)

theorem memoryOk_hitHost {s : State} (d p : Nat) (tag : Tag) (key : Nat) (h : memoryOk s) : memoryOk (s.hitHost d p tag key) := by
  unfold State.hitHost
  split
  · exact memoryOk_ite (memoryOk_touchLine _ _ h) (memoryOk_copyHost _ _ _ _ h)
  · exact memoryOk_copyHost _ _ _ _ h

theorem memoryOk_shareLine {s : State} (core : Option Nat) (p : Nat) (tag : Tag) (l : Loc) (x : Line) (m : BitVec 4) (h : memoryOk s) :
    memoryOk (s.shareLine core p tag l x m) := by
  have hs : ∀ d key, memoryOk (match (s.die d).find key with
      | some _ => (s.fillSectors d key m x.data).touchLine d key
      | none => s.fill d p key x m) := by
    intro d key
    split
    · exact memoryOk_touchLine _ _ (memoryOk_fillSectors _ _ _ _ h)
    · exact memoryOk_fill _ _ _ _ _ h
  cases core with
  | none => exact h
  | some n =>
    refine memoryOk_ite h ?_
    cases l with
    | host a => exact memoryOk_hitHost _ _ _ _ h
    | frame pa o => exact hs _ _
    | cistern a b c => exact hs _ _

theorem memoryOk_fetchLine {s : State} (core : Option Nat) (p : Nat) (tag : Tag) (l : Loc) (off n : Nat) (h : memoryOk s) :
    memoryOk (s.fetchLine core p tag l off n).1 := by
  refine memoryOk_shareLine _ _ _ _ _ _ ?_
  cases l with
  | host a => exact memoryOk_hitHost _ _ _ _ h
  | cistern a b c => exact memoryOk_ite (memoryOk_touchLine _ _ h) h
  | frame pa o =>
    dsimp only
    split
    · exact memoryOk_ite (memoryOk_touchLine _ _ (memoryOk_fillSectors _ _ _ _ h)) h
    · exact memoryOk_fill _ _ _ _ _ h

theorem memoryOk_holdPart {s : State} (core : Option Nat) (tag : Tag) (l : Loc) (x : Line) (h : memoryOk s) :
    memoryOk (s.holdPart core tag l x) := by
  cases core with
  | none => exact h
  | some n => exact memoryOk_ite h (memoryOk_setCoreAt _ _ h)

/-- A line placed in a cache, or written through. -/
theorem memoryOk_insertOr {s : State} (d p : Nat) (c : CLine) (below : Bool) (key : Nat) (x : Line) (h : memoryOk s) :
    memoryOk (if (s.insertLine d p c below).2 = true then (s.insertLine d p c below).1
      else (s.insertLine d p c below).1.setRawLine key x) :=
  memoryOk_ite (memoryOk_insertLine _ _ _ _ h) (memoryOk_setRawLine _ _ (memoryOk_insertLine _ _ _ _ h))

theorem memoryOk_placeLine {s : State} (p pa : Nat) (x : Line) (dirty : BitVec 4) (h : memoryOk s) :
    memoryOk (s.placeLine p pa x dirty) := by
  dsimp only [State.placeLine]
  generalize (s.die (dieOf pa)).find (lineOf pa) = old
  cases old with
  | none => exact memoryOk_insertOr _ _ _ _ _ _ h
  | some c => exact memoryOk_ite (memoryOk_setDie _ _ h) (memoryOk_insertOr _ _ _ _ _ _ (memoryOk_dropLine _ _ h))

theorem memoryOk_cacheChecks {s : State} (l : Loc) (h : memoryOk s) : memoryOk (s.cacheChecks l) := by
  have h3 := fun a b c d e : Nat => fun f g i j k : Nat => fun m n o p q : Nat =>
    memoryOk_checked m n o p q (memoryOk_checked f g i j k (memoryOk_checked a b c d e h))
  cases l <;> first | exact h3 _ _ _ _ _ _ _ _ _ _ _ _ _ _ _ | exact memoryOk_checked _ _ _ _ _ (h3 _ _ _ _ _ _ _ _ _ _ _ _ _ _ _)

theorem memoryOk_stackChecks {s : State} (l : Loc) (h : memoryOk s) : memoryOk (s.stackChecks l) := by
  cases l <;> first | exact h | exact memoryOk_ite h (memoryOk_checked _ _ _ _ _ (memoryOk_checked _ _ _ _ _ h))

theorem memoryOk_accessed {s : State} (ag : Agent) (va : Nat) (acc : Access) (l : Loc) (h : memoryOk s) :
    memoryOk (s.accessed ag va acc l) := by
  refine memoryOk_ite h ?_
  have h1 := fun w : Nat => memoryOk_stackChecks l (memoryOk_cacheChecks l (memoryOk_checked 6 w 2 va 0 h))
  cases acc <;> first | exact h1 _ | exact memoryOk_checked _ _ _ _ _ (h1 _)

/-! Translation. -/

theorem memoryOk_putWord {s : State} (pa : Nat) (v : Word) (h : memoryOk s) : memoryOk (s.putWord pa v) := memoryOk_storeInPlace _ _ h

theorem memoryOk_writePosting {s : State} (p : Nat) (x : Posting) (h : memoryOk s) : memoryOk (s.writePosting p x) :=
  memoryOk_ite (memoryOk_interrupt _ (memoryOk_setField _ _ _ _ (memoryOk_storeInPlace _ _ h)))
    (memoryOk_setField _ _ _ _ (memoryOk_storeInPlace _ _ h))

theorem memoryOk_post {s t : State} (p : Nat) (x : Posting) (h : memoryOk s) (ht : s.post p x = some t) : memoryOk t := by
  unfold State.post at ht
  simp only at ht
  repeat' split at ht
  all_goals try cases ht
  · exact h
  · exact memoryOk_writePosting _ _ h
  · exact memoryOk_setField _ _ _ _ (memoryOk_of h rfl rfl rfl)

theorem memoryOk_logDirty {s : State} (p va level : Nat) (h : memoryOk s) : memoryOk (s.logDirty p va level) :=
  memoryOk_ite (memoryOk_setField _ _ _ _ h) (memoryOk_setField _ _ _ _ (memoryOk_storeInPlace _ _ h))

theorem memoryOk_markEntry {s : State} (p va : Nat) (w : Stopped) (wr : Bool) (h : memoryOk s) : memoryOk (s.markEntry p va w wr).1 := by
  unfold State.markEntry
  simp only
  split
  · exact memoryOk_ite (memoryOk_logDirty _ _ _ (memoryOk_putWord _ _ h)) (memoryOk_putWord _ _ h)
  · exact h

theorem memoryOk_tlbPut {s : State} (ag : Agent) (va : Nat) (w : Stopped) (h : memoryOk s) : memoryOk (s.tlbPut ag va w) := by
  unfold State.tlbPut
  split
  · exact h
  · exact memoryOk_setCoreAt _ _ h

/-- Where a result is a state, its memory is canonical. -/
def OkKeeps {ε α : Type} (f : α → State) (r : Except ε α) : Prop := ∀ a, r = .ok a → memoryOk (f a)

theorem OkKeeps.ok {ε α : Type} {f : α → State} {a : α} (h : memoryOk (f a)) : OkKeeps f (.ok a : Except ε α) :=
  fun _ e => by cases e; exact h

theorem OkKeeps.error {ε α : Type} {f : α → State} (e : ε) : OkKeeps f (.error e : Except ε α) := fun _ h => nomatch h

theorem OkKeeps.ite {ε α : Type} {f : α → State} {c : Prop} [Decidable c] {r q : Except ε α} (hr : OkKeeps f r) (hq : OkKeeps f q) :
    OkKeeps f (if c then r else q) := by
  split
  · exact hr
  · exact hq

theorem OkKeeps.bind {ε α β : Type} {f : α → State} {g : β → State} {r : Except ε α} {k : α → Except ε β} (hr : OkKeeps f r)
    (hk : ∀ a, memoryOk (f a) → OkKeeps g (k a)) : OkKeeps g (r >>= k) := by
  cases r with
  | error e => exact fun _ h => nomatch h
  | ok a => exact hk a (hr a rfl)

/-- A fold of an operation that may stop and keeps the form. -/
theorem OkKeeps.foldlM {ε α β : Type} {f : β → State} {k : β → α → Except ε β} (hk : ∀ b a, memoryOk (f b) → OkKeeps f (k b a))
    (l : List α) {b : β} (h : memoryOk (f b)) : OkKeeps f (l.foldlM k b) := by
  induction l generalizing b with
  | nil => exact .ok h
  | cons a l ih => rw [List.foldlM_cons]; exact .bind (hk b a h) fun c hc => ih hc

theorem memoryOk_postSpill {s : State} (p d page : Nat) (h : memoryOk s) : memoryOk (s.postSpill p d page) := by
  dsimp only [State.postSpill]
  split
  · rename_i t ht
    refine memoryOk_setDie _ _ ?_
    split at ht
    · cases ht; exact h
    · exact memoryOk_post _ _ h ht
  · exact memoryOk_ite h (memoryOk_setDie _ _ h)

theorem memoryOk_placeCistern {s : State} (p : Nat) (l : Loc) (x : Line) (dirty : BitVec 4) (doomed : BitVec 64) (h : memoryOk s) :
    OkKeeps (fun t => t) (s.placeCistern p l x dirty doomed) := by
  have enter : ∀ (c : Prop) [Decidable c] (d key : Nat) (y : Die), memoryOk (if c then s else (s.setDie d y).evict key) :=
    fun c _ d key y => memoryOk_ite h (memoryOk_evict _ (memoryOk_setDie _ _ h))
  dsimp only [State.placeCistern]
  refine .ite (.ok (memoryOk_setDie _ _ h)) (.ite (.ok (memoryOk_setDie _ _ h)) ?_)
  split
  · exact .ok (memoryOk_insertLine _ _ _ _ h)
  · split
    · exact .ite (.ok (enter _ _ _ _)) (.ite (.error _) (.ok (memoryOk_sendFrame _ _ _ (enter _ _ _ _))))
    · exact .ite (.ok (enter _ _ _ _)) (.ite (.ok (memoryOk_postSpill _ _ _ (memoryOk_setDie _ _ (enter _ _ _ _)))) (.error _))

theorem memoryOk_placeAt {s : State} (p : Nat) (l : Loc) (x : Line) (doomed : BitVec 64) (h : memoryOk s) :
    OkKeeps (fun t => t) (s.placeAt p l x doomed) := by
  cases l with
  | host a => exact .ok (memoryOk_setRaw _ _ h)
  | frame pa o => exact .ok (memoryOk_placeLine _ _ _ _ (memoryOk_undoLog _ _ h))
  | cistern a b c => exact memoryOk_placeCistern _ _ _ _ _ h

theorem memoryOk_moveCharge {s : State} (p page : Nat) (old new : Loc) (h : memoryOk s) : memoryOk (s.moveCharge p page old new) := by
  cases old <;> cases new <;> exact memoryOk_of h rfl rfl rfl

theorem memoryOk_setMoving {s : State} (l : List (Nat × Nat)) (h : memoryOk s) : memoryOk { s with moving := l } :=
  memoryOk_of h rfl rfl rfl

theorem memoryOk_migrationFault {s : State} (p rec code : Nat) (h : memoryOk s) : memoryOk (s.migrationFault p rec code) :=
  memoryOk_setMoving _ (memoryOk_putWord _ _ h)

theorem memoryOk_learnFrame {s : State} (p va : Nat) (l : Loc) (h : memoryOk s) : memoryOk (s.learnFrame p va l) := by
  cases l <;> exact h

theorem memoryOk_markMoved {s : State} (p rec page l : Nat) (old new : Loc) (h : memoryOk s) :
    memoryOk (s.markMoved p rec page l old new) := memoryOk_moveCharge _ _ _ _ (memoryOk_putWord _ _ h)

theorem memoryOk_leavePlace {s : State} (p va : Nat) (old : Loc) (x : Line) (h : memoryOk s) : memoryOk (s.leavePlace p va old x) := by
  cases old <;> exact memoryOk_ite (memoryOk_logError _ _ _ _ _ _ _ _ h) h

theorem memoryOk_moveLine {s : State} (p rec page l : Nat) (h : memoryOk s) : OkKeeps (fun t => t) (s.moveLine p rec page l) := by
  unfold State.moveLine
  refine .ite (.error _) (.ite (.ok (memoryOk_migrationFault _ _ _ h)) (.ite (.ok (memoryOk_markMoved _ _ _ _ _ _ h)) ?_))
  split
  · rename_i hu
    exact .ok (memoryOk_markMoved _ _ _ _ _ _ (memoryOk_placeAt _ _ _ _ (memoryOk_leavePlace _ _ _ _ (memoryOk_learnFrame _ _ _ h)) _ hu))
  · exact .error _

theorem memoryOk_throughMigration {s : State} (p va level slot : Nat) (e : Word) (h : memoryOk s) :
    OkKeeps Prod.fst (s.throughMigration p va level slot e) := by
  unfold State.throughMigration
  refine .ite (.error _) (.ite (.error _) (.ite (.ok h) (.ite (.error _) ?_)))
  split
  · rename_i hu; exact .ite (.ok (memoryOk_moveLine _ _ _ _ h _ hu)) (.error _)
  · exact .error _

theorem memoryOk_enterLeaf {s : State} (ag : Agent) (va : Nat) (u : Use) (w : Stopped) (h : memoryOk s) :
    OkKeeps Prod.fst (s.enterLeaf ag va u w) := by
  unfold State.enterLeaf
  extract_lets last
  have hl : ∀ x : State × Loc, memoryOk x.1 → OkKeeps Prod.fst (last x) := by
    rintro ⟨s1, l⟩ h1
    have h2 := memoryOk_learnFrame ag.part va l h1
    cases l with
    | host a => exact .ite (.error _) (.ok h2)
    | frame pa o => exact .ite (.error _) (.ok h2)
    | cistern a b c => exact .ite (.error _) (.ite (.error _) (.ite (.error _) (.ok h2)))
  clear_value last
  refine .ite (.bind (f := Prod.fst) (memoryOk_throughMigration _ _ _ _ _ h) hl) ?_
  split
  · exact .bind (f := Prod.fst) (.ok h) hl
  · exact .bind (f := Prod.fst) (.error _) hl

/-- A translation keeps the form. -/
theorem memoryOk_translate {s : State} (ag : Agent) (va : Nat) (acc : Access) (u : Use) (h : memoryOk s) :
    OkKeeps Prod.fst (s.translate ag va acc u) := by
  have any : ∀ {α : Type} (r : Except XErr α), OkKeeps (fun _ => s) r := fun _ _ _ => h
  rw [State.translate]
  refine .ite (.error _) ?_
  extract_lets hit wr last first
  have hl : ∀ w, OkKeeps Prod.fst (last w) := fun w => .bind (f := fun _ => s) (any _) fun _ _ =>
    .bind (f := Prod.fst) (memoryOk_enterLeaf _ _ _ _ (memoryOk_tlbPut _ _ _ (memoryOk_markEntry _ _ _ _ h))) fun _ h2 =>
      .ok (memoryOk_accessed _ _ _ _ h2)
  have hf : ∀ w, OkKeeps Prod.fst (first w) := fun w => .bind (f := fun _ => s) (any _) fun _ _ =>
    .ite (.bind (f := fun _ => s) (any _) fun w _ => hl w) (.bind (f := fun _ => s) (any _) fun w _ => hl w)
  clear_value first
  cases hit <;> exact .bind (f := fun _ => s) (any _) fun w _ => hf w

/-! Accesses, and the stash copies that they recall. -/

theorem memoryOk_countDrop {s : State} (tag : Tag) (h : memoryOk s) : memoryOk (s.countDrop tag) := memoryOk_of h rfl rfl rfl

theorem memoryOk_renewHost {s : State} (p : Nat) (tag : Tag) (key : Nat) (h : memoryOk s) : memoryOk (s.renewHost p tag key) := by
  unfold State.renewHost
  split
  · exact memoryOk_copyHost _ _ _ _ h
  · exact h

theorem memoryOk_writePart {s : State} (p : Nat) (tag : Tag) (l : Loc) (va : Nat) (bs : List Byte) (h : memoryOk s) :
    OkKeeps (fun t => t) (s.writePart p tag l va bs) := by
  unfold State.writePart
  refine .ite (.ok (memoryOk_countDrop _ h)) (.ite (.ok (memoryOk_logError _ _ _ _ _ _ _ _ h)) ?_)
  cases l with
  | host a => exact .ok (memoryOk_written _ (memoryOk_renewHost _ _ _ (memoryOk_setRaw _ _ h)))
  | frame pa o => exact .ok (memoryOk_written _ (memoryOk_placeLine _ _ _ _ (memoryOk_undoLog _ _ h)))
  | cistern a b c =>
    dsimp only
    split
    · rename_i hu; exact .ok (memoryOk_written _ (memoryOk_placeCistern _ _ _ _ _ h _ hu))
    · exact .error _

theorem memoryOk_setSector {s : State} (n e i : Nat) (c : Sector) (h : memoryOk s) : memoryOk (s.setSector n e i c) :=
  memoryOk_setCoreAt _ _ h

theorem memoryOk_writeSector {s : State} (n e i : Nat) (l : Loc) (va : Nat) (h : memoryOk s) :
    OkKeeps (fun t => t) (s.writeSector n e i l va) := by
  dsimp only [State.writeSector]
  split
  · exact .error _
  · rename_i hw; exact .ok (memoryOk_setSector _ _ _ _ (memoryOk_writePart _ _ _ _ _ h _ hw))

theorem memoryOk_writebackSector {s : State} (n e i : Nat) (h : memoryOk s) : OkKeeps (fun t => t) (s.writebackSector n e i) := by
  dsimp only [State.writebackSector]
  refine .ite (.ok h) (.ite (.ok (memoryOk_setSector _ _ _ _ (memoryOk_countDrop _ h))) ?_)
  split
  · exact .ok (memoryOk_setCoreAt _ _ h)
  · exact .error _
  · rename_i hu; exact memoryOk_writeSector _ _ _ _ _ (memoryOk_translate _ _ _ _ h _ hu)

theorem memoryOk_giveUpSector {s : State} (n e i : Nat) (h : memoryOk s) : OkKeeps (fun t => t) (s.giveUpSector n e i) :=
  .bind (f := fun t => t) (memoryOk_writebackSector _ _ _ h) fun _ h1 => .ok (memoryOk_setSector _ _ _ _ h1)

theorem memoryOk_giveUpCopies {s : State} (line : Nat) (keep : Nat → Nat → Nat → Bool) (h : memoryOk s) :
    OkKeeps (fun t => t) (s.giveUpCopies line keep) :=
  .foldlM (fun _ (_, _, _) ht => memoryOk_giveUpSector _ _ _ ht) _ h

theorem memoryOk_recall {s : State} (line : Nat) (h : memoryOk s) : OkKeeps (fun t => t) (s.recall line) :=
  memoryOk_giveUpCopies _ _ (memoryOk_dropParts _ h)

theorem memoryOk_settleEvicted {s : State} (h : memoryOk s) : memoryOk s.settleEvicted := by
  refine memoryOk_foldl (fun t line ht => ?_) _ h
  split
  · rename_i u hu
    have h1 : memoryOk { t with evicted := t.evicted.filter (· != line) } := memoryOk_of ht rfl rfl rfl
    exact memoryOk_recall _ h1 _ hu
  · exact ht

theorem memoryOk_readAt {s : State} (ag : Agent) (va n : Nat) (acc : Access) (u : Use) (h : memoryOk s) :
    OkKeeps (fun r => r.1) (s.readAt ag va n acc u) := by
  unfold State.readAt
  split
  · exact .error _
  · rename_i hu
    exact .ok (memoryOk_settleEvicted (memoryOk_holdPart _ _ _ _ (memoryOk_fetchLine _ _ _ _ _ _ (memoryOk_translate _ _ _ _ h _ hu))))

theorem memoryOk_putPart {s : State} (ag : Agent) (l : Loc) (va : Nat) (bs : List Byte) (h : memoryOk s) :
    OkKeeps (fun t => t) (s.putPart ag l va bs) := by
  have hr : OkKeeps (fun t => t) (if s.lands ag.tag then s.recall (lineOf l.addr) else .ok s) := .ite (memoryOk_recall _ h) (.ok h)
  unfold State.putPart
  split
  · exact .error _
  · rename_i h1
    split
    · exact .error _
    · rename_i hw
      have h2 := memoryOk_writePart _ _ _ _ _ (hr _ h1) _ hw
      exact .ok (memoryOk_settleEvicted (memoryOk_ite (memoryOk_holdPart _ _ _ _ h2) h2))

theorem memoryOk_writeAt {s : State} (ag : Agent) (va : Nat) (bs : List Byte) (h : memoryOk s) :
    OkKeeps (fun t => t) (s.writeAt ag va bs) := by
  unfold State.writeAt
  split
  · exact .error _
  · rename_i hu; exact memoryOk_putPart _ _ _ _ (memoryOk_translate _ _ _ _ h _ hu)

theorem memoryOk_readSpan {s : State} (ag : Agent) (va n : Nat) (u : Use) (fuel : Nat) (h : memoryOk s) :
    OkKeeps (fun r => r.1) (s.readSpan ag va n u fuel) := by
  induction fuel generalizing s va n with
  | zero => exact .ok h
  | succ k ih =>
    rw [State.readSpan]
    refine .ite (.ok h) ?_
    dsimp only
    split
    · exact .error _
    · rename_i hr
      have h1 := memoryOk_readAt _ _ _ _ _ h _ hr
      split
      · exact .error _
      · rename_i hs
        have h2 := ih _ _ h1 _ hs
        exact .ok h2

theorem memoryOk_writeSpan {s : State} (ag : Agent) (va : Nat) (bs : List Byte) (fuel : Nat) (h : memoryOk s) :
    OkKeeps (fun t => t) (s.writeSpan ag va bs fuel) := by
  induction fuel generalizing s va bs with
  | zero => exact .ok h
  | succ k ih =>
    rw [State.writeSpan]
    refine .ite (.ok h) ?_
    dsimp only
    split
    · exact .error _
    · rename_i hw
      exact ih _ _ (memoryOk_writeAt _ _ _ h _ hw)

theorem memoryOk_spillFull {s : State} (p d page : Nat) (h : memoryOk s) : memoryOk (s.spillFull p d page) :=
  memoryOk_ite h (memoryOk_logError _ _ _ _ _ _ _ _ (memoryOk_setDie _ _ h))

theorem memoryOk_noteWait {s : State} (p : Nat) (e : XErr) (h : memoryOk s) : memoryOk (s.noteWait p e) := by
  cases e <;> first | exact h | exact memoryOk_spillFull _ _ _ h

/-! The local store through stash ranges. -/

theorem memoryOk_fillSector {s : State} (n e i : Nat) (tag : Tag) (h : memoryOk s) : OkKeeps Prod.fst (s.fillSector n e i tag) := by
  rw [State.fillSector]
  refine .ite (.ok h) ?_
  extract_lets rest
  have hn : ∀ s0, memoryOk s0 → OkKeeps Prod.fst (rest s0) := fun s0 h0 =>
    .bind (f := fun (r : State × Line × Loc) => r.1) (memoryOk_readAt _ _ _ _ _ h0) fun (s1, ln, l) h1 =>
      .ok (memoryOk_setSector _ _ _ _ (memoryOk_setTags _ _ (memoryOk_setRaw _ _ (memoryOk_ite (memoryOk_setRaw _ _ h1) h1))))
  clear_value rest
  exact .ite (.bind (f := fun t => t) (.foldlM (fun _ _ ht => memoryOk_giveUpSector _ _ _ ht) _ h) hn)
    (.bind (f := fun t => t) (.ok h) hn)

theorem memoryOk_fillRange {s : State} (tag : Tag) (n off size : Nat) (acc : Access) (a : Word) (lslot : Bool) (h : memoryOk s) :
    OkKeeps Prod.fst (s.fillRange tag n off size acc a lslot) := by
  refine .foldlM (fun t (c, e, i) ht => ?_) _ h
  dsimp only
  split
  · exact .error _
  · split
    · exact .error _
    · rename_i hf
      have h1 := memoryOk_fillSector _ _ _ _ ht _ hf
      exact .ok h1

theorem memoryOk_dirtyRange {s : State} (n off size : Nat) (h : memoryOk s) : memoryOk (s.dirtyRange n off size) := by
  refine memoryOk_foldl (fun t (c, e, i) ht => ?_) _ h
  have h1 := fun x => memoryOk_setSector c e i x ht
  dsimp only
  split
  · exact memoryOk_rereadLine _ (memoryOk_fireMonitors _ (h1 _))
  · exact h1 _

theorem memoryOk_gainExclusive {s : State} (n off size : Nat) (h : memoryOk s) : OkKeeps (fun t => t) (s.gainExclusive n off size) := by
  refine .foldlM (fun t (c, e, i) ht => ?_) _ h
  dsimp only
  split
  · exact memoryOk_giveUpCopies _ _ (memoryOk_dropParts _ ht)
  · exact .ok ht

theorem memoryOk_localStore {s : State} (tag : Tag) (n off : Nat) (bs : List Byte) (a : Word) (lslot : Bool) (h : memoryOk s) :
    OkKeeps Prod.fst (s.localStore tag n off bs a lslot) := by
  unfold State.localStore
  refine .bind (f := Prod.fst) (memoryOk_fillRange _ _ _ _ _ _ _ h) fun (s1, pz) h1 => ?_
  dsimp only
  split
  · exact .error _
  · rename_i hg
    exact .ok (memoryOk_dirtyRange _ _ _ (memoryOk_localPutSpan _ _ _ _ _ (memoryOk_gainExclusive _ _ _ h1 _ hg)))

theorem memoryOk_localLoad {s : State} (tag : Tag) (n off len : Nat) (a : Word) (lslot : Bool) (h : memoryOk s) :
    OkKeeps (fun r => r.1) (s.localLoad tag n off len a lslot) :=
  .bind (f := Prod.fst) (memoryOk_fillRange _ _ _ _ _ _ _ h) fun _ h1 => .ok h1

theorem memoryOk_modTask {s : State} (f : Task → Task) (h : memoryOk s) : memoryOk (s.modTask f) := memoryOk_of h rfl rfl rfl

theorem memoryOk_notePoison {s : State} (pz : Option Word) (h : memoryOk s) : memoryOk (s.notePoison pz) := by
  cases pz <;> exact h

theorem memoryOk_takeBanks {s : State} (n at_ : Nat) (m : BitVec 32) (h : memoryOk s) : memoryOk (s.takeBanks n at_ m) := memoryOk_setCoreAt _ _ h

theorem memoryOk_localRead {s : State} (n off len : Nat) (a : Word) (lslot : Bool) (h : memoryOk s) :
    OkKeeps Prod.fst (s.localRead n off len a lslot) := by
  unfold State.localRead
  refine .ite (.error _) (.bind (f := fun r => r.1) (memoryOk_localLoad _ _ _ _ _ _ h) fun (s1, bs, pz) h1 => ?_)
  exact .ok (memoryOk_notePoison _ h1)

theorem memoryOk_localWrite {s : State} (n off : Nat) (bs : List Byte) (a : Word) (h : memoryOk s) :
    OkKeeps (fun t => t) (s.localWrite n off bs a) := by
  unfold State.localWrite
  refine .ite (.error _) (.bind (f := Prod.fst) (memoryOk_localStore _ _ _ _ _ _ h) fun (s1, pz) h1 => ?_)
  exact .ok (memoryOk_notePoison _ h1)

end Sys2Proof.Machine
end

