-- ==== Sys2Proof/Laws/Ops.lean ====
section
/-! SUPPORT. What the shared operations can do, said once: guards, the writing of scalar and predicate registers, and
the ends of an operation. -/

namespace Sys2Proof.Machine

theorem State.setTask_cores (s : State) (t : Task) : s.setTask t = { s with cores := (s.setTask t).cores } := rfl

/-- A write of the executing task touches nothing outside its context. -/
theorem onlyTask_setTask (s : State) (t : Task) : OnlyTask s (s.setTask t) := by
  refine ⟨⟨rfl, fun m hm => ?_⟩, ?_, fun y hy => ?_⟩
  · simp [State.setTask, State.setCore, State.coreAt_setCoreAt, hm]
  · simp [State.setTask, Core.setTask]
  · simp [State.setTask, Core.task_setTask, hy]

/-- An operation under a true guard ends as its result says. -/
theorem State.guarded_true {s : State} {g : Guard} {f : State → Act State} (h : s.guard g = true) :
    s.guarded g f = s.settle (f s) := by simp [State.guarded, h]

/-- An operation under a false guard has no effect. -/
theorem State.guarded_false {s : State} {g : Guard} {f : State → Act State} (h : s.guard g = false) :
    s.guarded g f = .next s := by simp [State.guarded, h]

@[simp] theorem State.settle_ok (s t : State) : s.settle (.ok t) = .next t := rfl
@[simp] theorem State.settle_trap (s : State) (t : Trap) : s.settle (.error (.trap t)) = .next (s.raise t) := rfl
@[simp] theorem State.settle_hold (s : State) (h : Hold) : s.settle (.error (.hold h)) = .next (s.noteHold h) := rfl

/-- What every operation under a guard can do: nothing, its result, a trap, a wait, or a fault that the operation gives. -/
theorem State.guarded_cases (s : State) (g : Guard) (f : State → Act State) :
    (s.guard g = false ∧ s.guarded g f = .next s) ∨
    (s.guard g = true ∧
      ((∃ t, f s = .ok t ∧ s.guarded g f = .next t) ∨ (∃ t, f s = .error (.trap t) ∧ s.guarded g f = .next (s.raise t)) ∨
        (∃ h, f s = .error (.hold h) ∧ s.guarded g f = .next (s.noteHold h)) ∨ ∃ x, f s = .error (.fault x) ∧ s.guarded g f = .fault x)) := by
  cases hg : s.guard g with
  | false => exact .inl ⟨rfl, s.guarded_false hg⟩
  | true =>
    refine .inr ⟨rfl, ?_⟩
    rw [s.guarded_true hg]
    rcases f s with (t | h | x) | t
    · exact .inr (.inl ⟨t, rfl, rfl⟩)
    · exact .inr (.inr (.inl ⟨h, rfl, rfl⟩))
    · exact .inr (.inr (.inr ⟨x, rfl, rfl⟩))
    · exact .inl ⟨t, rfl, rfl⟩

/-- An L-slot operation with the core's store free is its access. -/
theorem State.memoryOp_free {s : State} {g : Guard} {f : State → Act State} (hg : s.guard g = true) (hw : s.preCore.walk = none)
    (hb : s.preCore.splitBusy = false) : s.memoryOp g f = s.settle (f s) := by
  simp [State.memoryOp, State.guarded_true hg, hw, hb]

/-- It waits while a walk or a split occupies the store, whatever its guard is. -/
theorem State.memoryOp_busy {s : State} {g : Guard} {f : State → Act State}
    (hb : s.preCore.walk.isSome = true ∨ s.preCore.splitBusy = true) : s.memoryOp g f = s.settle stall := by
  rcases hb with h | h <;> simp [State.memoryOp, h]

/-- With the core's store free, a false guard leaves it without effect. -/
theorem State.memoryOp_false {s : State} {g : Guard} {f : State → Act State} (hg : s.guard g = false) (hw : s.preCore.walk = none)
    (hb : s.preCore.splitBusy = false) : s.memoryOp g f = .next s := by
  simp [State.memoryOp, hw, hb, s.guarded_false hg]

theorem State.matrixOp_true {s : State} {g : Guard} {f : State → Act State} (hg : s.guard g = true) :
    s.matrixOp g f = s.settle (f (s.landDue s.c s.now fun p => !p.isScale)) := by simp [State.matrixOp, hg]

theorem State.matrixOp_false {s : State} {g : Guard} {f : State → Act State} (hg : s.guard g = false) : s.matrixOp g f = .next s := by
  simp [State.matrixOp, hg]

/-- A vector operation with no active lane has no effect. -/
theorem State.vectorOp_none {s : State} {g : Guard} {f : Fmt} {vd : VDst} {srcs : List VSrc} {n : Nat} {op : List VBits → VBits}
    (h : s.guardLanes g = 0) : s.vectorOp g f vd srcs n op = .next s := by simp [State.vectorOp, h]

/-- A vector operation that can read its sources puts its result. -/
theorem State.vectorOp_reads {s u : State} {g : Guard} {f : Fmt} {vd : VDst} {srcs : List VSrc} {n : Nat} {op : List VBits → VBits}
    {vs : List VBits} (h : s.guardLanes g ≠ 0) (hr : s.readVs srcs = .ok (u, vs)) :
    s.vectorOp g f vd srcs n op = s.settle (u.putResult f (s.guardLanes g) vd (op vs) n) := by
  simp only [State.vectorOp, h, if_false, hr]; rfl

/-- A trap or a choice of control within a bundle is kept for its end; outside one it is taken. -/
theorem State.raise_inside {s : State} {f : Frame} (h : s.frame = some f) (t : Trap) :
    s.raise t = { s with frame := some { f with traps := f.traps ++ [(s.slot, t)] } } := by simp [State.raise, h]

theorem State.raise_outside {s : State} (h : s.frame = none) (t : Trap) :
    s.raise t = s.takeTrap s.now (BitVec.ofNat 8 (2 ^ s.slot)) t := by simp [State.raise, h]

theorem State.control_inside {s : State} {f : Frame} (h : s.frame = some f) (c : Ctl) :
    s.control c = { s with frame := some { f with ctl := some c } } := by simp [State.control, h]

theorem State.control_outside {s : State} (h : s.frame = none) (c : Ctl) : s.control c = s.applyCtl s.now c := by simp [State.control, h]

/-- Taking a trap with a handler and none being handled (R275): the record, the handler's address, and H. -/
theorem State.takeTrap_handled {s u : State} {T : Nat} {slots : BitVec 8} {t : Trap}
    (hu : (s.landDue s.c T fun p => p.ctx == s.x).reportElement t = u) (hh : u.task.handling = false) (hv : u.task.vec ≠ 0) :
    (s.takeTrap T slots t).task = { u.task with trap := t.record u.task slots, handling := true, pc := u.task.vec, stall := 0, stallOn := none } := by
  have hc : (u.task.handling || u.task.vec == 0) = false := by rw [hh, Bool.false_or]; exact beq_false_of_ne hv
  rw [State.takeTrap, hu, if_neg (by rw [hc]; decide)]
  exact (congrArg (Core.task · u.x) (State.coreAt_setCoreAt_same u u.c _)).trans (Core.task_setTask_same _ _ _)

/-- What a scalar write leaves. -/
theorem putScalar_spec (s : State) (sd : SReg) (v : Word) :
    (s.putScalar sd v).task.scalar sd = afterWrite sd v (s.task.scalar sd) ∧ OnlyScalar s (s.putScalar sd v) sd := by
  refine ⟨?_, onlyTask_setTask _ _, ?_, fun q hq => ?_⟩
  · simp only [State.putScalar, State.task_setTask, Task.scalar_setScalar, if_true]
    cases sd <;> rfl
  · simp only [State.putScalar, State.task_setTask]; exact Task.setScalar_eq _ _ _
  · simp [State.putScalar, Task.scalar_setScalar, hq]

/-- A scalar operation under a true guard writes its destination and nothing else. -/
theorem writesScalar_of {i : Instr} {s : State} {g : Guard} {sd : SReg} {v : Word} (h : s.guard g = true)
    (hi : exec i s = s.scalarOp g sd v) : WritesScalar i s sd v :=
  ⟨s.putScalar sd v, by simp [hi, State.scalarOp, State.guarded_true h], putScalar_spec s sd v⟩

/-- What a predicate write leaves. -/
theorem putPred_spec (s : State) (pd : BitVec 4) (v : Lanes) :
    (∀ n, n < 256 → ((s.putPred pd v).task.pred pd).getLsbD n = (decide (pd = 0) || v.getLsbD n)) ∧
      OnlyPred s (s.putPred pd v) pd := by
  refine ⟨fun n hn => ?_, onlyTask_setTask _ _, ?_, fun q hq => ?_⟩
  · simp only [State.putPred, State.task_setTask, Task.pred_setPred, if_true]
    by_cases h : pd = 0
    · rw [if_pos h]; simp only [BitVec.getLsbD_allOnes]; simp [h, hn]
    · have h' : ¬ pd = 0#4 := h
      rw [if_neg h]; simp [h']
  · simp only [State.putPred, State.task_setTask]; exact Task.setPred_eq _ _ _
  · simp [State.putPred, Task.pred_setPred, hq]

/-- A predicate operation under a true guard writes its destination and nothing else. -/
theorem writesPred_of {i : Instr} {s : State} {g : Guard} {pd : BitVec 4} {v : Lanes} {lane : Nat → Bool}
    (h : s.guard g = true) (hi : exec i s = s.guarded g fun s => .ok (s.putPred pd v))
    (hl : ∀ n, n < 256 → v.getLsbD n = lane n) : WritesPred i s pd lane := by
  refine ⟨s.putPred pd v, by simp [hi, State.guarded_true h], fun n hn => ?_, (putPred_spec s pd v).2⟩
  rw [(putPred_spec s pd v).1 n hn, hl n hn]

end Sys2Proof.Machine
end

