-- ==== Sys2Proof/Laws/Words.lean ====
section
/-! SUPPORT. Operand codes and word layouts: reading what was written, field by field and word by word. -/

namespace Sys2Proof

open Machine

@[simp] theorem SReg.dec_enc {r : SReg} (h : scalarOk r = true) : SReg.dec r.enc = r := by
  cases r with
  | s n => revert n; decide
  | a n => revert n; decide
  | i n => revert n; decide

@[simp] theorem SReg.dec_enc_dst {r : SReg} (h : scalarDst r = true) : SReg.dec r.enc = r :=
  SReg.dec_enc (by cases r <;> simp_all [scalarDst, scalarOk])

theorem SReg.enc_dec {w : BitVec 7} (h : scalarOk (SReg.dec w) = true) : (SReg.dec w).enc = w := by
  revert w; decide

theorem SReg.enc_dec_dst {w : BitVec 7} (h : scalarDst (SReg.dec w) = true) : (SReg.dec w).enc = w := by
  revert w; decide

@[simp] theorem VSrc.dec_enc {v : VSrc} (h : vectorOk v = true) : VSrc.dec v.enc = v := by
  cases v with
  | v n =>
    simp only [vectorOk, decide_eq_true_eq] at h
    simp [VSrc.enc, VSrc.dec, h]
  | t n => revert n; decide
  | k n j adv => revert n j adv; decide

@[simp] theorem VDst.dec_enc {v : VDst} (h : vectorDstOk v = true) : VDst.dec v.enc = v := by
  cases v with
  | v n =>
    simp only [vectorDstOk, decide_eq_true_eq] at h
    simp [VDst.enc, VDst.dec, h]
  | k n => revert n; decide
  | none => decide

theorem VSrc.enc_dec {w : BitVec 11} (h : vectorOk (VSrc.dec w) = true) : (VSrc.dec w).enc = w := by
  revert w; decide +kernel

theorem VDst.enc_dec {w : BitVec 11} (h : vectorDstOk (VDst.dec w) = true) : (VDst.dec w).enc = w := by
  revert w; decide +kernel

@[simp] theorem Fmt.dec_enc (f : Fmt) : Fmt.dec f.enc = f := by cases f <;> rfl
@[simp] theorem Fmt.codeOk_enc (f : Fmt) : Fmt.codeOk f.enc = true := by cases f <;> rfl
theorem Fmt.enc_dec {w : BitVec 4} (h : Fmt.codeOk w = true) : (Fmt.dec w).enc = w := by revert w; decide
@[simp] theorem MFmt.dec_enc (f : MFmt) : MFmt.dec f.enc = f := by cases f <;> rfl
@[simp] theorem MFmt.codeOk_enc (f : MFmt) : MFmt.codeOk f.enc = true := by cases f <;> rfl
theorem MFmt.enc_dec {w : BitVec 4} (h : MFmt.codeOk w = true) : (MFmt.dec w).enc = w := by revert w; decide
@[simp] theorem RM.dec_enc (f : RM) : RM.dec f.enc = f := by cases f <;> rfl
@[simp] theorem RM.codeOk_enc (f : RM) : RM.codeOk f.enc = true := by cases f <;> rfl
theorem RM.enc_dec {w : BitVec 3} (h : RM.codeOk w = true) : (RM.dec w).enc = w := by revert w; decide
@[simp] theorem AtomOp.dec_enc (f : AtomOp) : AtomOp.dec f.enc = f := by cases f <;> rfl
@[simp] theorem AtomOp.codeOk_enc (f : AtomOp) : AtomOp.codeOk f.enc = true := by cases f <;> rfl
theorem AtomOp.enc_dec {w : BitVec 3} (h : AtomOp.codeOk w = true) : (AtomOp.dec w).enc = w := by revert w; decide
@[simp] theorem RWidth.dec_enc (f : RWidth) : RWidth.dec f.enc = f := by cases f <;> rfl

/-- A field or a bit of a joined word lies in its high or in its low part. -/
@[simp] theorem fld_hi {a b : Nat} (x : BitVec a) (y : BitVec b) (lo n : Nat) (h : b ≤ lo) :
    fld (n := no_index (a + b)) (no_index (x ++ y)) lo n = fld x (lo - b) n := by
  apply BitVec.eq_of_getLsbD_eq
  intro i hi
  simp only [fld, BitVec.getLsbD_extractLsb', BitVec.getLsbD_append, hi, decide_true, Bool.true_and]
  rw [if_neg (by omega)]
  congr 1; omega

@[simp] theorem fld_lo {a b : Nat} (x : BitVec a) (y : BitVec b) (lo n : Nat) (h : lo + n ≤ b) :
    fld (n := no_index (a + b)) (no_index (x ++ y)) lo n = fld y lo n := by
  apply BitVec.eq_of_getLsbD_eq
  intro i hi
  simp only [fld, BitVec.getLsbD_extractLsb', BitVec.getLsbD_append, hi, decide_true, Bool.true_and]
  rw [if_pos (by omega)]

@[simp] theorem bit_hi {a b : Nat} (x : BitVec a) (y : BitVec b) (i : Nat) (h : b ≤ i) :
    bit (n := no_index (a + b)) (no_index (x ++ y)) i = bit x (i - b) := by
  simp only [bit, BitVec.getLsbD_append]; rw [if_neg (by omega)]

@[simp] theorem bit_lo {a b : Nat} (x : BitVec a) (y : BitVec b) (i : Nat) (h : i < b) :
    bit (n := no_index (a + b)) (no_index (x ++ y)) i = bit y i := by
  simp only [bit, BitVec.getLsbD_append]; rw [if_pos (by omega)]

@[simp] theorem bit_ofBool (b : Bool) : bit (ofBool b) 0 = b := by cases b <;> rfl

@[simp] theorem fld_zero (n lo len : Nat) : fld 0#n lo len = 0#len := by simp [fld]

/-- Two adjacent fields of a word. -/
@[simp] theorem fld_append_fld {n : Nat} (w : BitVec n) (hi a lo b : Nat) (h : hi = lo + b) :
    fld w hi a ++ fld w lo b = fld w lo (a + b) := by
  subst h
  apply BitVec.eq_of_getLsbD_eq
  intro i hi
  simp only [fld, BitVec.getLsbD_append, BitVec.getLsbD_extractLsb']
  split
  · rename_i h; simp [h, hi]
  · have h1 : i - b < a := by omega
    have h2 : lo + b + (i - b) = lo + i := by omega
    simp [h1, h2, hi]

@[simp] theorem fld_all {n : Nat} (x : BitVec n) : fld x 0 n = x := by
  apply BitVec.eq_of_getLsbD_eq; intro i hi; simp [fld, hi]

@[simp] theorem Guard.ofBits_bits (g : Guard) : Guard.ofBits g.bits = g := by
  cases g with | mk p n => revert p n; decide

@[simp] theorem Guard.bits_ofBits (w : BitVec 5) : (Guard.ofBits w).bits = w := by revert w; decide

/-- The three forms of a P word. -/
@[simp] theorem PLogic.logic_word (x : PLogic) : x.word.logic = x := by simp [PLogic.word, PWord.logic, fld_lo, fld_hi, fld_all]

@[simp] theorem PXld.xld_word (x : PXld) : x.word.xld = x := by simp [PXld.word, PWord.xld, fld_lo, fld_hi, fld_all]

@[simp] theorem PQfmt.qfmt_word (x : PQfmt) : x.word.qfmt = x := by simp [PQfmt.word, PWord.qfmt, fld_lo, fld_hi, fld_all]

@[simp] theorem fld_split2 (x : BitVec 14) : fld x 7 7 ++ fld x 0 7 = x := by
  rw [fld_append_fld x 7 7 0 7 rfl]; exact fld_all x

@[simp] theorem fld_split9 (x : BitVec 9) : fld x 8 1 ++ fld x 0 8 = x := by
  rw [fld_append_fld x 8 1 0 8 rfl]; exact fld_all x

@[simp] theorem fld_split3 (x : BitVec 29) : fld x 14 15 ++ fld x 7 7 ++ fld x 0 7 = x := by
  rw [fld_append_fld x 14 15 7 7 rfl, fld_append_fld x 7 (15 + 7) 0 7 rfl]; exact fld_all x

@[simp] theorem CWord.unpack_pack (w : CWord) : CWord.unpack w.pack = w := by
  cases w with | mk g op sa sb imm =>
  simp only [CWord.unpack, CWord.pack, CWord.mk.injEq]
  refine ⟨Eq.trans (congrArg Guard.ofBits ?_) (Guard.ofBits_bits g), ?_, ?_, ?_, ?_⟩
  all_goals
    apply BitVec.eq_of_getLsbD_eq; intro i hi
    rw [fld, BitVec.getLsbD_extractLsb']
    change (_ && BitVec.getLsbD (w := 22 + 7 + 7 + 7 + 5) _ _) = _
    simp (disch := omega) only [BitVec.getLsbD_append, hi, decide_true, Bool.true_and, if_pos, if_neg]
    congr 1; try omega

@[simp] theorem CWord.pack_unpack (w : BitVec 48) : (CWord.unpack w).pack = w := by
  simp only [CWord.unpack, CWord.pack, Guard.bits_ofBits, fld_append_fld]
  exact fld_all w

@[simp] theorem SWord.unpack_pack (w : SWord) : SWord.unpack w.pack = w := by
  cases w with | mk g op sd sa sb imm =>
  simp only [SWord.unpack, SWord.pack, SWord.mk.injEq]
  refine ⟨Eq.trans (congrArg Guard.ofBits ?_) (Guard.ofBits_bits g), ?_, ?_, ?_, ?_, ?_⟩
  all_goals
    apply BitVec.eq_of_getLsbD_eq; intro i hi
    rw [fld, BitVec.getLsbD_extractLsb']
    change (_ && BitVec.getLsbD (w := 15 + 7 + 7 + 7 + 7 + 5) _ _) = _
    simp (disch := omega) only [BitVec.getLsbD_append, hi, decide_true, Bool.true_and, if_pos, if_neg]
    congr 1; try omega

@[simp] theorem SWord.pack_unpack (w : BitVec 48) : (SWord.unpack w).pack = w := by
  simp only [SWord.unpack, SWord.pack, Guard.bits_ofBits, fld_append_fld]
  exact fld_all w

@[simp] theorem PWord.unpack_pack (w : PWord) : PWord.unpack w.pack = w := by
  cases w with | mk g op rest =>
  simp only [PWord.unpack, PWord.pack, PWord.mk.injEq]
  refine ⟨Eq.trans (congrArg Guard.ofBits ?_) (Guard.ofBits_bits g), ?_, ?_⟩
  all_goals
    apply BitVec.eq_of_getLsbD_eq; intro i hi
    rw [fld, BitVec.getLsbD_extractLsb']
    change (_ && BitVec.getLsbD (w := 20 + 7 + 5) _ _) = _
    simp (disch := omega) only [BitVec.getLsbD_append, hi, decide_true, Bool.true_and, if_pos, if_neg]
    congr 1; try omega

@[simp] theorem PWord.pack_unpack (w : BitVec 32) : (PWord.unpack w).pack = w := by
  simp only [PWord.unpack, PWord.pack, Guard.bits_ofBits, fld_append_fld]
  exact fld_all w

@[simp] theorem VWord.unpack_pack (w : VWord) : VWord.unpack w.pack = w := by
  cases w with | mk g op vd va vb vc fmt rm rsv =>
  simp only [VWord.unpack, VWord.pack, VWord.mk.injEq]
  refine ⟨Eq.trans (congrArg Guard.ofBits ?_) (Guard.ofBits_bits g), ?_, ?_, ?_, ?_, ?_, ?_, ?_, ?_⟩
  all_goals
    apply BitVec.eq_of_getLsbD_eq; intro i hi
    rw [fld, BitVec.getLsbD_extractLsb']
    change (_ && BitVec.getLsbD (w := 1 + 3 + 4 + 11 + 11 + 11 + 11 + 7 + 5) _ _) = _
    simp (disch := omega) only [BitVec.getLsbD_append, hi, decide_true, Bool.true_and, if_pos, if_neg]
    congr 1; try omega

@[simp] theorem VWord.pack_unpack (w : BitVec 64) : (VWord.unpack w).pack = w := by
  simp only [VWord.unpack, VWord.pack, Guard.bits_ofBits, fld_append_fld]
  exact fld_all w

@[simp] theorem MWord.unpack_pack (w : MWord) : MWord.unpack w.pack = w := by
  cases w with | mk g op vs acc ax axe row rx fmt xa xb mode =>
  simp only [MWord.unpack, MWord.pack, MWord.mk.injEq]
  refine ⟨Eq.trans (congrArg Guard.ofBits ?_) (Guard.ofBits_bits g), ?_, ?_, ?_, ?_, ?_, ?_, ?_, ?_, ?_, ?_, ?_⟩
  all_goals
    apply BitVec.eq_of_getLsbD_eq; intro i hi
    rw [fld, BitVec.getLsbD_extractLsb']
    change (_ && BitVec.getLsbD (w := 4 + 4 + 4 + 4 + 1 + 6 + 1 + 5 + 12 + 11 + 7 + 5) _ _) = _
    simp (disch := omega) only [BitVec.getLsbD_append, hi, decide_true, Bool.true_and, if_pos, if_neg]
    congr 1; try omega

@[simp] theorem MWord.pack_unpack (w : BitVec 64) : (MWord.unpack w).pack = w := by
  simp only [MWord.unpack, MWord.pack, Guard.bits_ofBits, fld_append_fld]
  exact fld_all w

@[simp] theorem LWord.unpack_pack (w : LWord) : LWord.unpack w.pack = w := by
  cases w with | mk g op vd ab off sa w fmt rsv =>
  simp only [LWord.unpack, LWord.pack, LWord.mk.injEq]
  refine ⟨Eq.trans (congrArg Guard.ofBits ?_) (Guard.ofBits_bits g), ?_, ?_, ?_, ?_, ?_, ?_, ?_, ?_⟩
  all_goals
    apply BitVec.eq_of_getLsbD_eq; intro i hi
    rw [fld, BitVec.getLsbD_extractLsb']
    change (_ && BitVec.getLsbD (w := 2 + 4 + 3 + 7 + 20 + 5 + 11 + 7 + 5) _ _) = _
    simp (disch := omega) only [BitVec.getLsbD_append, hi, decide_true, Bool.true_and, if_pos, if_neg]
    congr 1; try omega

@[simp] theorem LWord.pack_unpack (w : BitVec 64) : (LWord.unpack w).pack = w := by
  simp only [LWord.unpack, LWord.pack, Guard.bits_ofBits, fld_append_fld]
  exact fld_all w

@[simp] theorem EWord.unpack_pack (w : EWord) : EWord.unpack w.pack = w := by
  cases w with | mk g op ch ab sa imm =>
  simp only [EWord.unpack, EWord.pack, EWord.mk.injEq]
  refine ⟨Eq.trans (congrArg Guard.ofBits ?_) (Guard.ofBits_bits g), ?_, ?_, ?_, ?_, ?_⟩
  all_goals
    apply BitVec.eq_of_getLsbD_eq; intro i hi
    rw [fld, BitVec.getLsbD_extractLsb']
    change (_ && BitVec.getLsbD (w := 36 + 7 + 5 + 4 + 7 + 5) _ _) = _
    simp (disch := omega) only [BitVec.getLsbD_append, hi, decide_true, Bool.true_and, if_pos, if_neg]
    congr 1; try omega

@[simp] theorem EWord.pack_unpack (w : BitVec 64) : (EWord.unpack w).pack = w := by
  simp only [EWord.unpack, EWord.pack, Guard.bits_ofBits, fld_append_fld]
  exact fld_all w

end Sys2Proof
end

