-- ==== Sys2Proof/Laws/PerInstr.lean ====
section
/-! SUPPORT. Per instruction: a well-formed instruction is what its word decodes to. -/

namespace Sys2Proof.Laws

set_option linter.unusedSimpArgs false
set_option linter.unusedVariables false
set_option Elab.async false

open Machine

/-- A well-formed instruction that has a word is the instruction that the word decodes to. -/
def RoundTrip.Statement (i : Instr) : Prop := i.wf = true → ∀ x, encode i = some x → x.instr? = some i

theorem instr_of {x : SlotWord} {u v : Bool} {i j : Instr} (hd : x.decode = chk u v j) (hj : j = i) (hu : u = true)
    (hv : v = true) (hw : i.wf = true) : x.instr? = some i := by
  subst hj; simp [SlotWord.instr?, hd, chk, hu, hv, hw]

theorem RoundTrip.cNop (g : Guard) : RoundTrip.Statement (.cNop g) := by
  intro hw x hx; cases hx
  have h := hw
  simp [Instr.wf, limits] at h
  refine instr_of rfl ?_ ?_ ?_ hw
  · simp [zero, h]
  · simp [zero, h]
  · simp [zero, h]

theorem RoundTrip.br (g : Guard) (disp : BitVec 22) : RoundTrip.Statement (.br g disp) := by
  intro hw x hx; cases hx
  have h := hw
  simp [Instr.wf, limits] at h
  refine instr_of rfl ?_ ?_ ?_ hw
  · simp [zero, h]
  · simp [zero, h]
  · simp [zero, h]

theorem RoundTrip.brl (g : Guard) (disp : BitVec 22) : RoundTrip.Statement (.brl g disp) := by
  intro hw x hx; cases hx
  have h := hw
  simp [Instr.wf, limits] at h
  refine instr_of rfl ?_ ?_ ?_ hw
  · simp [zero, h]
  · simp [zero, h]
  · simp [zero, h]

theorem RoundTrip.jmp (g : Guard) (sa : SReg) (disp : BitVec 22) : RoundTrip.Statement (.jmp g sa disp) := by
  intro hw x hx; cases hx
  have h := hw
  simp [Instr.wf, limits] at h
  refine instr_of rfl ?_ ?_ ?_ hw
  · simp [zero, h]
  · simp [zero, h]
  · simp [zero, h]

theorem RoundTrip.jmpl (g : Guard) (sa : SReg) (disp : BitVec 22) : RoundTrip.Statement (.jmpl g sa disp) := by
  intro hw x hx; cases hx
  have h := hw
  simp [Instr.wf, limits] at h
  refine instr_of rfl ?_ ?_ ?_ hw
  · simp [zero, h]
  · simp [zero, h]
  · simp [zero, h]

theorem RoundTrip.ret (g : Guard) : RoundTrip.Statement (.ret g) := by
  intro hw x hx; cases hx
  have h := hw
  simp [Instr.wf, limits] at h
  refine instr_of rfl ?_ ?_ ?_ hw
  · simp [zero, h]
  · simp [zero, h]
  · simp [zero, h]

theorem RoundTrip.loop (g : Guard) (sa : SReg) (imm : BitVec 22) : RoundTrip.Statement (.loop g sa imm) := by
  intro hw x hx; cases hx
  have h := hw
  simp [Instr.wf, limits] at h
  refine instr_of rfl ?_ ?_ ?_ hw
  · simp [zero, h]
  · simp [zero, h]
  · simp [zero, h]

theorem RoundTrip.loopi (g : Guard) (count : BitVec 14) (imm : BitVec 22) : RoundTrip.Statement (.loopi g count imm) := by
  intro hw x hx; cases hx
  have h := hw
  simp [Instr.wf, limits] at h
  refine instr_of rfl ?_ ?_ ?_ hw
  · simp [zero, h]
  · simp [zero, h]
  · simp [zero, h]

theorem RoundTrip.loopP (g : Guard) (sa : SReg) (stages : BitVec 4) (imm : BitVec 22) : RoundTrip.Statement (.loopP g sa stages imm) := by
  intro hw x hx; cases hx
  have h := hw
  simp [Instr.wf, limits] at h
  refine instr_of rfl ?_ ?_ ?_ hw
  · simp [zero, h]
  · simp [zero, h]
  · simp [zero, h]

theorem RoundTrip.lbrk (g : Guard) : RoundTrip.Statement (.lbrk g) := by
  intro hw x hx; cases hx
  have h := hw
  simp [Instr.wf, limits] at h
  refine instr_of rfl ?_ ?_ ?_ hw
  · simp [zero, h]
  · simp [zero, h]
  · simp [zero, h]

theorem RoundTrip.lcont (g : Guard) : RoundTrip.Statement (.lcont g) := by
  intro hw x hx; cases hx
  have h := hw
  simp [Instr.wf, limits] at h
  refine instr_of rfl ?_ ?_ ?_ hw
  · simp [zero, h]
  · simp [zero, h]
  · simp [zero, h]

theorem RoundTrip.ldelta (g : Guard) (r : BitVec 5) (d : BitVec 3) (sa : SReg) : RoundTrip.Statement (.ldelta g r d sa) := by
  intro hw x hx; cases hx
  have h := hw
  simp [Instr.wf, limits] at h
  refine instr_of rfl ?_ ?_ ?_ hw
  · simp [zero, h]
  · simp [zero, h]
  · simp [zero, h]

theorem RoundTrip.sync (g : Guard) (mask : BitVec 4) (land : Bool) : RoundTrip.Statement (.sync g mask land) := by
  intro hw x hx; cases hx
  have h := hw
  simp [Instr.wf, limits] at h
  refine instr_of rfl ?_ ?_ ?_ hw
  · simp [zero, h]
  · simp [zero, h]
  · simp [zero, h]

theorem RoundTrip.safe (g : Guard) (map : BitVec 22) : RoundTrip.Statement (.safe g map) := by
  intro hw x hx; cases hx
  have h := hw
  simp [Instr.wf, limits] at h
  refine instr_of rfl ?_ ?_ ?_ hw
  · simp [zero, h]
  · simp [zero, h]
  · simp [zero, h]

theorem RoundTrip.waitx (g : Guard) (ch : BitVec 3) (sa : SReg) : RoundTrip.Statement (.waitx g ch sa) := by
  intro hw x hx; cases hx
  have h := hw
  simp [Instr.wf, limits] at h
  refine instr_of rfl ?_ ?_ ?_ hw
  · simp [zero, h]
  · simp [zero, h]
  · simp [zero, h]

theorem RoundTrip.parkYield (g : Guard) : RoundTrip.Statement (.parkYield g) := by
  intro hw x hx; cases hx
  have h := hw
  simp [Instr.wf, limits] at h
  refine instr_of rfl ?_ ?_ ?_ hw
  · simp [zero, h]
  · simp [zero, h]
  · simp [zero, h]

theorem RoundTrip.parkTime (g : Guard) (sa : SReg) : RoundTrip.Statement (.parkTime g sa) := by
  intro hw x hx; cases hx
  have h := hw
  simp [Instr.wf, limits] at h
  refine instr_of rfl ?_ ?_ ?_ hw
  · simp [zero, h]
  · simp [zero, h]
  · simp [zero, h]; decide

theorem RoundTrip.parkWord (g : Guard) (sa sb : SReg) : RoundTrip.Statement (.parkWord g sa sb) := by
  intro hw x hx; cases hx
  have h := hw
  simp [Instr.wf, limits] at h
  refine instr_of rfl ?_ ?_ ?_ hw
  · simp [zero, h]
  · simp [zero, h]
  · simp [zero, h]; decide

theorem RoundTrip.parkQueue (g : Guard) (k : BitVec 4) : RoundTrip.Statement (.parkQueue g k) := by
  intro hw x hx; cases hx
  have h : ∀ k : BitVec 4, fld (n := 22) (0#14 ++ k ++ 3#4) 0 4 = 3#4 := by decide
  simp only [SlotWord.instr?, SlotWord.decode, decodeC]
  simp [chk, zero, h, hw]

theorem RoundTrip.tspawn (g : Guard) (ctx : BitVec 4) (prio : BitVec 2) (sa sb : SReg) : RoundTrip.Statement (.tspawn g ctx prio sa sb) := by
  intro hw x hx; cases hx
  have h := hw
  simp [Instr.wf, limits] at h
  refine instr_of rfl ?_ ?_ ?_ hw
  · simp [zero, h]
  · simp [zero, h]
  · simp [zero, h]

theorem RoundTrip.texit (g : Guard) : RoundTrip.Statement (.texit g) := by
  intro hw x hx; cases hx
  have h := hw
  simp [Instr.wf, limits] at h
  refine instr_of rfl ?_ ?_ ?_ hw
  · simp [zero, h]
  · simp [zero, h]
  · simp [zero, h]

theorem RoundTrip.halt (g : Guard) (code : BitVec 16) : RoundTrip.Statement (.halt g code) := by
  intro hw x hx; cases hx
  have h := hw
  simp [Instr.wf, limits] at h
  refine instr_of rfl ?_ ?_ ?_ hw
  · simp [zero, h]
  · simp [zero, h]
  · simp [zero, h]

theorem RoundTrip.barq (g : Guard) (b : BitVec 4) (sa : SReg) : RoundTrip.Statement (.barq g b sa) := by
  intro hw x hx; cases hx
  have h := hw
  simp [Instr.wf, limits] at h
  refine instr_of rfl ?_ ?_ ?_ hw
  · simp [zero, h]
  · simp [zero, h]
  · simp [zero, h]

theorem RoundTrip.bard (g : Guard) (b : BitVec 4) (sa : SReg) : RoundTrip.Statement (.bard g b sa) := by
  intro hw x hx; cases hx
  have h := hw
  simp [Instr.wf, limits] at h
  refine instr_of rfl ?_ ?_ ?_ hw
  · simp [zero, h]
  · simp [zero, h]
  · simp [zero, h]

theorem RoundTrip.bara (g : Guard) (b : BitVec 4) (die : Bool) : RoundTrip.Statement (.bara g b die) := by
  intro hw x hx; cases hx
  have h := hw
  simp [Instr.wf, limits] at h
  refine instr_of rfl ?_ ?_ ?_ hw
  · simp [zero, h]
  · simp [zero, h]
  · simp [zero, h]

theorem RoundTrip.barw (g : Guard) (b : BitVec 4) (die : Bool) : RoundTrip.Statement (.barw g b die) := by
  intro hw x hx; cases hx
  have h := hw
  simp [Instr.wf, limits] at h
  refine instr_of rfl ?_ ?_ ?_ hw
  · simp [zero, h]
  · simp [zero, h]
  · simp [zero, h]

theorem RoundTrip.pgwait (g : Guard) (sa : SReg) : RoundTrip.Statement (.pgwait g sa) := by
  intro hw x hx; cases hx
  have h := hw
  simp [Instr.wf, limits] at h
  refine instr_of rfl ?_ ?_ ?_ hw
  · simp [zero, h]
  · simp [zero, h]
  · simp [zero, h]

theorem RoundTrip.trap (g : Guard) (n : BitVec 22) : RoundTrip.Statement (.trap g n) := by
  intro hw x hx; cases hx
  have h := hw
  simp [Instr.wf, limits] at h
  refine instr_of rfl ?_ ?_ ?_ hw
  · simp [zero, h]
  · simp [zero, h]
  · simp [zero, h]

theorem RoundTrip.eret (g : Guard) : RoundTrip.Statement (.eret g) := by
  intro hw x hx; cases hx
  have h := hw
  simp [Instr.wf, limits] at h
  refine instr_of rfl ?_ ?_ ?_ hw
  · simp [zero, h]
  · simp [zero, h]
  · simp [zero, h]

theorem RoundTrip.mfs (g : Guard) (sd : SReg) (num : BitVec 12) : RoundTrip.Statement (.mfs g sd num) := by
  intro hw x hx; cases hx
  have h := hw
  simp [Instr.wf, limits] at h
  refine instr_of rfl ?_ ?_ ?_ hw
  · simp [zero, h]
  · simp [zero, h]
  · simp [zero, h]

theorem RoundTrip.mts (g : Guard) (num : BitVec 12) (sa : SReg) : RoundTrip.Statement (.mts g num sa) := by
  intro hw x hx; cases hx
  have h := hw
  simp [Instr.wf, limits] at h
  refine instr_of rfl ?_ ?_ ?_ hw
  · simp [zero, h]
  · simp [zero, h]
  · simp [zero, h]

theorem RoundTrip.geninc (g : Guard) (sd sp : SReg) : RoundTrip.Statement (.geninc g sd sp) := by
  intro hw x hx; cases hx
  have h := hw
  simp [Instr.wf, limits] at h
  refine instr_of rfl ?_ ?_ ?_ hw
  · simp [zero, h]
  · simp [zero, h]
  · simp [zero, h]

theorem RoundTrip.genrd (g : Guard) (sd sp : SReg) : RoundTrip.Statement (.genrd g sd sp) := by
  intro hw x hx; cases hx
  have h := hw
  simp [Instr.wf, limits] at h
  refine instr_of rfl ?_ ?_ ?_ hw
  · simp [zero, h]
  · simp [zero, h]
  · simp [zero, h]

theorem RoundTrip.sweep (g : Guard) (sa : SReg) (start : Bool) (rate : BitVec 4) : RoundTrip.Statement (.sweep g sa start rate) := by
  intro hw x hx; cases hx
  have h := hw
  simp [Instr.wf, limits] at h
  refine instr_of rfl ?_ ?_ ?_ hw
  · simp [zero, h]
  · simp [zero, h]
  · simp [zero, h]

theorem RoundTrip.ckpt (g : Guard) (sp : SReg) : RoundTrip.Statement (.ckpt g sp) := by
  intro hw x hx; cases hx
  have h := hw
  simp [Instr.wf, limits] at h
  refine instr_of rfl ?_ ?_ ?_ hw
  · simp [zero, h]
  · simp [zero, h]
  · simp [zero, h]

theorem RoundTrip.sNop (g : Guard) : RoundTrip.Statement (.sNop g) := by
  intro hw x hx; cases hx
  have h := hw
  simp [Instr.wf, limits] at h
  refine instr_of rfl ?_ ?_ ?_ hw
  · simp [zero, h]
  · simp [zero, h]
  · simp [zero, h]

theorem RoundTrip.add (g : Guard) (sd sa sb : SReg) : RoundTrip.Statement (.add g sd sa sb) := by
  intro hw x hx; cases hx
  have h := hw
  simp [Instr.wf, limits] at h
  refine instr_of rfl ?_ ?_ ?_ hw
  · simp [zero, h]
  · simp [zero, h]
  · simp [zero, h]

theorem RoundTrip.sub (g : Guard) (sd sa sb : SReg) : RoundTrip.Statement (.sub g sd sa sb) := by
  intro hw x hx; cases hx
  have h := hw
  simp [Instr.wf, limits] at h
  refine instr_of rfl ?_ ?_ ?_ hw
  · simp [zero, h]
  · simp [zero, h]
  · simp [zero, h]

theorem RoundTrip.mul (g : Guard) (sd sa sb : SReg) : RoundTrip.Statement (.mul g sd sa sb) := by
  intro hw x hx; cases hx
  have h := hw
  simp [Instr.wf, limits] at h
  refine instr_of rfl ?_ ?_ ?_ hw
  · simp [zero, h]
  · simp [zero, h]
  · simp [zero, h]

theorem RoundTrip.mulhu (g : Guard) (sd sa sb : SReg) : RoundTrip.Statement (.mulhu g sd sa sb) := by
  intro hw x hx; cases hx
  have h := hw
  simp [Instr.wf, limits] at h
  refine instr_of rfl ?_ ?_ ?_ hw
  · simp [zero, h]
  · simp [zero, h]
  · simp [zero, h]

theorem RoundTrip.mulhs (g : Guard) (sd sa sb : SReg) : RoundTrip.Statement (.mulhs g sd sa sb) := by
  intro hw x hx; cases hx
  have h := hw
  simp [Instr.wf, limits] at h
  refine instr_of rfl ?_ ?_ ?_ hw
  · simp [zero, h]
  · simp [zero, h]
  · simp [zero, h]

theorem RoundTrip.divu (g : Guard) (sd sa sb : SReg) : RoundTrip.Statement (.divu g sd sa sb) := by
  intro hw x hx; cases hx
  have h := hw
  simp [Instr.wf, limits] at h
  refine instr_of rfl ?_ ?_ ?_ hw
  · simp [zero, h]
  · simp [zero, h]
  · simp [zero, h]

theorem RoundTrip.divs (g : Guard) (sd sa sb : SReg) : RoundTrip.Statement (.divs g sd sa sb) := by
  intro hw x hx; cases hx
  have h := hw
  simp [Instr.wf, limits] at h
  refine instr_of rfl ?_ ?_ ?_ hw
  · simp [zero, h]
  · simp [zero, h]
  · simp [zero, h]

theorem RoundTrip.remu (g : Guard) (sd sa sb : SReg) : RoundTrip.Statement (.remu g sd sa sb) := by
  intro hw x hx; cases hx
  have h := hw
  simp [Instr.wf, limits] at h
  refine instr_of rfl ?_ ?_ ?_ hw
  · simp [zero, h]
  · simp [zero, h]
  · simp [zero, h]

theorem RoundTrip.rems (g : Guard) (sd sa sb : SReg) : RoundTrip.Statement (.rems g sd sa sb) := by
  intro hw x hx; cases hx
  have h := hw
  simp [Instr.wf, limits] at h
  refine instr_of rfl ?_ ?_ ?_ hw
  · simp [zero, h]
  · simp [zero, h]
  · simp [zero, h]

theorem RoundTrip.and (g : Guard) (sd sa sb : SReg) : RoundTrip.Statement (.and g sd sa sb) := by
  intro hw x hx; cases hx
  have h := hw
  simp [Instr.wf, limits] at h
  refine instr_of rfl ?_ ?_ ?_ hw
  · simp [zero, h]
  · simp [zero, h]
  · simp [zero, h]

theorem RoundTrip.or (g : Guard) (sd sa sb : SReg) : RoundTrip.Statement (.or g sd sa sb) := by
  intro hw x hx; cases hx
  have h := hw
  simp [Instr.wf, limits] at h
  refine instr_of rfl ?_ ?_ ?_ hw
  · simp [zero, h]
  · simp [zero, h]
  · simp [zero, h]

theorem RoundTrip.xor (g : Guard) (sd sa sb : SReg) : RoundTrip.Statement (.xor g sd sa sb) := by
  intro hw x hx; cases hx
  have h := hw
  simp [Instr.wf, limits] at h
  refine instr_of rfl ?_ ?_ ?_ hw
  · simp [zero, h]
  · simp [zero, h]
  · simp [zero, h]

theorem RoundTrip.andn (g : Guard) (sd sa sb : SReg) : RoundTrip.Statement (.andn g sd sa sb) := by
  intro hw x hx; cases hx
  have h := hw
  simp [Instr.wf, limits] at h
  refine instr_of rfl ?_ ?_ ?_ hw
  · simp [zero, h]
  · simp [zero, h]
  · simp [zero, h]

theorem RoundTrip.shl (g : Guard) (sd sa sb : SReg) : RoundTrip.Statement (.shl g sd sa sb) := by
  intro hw x hx; cases hx
  have h := hw
  simp [Instr.wf, limits] at h
  refine instr_of rfl ?_ ?_ ?_ hw
  · simp [zero, h]
  · simp [zero, h]
  · simp [zero, h]

theorem RoundTrip.shr (g : Guard) (sd sa sb : SReg) : RoundTrip.Statement (.shr g sd sa sb) := by
  intro hw x hx; cases hx
  have h := hw
  simp [Instr.wf, limits] at h
  refine instr_of rfl ?_ ?_ ?_ hw
  · simp [zero, h]
  · simp [zero, h]
  · simp [zero, h]

theorem RoundTrip.sra (g : Guard) (sd sa sb : SReg) : RoundTrip.Statement (.sra g sd sa sb) := by
  intro hw x hx; cases hx
  have h := hw
  simp [Instr.wf, limits] at h
  refine instr_of rfl ?_ ?_ ?_ hw
  · simp [zero, h]
  · simp [zero, h]
  · simp [zero, h]

theorem RoundTrip.rol (g : Guard) (sd sa sb : SReg) : RoundTrip.Statement (.rol g sd sa sb) := by
  intro hw x hx; cases hx
  have h := hw
  simp [Instr.wf, limits] at h
  refine instr_of rfl ?_ ?_ ?_ hw
  · simp [zero, h]
  · simp [zero, h]
  · simp [zero, h]

theorem RoundTrip.min (g : Guard) (sd sa sb : SReg) : RoundTrip.Statement (.min g sd sa sb) := by
  intro hw x hx; cases hx
  have h := hw
  simp [Instr.wf, limits] at h
  refine instr_of rfl ?_ ?_ ?_ hw
  · simp [zero, h]
  · simp [zero, h]
  · simp [zero, h]

theorem RoundTrip.max (g : Guard) (sd sa sb : SReg) : RoundTrip.Statement (.max g sd sa sb) := by
  intro hw x hx; cases hx
  have h := hw
  simp [Instr.wf, limits] at h
  refine instr_of rfl ?_ ?_ ?_ hw
  · simp [zero, h]
  · simp [zero, h]
  · simp [zero, h]

theorem RoundTrip.minu (g : Guard) (sd sa sb : SReg) : RoundTrip.Statement (.minu g sd sa sb) := by
  intro hw x hx; cases hx
  have h := hw
  simp [Instr.wf, limits] at h
  refine instr_of rfl ?_ ?_ ?_ hw
  · simp [zero, h]
  · simp [zero, h]
  · simp [zero, h]

theorem RoundTrip.maxu (g : Guard) (sd sa sb : SReg) : RoundTrip.Statement (.maxu g sd sa sb) := by
  intro hw x hx; cases hx
  have h := hw
  simp [Instr.wf, limits] at h
  refine instr_of rfl ?_ ?_ ?_ hw
  · simp [zero, h]
  · simp [zero, h]
  · simp [zero, h]

theorem RoundTrip.clz (g : Guard) (sd sa : SReg) : RoundTrip.Statement (.clz g sd sa) := by
  intro hw x hx; cases hx
  have h := hw
  simp [Instr.wf, limits] at h
  refine instr_of rfl ?_ ?_ ?_ hw
  · simp [zero, h]
  · simp [zero, h]
  · simp [zero, h]

theorem RoundTrip.ctz (g : Guard) (sd sa : SReg) : RoundTrip.Statement (.ctz g sd sa) := by
  intro hw x hx; cases hx
  have h := hw
  simp [Instr.wf, limits] at h
  refine instr_of rfl ?_ ?_ ?_ hw
  · simp [zero, h]
  · simp [zero, h]
  · simp [zero, h]

theorem RoundTrip.popc (g : Guard) (sd sa : SReg) : RoundTrip.Statement (.popc g sd sa) := by
  intro hw x hx; cases hx
  have h := hw
  simp [Instr.wf, limits] at h
  refine instr_of rfl ?_ ?_ ?_ hw
  · simp [zero, h]
  · simp [zero, h]
  · simp [zero, h]

theorem RoundTrip.sext (g : Guard) (sd sa : SReg) (w : BitVec 7) : RoundTrip.Statement (.sext g sd sa w) := by
  intro hw x hx; cases hx
  have h := hw
  simp [Instr.wf, limits] at h
  refine instr_of rfl ?_ ?_ ?_ hw
  · simp [zero, h]
  · simp [zero, h]
  · simp [zero, h]

theorem RoundTrip.zext (g : Guard) (sd sa : SReg) (w : BitVec 7) : RoundTrip.Statement (.zext g sd sa w) := by
  intro hw x hx; cases hx
  have h := hw
  simp [Instr.wf, limits] at h
  refine instr_of rfl ?_ ?_ ?_ hw
  · simp [zero, h]
  · simp [zero, h]
  · simp [zero, h]

theorem RoundTrip.mov (g : Guard) (sd sa : SReg) : RoundTrip.Statement (.mov g sd sa) := by
  intro hw x hx; cases hx
  have h := hw
  simp [Instr.wf, limits] at h
  refine instr_of rfl ?_ ?_ ?_ hw
  · simp [zero, h]
  · simp [zero, h]
  · simp [zero, h]

theorem RoundTrip.addx (g : Guard) (sd sa sb : SReg) (sh : BitVec 3) : RoundTrip.Statement (.addx g sd sa sb sh) := by
  intro hw x hx; cases hx
  have h := hw
  simp [Instr.wf, limits] at h
  refine instr_of rfl ?_ ?_ ?_ hw
  · simp [zero, h]
  · simp [zero, h]
  · simp [zero, h]

theorem RoundTrip.addi (g : Guard) (sd sa : SReg) (imm : BitVec 15) : RoundTrip.Statement (.addi g sd sa imm) := by
  intro hw x hx; cases hx
  have h := hw
  simp [Instr.wf, limits] at h
  refine instr_of rfl ?_ ?_ ?_ hw
  · simp [zero, h]
  · simp [zero, h]
  · simp [zero, h]

theorem RoundTrip.andi (g : Guard) (sd sa : SReg) (imm : BitVec 15) : RoundTrip.Statement (.andi g sd sa imm) := by
  intro hw x hx; cases hx
  have h := hw
  simp [Instr.wf, limits] at h
  refine instr_of rfl ?_ ?_ ?_ hw
  · simp [zero, h]
  · simp [zero, h]
  · simp [zero, h]

theorem RoundTrip.ori (g : Guard) (sd sa : SReg) (imm : BitVec 15) : RoundTrip.Statement (.ori g sd sa imm) := by
  intro hw x hx; cases hx
  have h := hw
  simp [Instr.wf, limits] at h
  refine instr_of rfl ?_ ?_ ?_ hw
  · simp [zero, h]
  · simp [zero, h]
  · simp [zero, h]

theorem RoundTrip.xori (g : Guard) (sd sa : SReg) (imm : BitVec 15) : RoundTrip.Statement (.xori g sd sa imm) := by
  intro hw x hx; cases hx
  have h := hw
  simp [Instr.wf, limits] at h
  refine instr_of rfl ?_ ?_ ?_ hw
  · simp [zero, h]
  · simp [zero, h]
  · simp [zero, h]

theorem RoundTrip.shli (g : Guard) (sd sa : SReg) (sh : BitVec 6) : RoundTrip.Statement (.shli g sd sa sh) := by
  intro hw x hx; cases hx
  have h := hw
  simp [Instr.wf, limits] at h
  refine instr_of rfl ?_ ?_ ?_ hw
  · simp [zero, h]
  · simp [zero, h]
  · simp [zero, h]

theorem RoundTrip.shri (g : Guard) (sd sa : SReg) (sh : BitVec 6) : RoundTrip.Statement (.shri g sd sa sh) := by
  intro hw x hx; cases hx
  have h := hw
  simp [Instr.wf, limits] at h
  refine instr_of rfl ?_ ?_ ?_ hw
  · simp [zero, h]
  · simp [zero, h]
  · simp [zero, h]

theorem RoundTrip.srai (g : Guard) (sd sa : SReg) (sh : BitVec 6) : RoundTrip.Statement (.srai g sd sa sh) := by
  intro hw x hx; cases hx
  have h := hw
  simp [Instr.wf, limits] at h
  refine instr_of rfl ?_ ?_ ?_ hw
  · simp [zero, h]
  · simp [zero, h]
  · simp [zero, h]

theorem RoundTrip.li (g : Guard) (sd : SReg) (imm : BitVec 29) : RoundTrip.Statement (.li g sd imm) := by
  intro hw x hx; cases hx
  have h := hw
  simp [Instr.wf, limits] at h
  refine instr_of rfl ?_ ?_ ?_ hw
  · simp [zero, h]
  · simp [zero, h]
  · simp [zero, h]

theorem RoundTrip.lih (g : Guard) (sd : SReg) (imm : BitVec 29) : RoundTrip.Statement (.lih g sd imm) := by
  intro hw x hx; cases hx
  have h := hw
  simp [Instr.wf, limits] at h
  refine instr_of rfl ?_ ?_ ?_ hw
  · simp [zero, h]
  · simp [zero, h]
  · simp [zero, h]

theorem RoundTrip.ceq (g : Guard) (pd : BitVec 4) (sa sb : SReg) : RoundTrip.Statement (.ceq g pd sa sb) := by
  intro hw x hx; cases hx
  have h := hw
  simp [Instr.wf, limits] at h
  refine instr_of rfl ?_ ?_ ?_ hw
  · simp [zero, h]
  · simp [zero, h]
  · simp [zero, h]

theorem RoundTrip.cne (g : Guard) (pd : BitVec 4) (sa sb : SReg) : RoundTrip.Statement (.cne g pd sa sb) := by
  intro hw x hx; cases hx
  have h := hw
  simp [Instr.wf, limits] at h
  refine instr_of rfl ?_ ?_ ?_ hw
  · simp [zero, h]
  · simp [zero, h]
  · simp [zero, h]

theorem RoundTrip.clt (g : Guard) (pd : BitVec 4) (sa sb : SReg) : RoundTrip.Statement (.clt g pd sa sb) := by
  intro hw x hx; cases hx
  have h := hw
  simp [Instr.wf, limits] at h
  refine instr_of rfl ?_ ?_ ?_ hw
  · simp [zero, h]
  · simp [zero, h]
  · simp [zero, h]

theorem RoundTrip.cle (g : Guard) (pd : BitVec 4) (sa sb : SReg) : RoundTrip.Statement (.cle g pd sa sb) := by
  intro hw x hx; cases hx
  have h := hw
  simp [Instr.wf, limits] at h
  refine instr_of rfl ?_ ?_ ?_ hw
  · simp [zero, h]
  · simp [zero, h]
  · simp [zero, h]

theorem RoundTrip.cltu (g : Guard) (pd : BitVec 4) (sa sb : SReg) : RoundTrip.Statement (.cltu g pd sa sb) := by
  intro hw x hx; cases hx
  have h := hw
  simp [Instr.wf, limits] at h
  refine instr_of rfl ?_ ?_ ?_ hw
  · simp [zero, h]
  · simp [zero, h]
  · simp [zero, h]

theorem RoundTrip.cleu (g : Guard) (pd : BitVec 4) (sa sb : SReg) : RoundTrip.Statement (.cleu g pd sa sb) := by
  intro hw x hx; cases hx
  have h := hw
  simp [Instr.wf, limits] at h
  refine instr_of rfl ?_ ?_ ?_ hw
  · simp [zero, h]
  · simp [zero, h]
  · simp [zero, h]

theorem RoundTrip.ceqi (g : Guard) (pd : BitVec 4) (sa : SReg) (imm : BitVec 15) : RoundTrip.Statement (.ceqi g pd sa imm) := by
  intro hw x hx; cases hx
  have h := hw
  simp [Instr.wf, limits] at h
  refine instr_of rfl ?_ ?_ ?_ hw
  · simp [zero, h]
  · simp [zero, h]
  · simp [zero, h]

theorem RoundTrip.clti (g : Guard) (pd : BitVec 4) (sa : SReg) (imm : BitVec 15) : RoundTrip.Statement (.clti g pd sa imm) := by
  intro hw x hx; cases hx
  have h := hw
  simp [Instr.wf, limits] at h
  refine instr_of rfl ?_ ?_ ?_ hw
  · simp [zero, h]
  · simp [zero, h]
  · simp [zero, h]

theorem RoundTrip.cltui (g : Guard) (pd : BitVec 4) (sa : SReg) (imm : BitVec 15) : RoundTrip.Statement (.cltui g pd sa imm) := by
  intro hw x hx; cases hx
  have h := hw
  simp [Instr.wf, limits] at h
  refine instr_of rfl ?_ ?_ ?_ hw
  · simp [zero, h]
  · simp [zero, h]
  · simp [zero, h]

theorem RoundTrip.sel (g : Guard) (sd sa sb : SReg) (pn : BitVec 4) : RoundTrip.Statement (.sel g sd sa sb pn) := by
  intro hw x hx; cases hx
  have h := hw
  simp [Instr.wf, limits] at h
  refine instr_of rfl ?_ ?_ ?_ hw
  · simp [zero, h]
  · simp [zero, h]
  · simp [zero, h]

theorem RoundTrip.fadd (g : Guard) (sd sa sb : SReg) : RoundTrip.Statement (.fadd g sd sa sb) := by
  intro hw x hx; cases hx
  have h := hw
  simp [Instr.wf, limits] at h
  refine instr_of rfl ?_ ?_ ?_ hw
  · simp [zero, h]
  · simp [zero, h]
  · simp [zero, h]

theorem RoundTrip.fmul (g : Guard) (sd sa sb : SReg) : RoundTrip.Statement (.fmul g sd sa sb) := by
  intro hw x hx; cases hx
  have h := hw
  simp [Instr.wf, limits] at h
  refine instr_of rfl ?_ ?_ ?_ hw
  · simp [zero, h]
  · simp [zero, h]
  · simp [zero, h]

theorem RoundTrip.fmin (g : Guard) (sd sa sb : SReg) : RoundTrip.Statement (.fmin g sd sa sb) := by
  intro hw x hx; cases hx
  have h := hw
  simp [Instr.wf, limits] at h
  refine instr_of rfl ?_ ?_ ?_ hw
  · simp [zero, h]
  · simp [zero, h]
  · simp [zero, h]

theorem RoundTrip.fmax (g : Guard) (sd sa sb : SReg) : RoundTrip.Statement (.fmax g sd sa sb) := by
  intro hw x hx; cases hx
  have h := hw
  simp [Instr.wf, limits] at h
  refine instr_of rfl ?_ ?_ ?_ hw
  · simp [zero, h]
  · simp [zero, h]
  · simp [zero, h]

theorem RoundTrip.ftoi (g : Guard) (sd sa : SReg) : RoundTrip.Statement (.ftoi g sd sa) := by
  intro hw x hx; cases hx
  have h := hw
  simp [Instr.wf, limits] at h
  refine instr_of rfl ?_ ?_ ?_ hw
  · simp [zero, h]
  · simp [zero, h]
  · simp [zero, h]

theorem RoundTrip.itof (g : Guard) (sd sa : SReg) : RoundTrip.Statement (.itof g sd sa) := by
  intro hw x hx; cases hx
  have h := hw
  simp [Instr.wf, limits] at h
  refine instr_of rfl ?_ ?_ ?_ hw
  · simp [zero, h]
  · simp [zero, h]
  · simp [zero, h]

theorem RoundTrip.pNop (g : Guard) : RoundTrip.Statement (.pNop g) := by
  intro hw x hx; cases hx
  have h := hw
  simp [Instr.wf, limits] at h
  refine instr_of rfl ?_ ?_ ?_ hw
  · simp [zero, h]
  · simp [zero, h]
  · simp [zero, h]

theorem RoundTrip.pand (g : Guard) (pd pa pb : BitVec 4) : RoundTrip.Statement (.pand g pd pa pb) := by
  intro hw x hx; cases hx
  have h := hw
  simp [Instr.wf, limits] at h
  refine instr_of rfl ?_ ?_ ?_ hw
  · simp [zero, h]
  · simp [zero, h]
  · simp [zero, h]

theorem RoundTrip.por (g : Guard) (pd pa pb : BitVec 4) : RoundTrip.Statement (.por g pd pa pb) := by
  intro hw x hx; cases hx
  have h := hw
  simp [Instr.wf, limits] at h
  refine instr_of rfl ?_ ?_ ?_ hw
  · simp [zero, h]
  · simp [zero, h]
  · simp [zero, h]

theorem RoundTrip.pxor (g : Guard) (pd pa pb : BitVec 4) : RoundTrip.Statement (.pxor g pd pa pb) := by
  intro hw x hx; cases hx
  have h := hw
  simp [Instr.wf, limits] at h
  refine instr_of rfl ?_ ?_ ?_ hw
  · simp [zero, h]
  · simp [zero, h]
  · simp [zero, h]

theorem RoundTrip.pandn (g : Guard) (pd pa pb : BitVec 4) : RoundTrip.Statement (.pandn g pd pa pb) := by
  intro hw x hx; cases hx
  have h := hw
  simp [Instr.wf, limits] at h
  refine instr_of rfl ?_ ?_ ?_ hw
  · simp [zero, h]
  · simp [zero, h]
  · simp [zero, h]

theorem RoundTrip.pnot (g : Guard) (pd pa : BitVec 4) : RoundTrip.Statement (.pnot g pd pa) := by
  intro hw x hx; cases hx
  have h := hw
  simp [Instr.wf, limits] at h
  refine instr_of rfl ?_ ?_ ?_ hw
  · simp [zero, h]
  · simp [zero, h]
  · simp [zero, h]

theorem RoundTrip.pseti (g : Guard) (pd : BitVec 4) (n : BitVec 8) : RoundTrip.Statement (.pseti g pd n) := by
  intro hw x hx; cases hx
  have h := hw
  simp [Instr.wf, limits] at h
  refine instr_of rfl ?_ ?_ ?_ hw
  · simp [zero, h]
  · simp [zero, h]
  · simp [zero, h]

theorem RoundTrip.planes (g : Guard) (pd pa : BitVec 4) (n : BitVec 9) : RoundTrip.Statement (.planes g pd pa n) := by
  intro hw x hx; cases hx
  have h := hw
  simp [Instr.wf, limits] at h
  refine instr_of rfl ?_ ?_ ?_ hw
  · simp [zero, h]
  · simp [zero, h]
  · simp [zero, h]

theorem RoundTrip.pbcst (g : Guard) (pd pa : BitVec 4) (n : BitVec 8) : RoundTrip.Statement (.pbcst g pd pa n) := by
  intro hw x hx; cases hx
  have h := hw
  simp [Instr.wf, limits] at h
  refine instr_of rfl ?_ ?_ ?_ hw
  · simp [zero, h]
  · simp [zero, h]
  · simp [zero, h]

theorem RoundTrip.pany (g : Guard) (pd pa : BitVec 4) : RoundTrip.Statement (.pany g pd pa) := by
  intro hw x hx; cases hx
  have h := hw
  simp [Instr.wf, limits] at h
  refine instr_of rfl ?_ ?_ ?_ hw
  · simp [zero, h]
  · simp [zero, h]
  · simp [zero, h]

theorem RoundTrip.pall (g : Guard) (pd pa : BitVec 4) : RoundTrip.Statement (.pall g pd pa) := by
  intro hw x hx; cases hx
  have h := hw
  simp [Instr.wf, limits] at h
  refine instr_of rfl ?_ ?_ ?_ hw
  · simp [zero, h]
  · simp [zero, h]
  · simp [zero, h]

theorem RoundTrip.prot (g : Guard) (pd pa : BitVec 4) (n : BitVec 8) : RoundTrip.Statement (.prot g pd pa n) := by
  intro hw x hx; cases hx
  have h := hw
  simp [Instr.wf, limits] at h
  refine instr_of rfl ?_ ?_ ?_ hw
  · simp [zero, h]
  · simp [zero, h]
  · simp [zero, h]

theorem RoundTrip.xld (g : Guard) (xd : BitVec 4) (ab : BitVec 5) (off : BitVec 11) : RoundTrip.Statement (.xld g xd ab off) := by
  intro hw x hx; cases hx
  have h := hw
  simp [Instr.wf, limits] at h
  refine instr_of rfl ?_ ?_ ?_ hw
  · simp [zero, h]
  · simp [zero, h]
  · simp [zero, h]

theorem RoundTrip.xset (g : Guard) (xd : BitVec 4) (n : BitVec 8) : RoundTrip.Statement (.xset g xd n) := by
  intro hw x hx; cases hx
  have h := hw
  simp [Instr.wf, limits] at h
  refine instr_of rfl ?_ ?_ ?_ hw
  · simp [zero, h]
  · simp [zero, h]
  · simp [zero, h]

theorem RoundTrip.xmov (g : Guard) (xd xa : BitVec 4) : RoundTrip.Statement (.xmov g xd xa) := by
  intro hw x hx; cases hx
  have h := hw
  simp [Instr.wf, limits] at h
  refine instr_of rfl ?_ ?_ ?_ hw
  · simp [zero, h]
  · simp [zero, h]
  · simp [zero, h]

theorem RoundTrip.qfmt (g : Guard) (k : BitVec 4) (fs fk : Fmt) (rm : RM) (sat : Bool) : RoundTrip.Statement (.qfmt g k fs fk rm sat) := by
  intro hw x hx; cases hx
  have h := hw
  simp [Instr.wf, limits] at h
  refine instr_of rfl ?_ ?_ ?_ hw
  · simp [zero, h]
  · simp [zero, h]
  · simp [zero, h]

theorem RoundTrip.vNop (g : Guard) : RoundTrip.Statement (.vNop g) := by
  intro hw x hx; cases hx
  have h := hw
  simp [Instr.wf, limits] at h
  refine instr_of rfl ?_ ?_ ?_ hw
  · simp [zero, h]
  · simp [zero, h]
  · simp [zero, h]

theorem RoundTrip.vadd (g : Guard) (f : Fmt) (rm : RM) (vd : VDst) (va vb : VSrc) : RoundTrip.Statement (.vadd g f rm vd va vb) := by
  intro hw x hx; cases hx
  have h := hw
  simp [Instr.wf, limits] at h
  refine instr_of rfl ?_ ?_ ?_ hw
  · simp [zero, h]
  · simp [zero, h]
  · simp [zero, h]

theorem RoundTrip.vsub (g : Guard) (f : Fmt) (rm : RM) (vd : VDst) (va vb : VSrc) : RoundTrip.Statement (.vsub g f rm vd va vb) := by
  intro hw x hx; cases hx
  have h := hw
  simp [Instr.wf, limits] at h
  refine instr_of rfl ?_ ?_ ?_ hw
  · simp [zero, h]
  · simp [zero, h]
  · simp [zero, h]

theorem RoundTrip.vmul (g : Guard) (f : Fmt) (rm : RM) (vd : VDst) (va vb : VSrc) : RoundTrip.Statement (.vmul g f rm vd va vb) := by
  intro hw x hx; cases hx
  have h := hw
  simp [Instr.wf, limits] at h
  refine instr_of rfl ?_ ?_ ?_ hw
  · simp [zero, h]
  · simp [zero, h]
  · simp [zero, h]

theorem RoundTrip.vfma (g : Guard) (f : Fmt) (rm : RM) (vd : VDst) (va vb vc : VSrc) : RoundTrip.Statement (.vfma g f rm vd va vb vc) := by
  intro hw x hx; cases hx
  have h := hw
  simp [Instr.wf, limits] at h
  refine instr_of rfl ?_ ?_ ?_ hw
  · simp [zero, h]
  · simp [zero, h]
  · simp [zero, h]

theorem RoundTrip.vfms (g : Guard) (f : Fmt) (rm : RM) (vd : VDst) (va vb vc : VSrc) : RoundTrip.Statement (.vfms g f rm vd va vb vc) := by
  intro hw x hx; cases hx
  have h := hw
  simp [Instr.wf, limits] at h
  refine instr_of rfl ?_ ?_ ?_ hw
  · simp [zero, h]
  · simp [zero, h]
  · simp [zero, h]

theorem RoundTrip.vfnma (g : Guard) (f : Fmt) (rm : RM) (vd : VDst) (va vb vc : VSrc) : RoundTrip.Statement (.vfnma g f rm vd va vb vc) := by
  intro hw x hx; cases hx
  have h := hw
  simp [Instr.wf, limits] at h
  refine instr_of rfl ?_ ?_ ?_ hw
  · simp [zero, h]
  · simp [zero, h]
  · simp [zero, h]

theorem RoundTrip.vmin (g : Guard) (f : Fmt) (rm : RM) (vd : VDst) (va vb : VSrc) : RoundTrip.Statement (.vmin g f rm vd va vb) := by
  intro hw x hx; cases hx
  have h := hw
  simp [Instr.wf, limits] at h
  refine instr_of rfl ?_ ?_ ?_ hw
  · simp [zero, h]
  · simp [zero, h]
  · simp [zero, h]

theorem RoundTrip.vmax (g : Guard) (f : Fmt) (rm : RM) (vd : VDst) (va vb : VSrc) : RoundTrip.Statement (.vmax g f rm vd va vb) := by
  intro hw x hx; cases hx
  have h := hw
  simp [Instr.wf, limits] at h
  refine instr_of rfl ?_ ?_ ?_ hw
  · simp [zero, h]
  · simp [zero, h]
  · simp [zero, h]

theorem RoundTrip.vabs (g : Guard) (f : Fmt) (rm : RM) (vd : VDst) (va : VSrc) : RoundTrip.Statement (.vabs g f rm vd va) := by
  intro hw x hx; cases hx
  have h := hw
  simp [Instr.wf, limits] at h
  refine instr_of rfl ?_ ?_ ?_ hw
  · simp [zero, h]
  · simp [zero, h]
  · simp [zero, h]

theorem RoundTrip.vneg (g : Guard) (f : Fmt) (rm : RM) (vd : VDst) (va : VSrc) : RoundTrip.Statement (.vneg g f rm vd va) := by
  intro hw x hx; cases hx
  have h := hw
  simp [Instr.wf, limits] at h
  refine instr_of rfl ?_ ?_ ?_ hw
  · simp [zero, h]
  · simp [zero, h]
  · simp [zero, h]

theorem RoundTrip.vrcp (g : Guard) (f : Fmt) (rm : RM) (vd : VDst) (va : VSrc) : RoundTrip.Statement (.vrcp g f rm vd va) := by
  intro hw x hx; cases hx
  have h := hw
  simp [Instr.wf, limits] at h
  refine instr_of rfl ?_ ?_ ?_ hw
  · simp [zero, h]
  · simp [zero, h]
  · simp [zero, h]

theorem RoundTrip.vrsq (g : Guard) (f : Fmt) (rm : RM) (vd : VDst) (va : VSrc) : RoundTrip.Statement (.vrsq g f rm vd va) := by
  intro hw x hx; cases hx
  have h := hw
  simp [Instr.wf, limits] at h
  refine instr_of rfl ?_ ?_ ?_ hw
  · simp [zero, h]
  · simp [zero, h]
  · simp [zero, h]

theorem RoundTrip.vsqrt (g : Guard) (f : Fmt) (rm : RM) (vd : VDst) (va : VSrc) : RoundTrip.Statement (.vsqrt g f rm vd va) := by
  intro hw x hx; cases hx
  have h := hw
  simp [Instr.wf, limits] at h
  refine instr_of rfl ?_ ?_ ?_ hw
  · simp [zero, h]
  · simp [zero, h]
  · simp [zero, h]

theorem RoundTrip.vexp2 (g : Guard) (f : Fmt) (rm : RM) (vd : VDst) (va : VSrc) : RoundTrip.Statement (.vexp2 g f rm vd va) := by
  intro hw x hx; cases hx
  have h := hw
  simp [Instr.wf, limits] at h
  refine instr_of rfl ?_ ?_ ?_ hw
  · simp [zero, h]
  · simp [zero, h]
  · simp [zero, h]

theorem RoundTrip.vlog2 (g : Guard) (f : Fmt) (rm : RM) (vd : VDst) (va : VSrc) : RoundTrip.Statement (.vlog2 g f rm vd va) := by
  intro hw x hx; cases hx
  have h := hw
  simp [Instr.wf, limits] at h
  refine instr_of rfl ?_ ?_ ?_ hw
  · simp [zero, h]
  · simp [zero, h]
  · simp [zero, h]

theorem RoundTrip.vcmpeq (g : Guard) (f : Fmt) (rm : RM) (pd : BitVec 4) (va vb : VSrc) : RoundTrip.Statement (.vcmpeq g f rm pd va vb) := by
  intro hw x hx; cases hx
  have h := hw
  simp [Instr.wf, limits] at h
  refine instr_of rfl ?_ ?_ ?_ hw
  · simp [zero, h]
  · simp [zero, h]
  · simp [zero, h]

theorem RoundTrip.vcmplt (g : Guard) (f : Fmt) (rm : RM) (pd : BitVec 4) (va vb : VSrc) : RoundTrip.Statement (.vcmplt g f rm pd va vb) := by
  intro hw x hx; cases hx
  have h := hw
  simp [Instr.wf, limits] at h
  refine instr_of rfl ?_ ?_ ?_ hw
  · simp [zero, h]
  · simp [zero, h]
  · simp [zero, h]

theorem RoundTrip.vcmple (g : Guard) (f : Fmt) (rm : RM) (pd : BitVec 4) (va vb : VSrc) : RoundTrip.Statement (.vcmple g f rm pd va vb) := by
  intro hw x hx; cases hx
  have h := hw
  simp [Instr.wf, limits] at h
  refine instr_of rfl ?_ ?_ ?_ hw
  · simp [zero, h]
  · simp [zero, h]
  · simp [zero, h]

theorem RoundTrip.vcmpne (g : Guard) (f : Fmt) (rm : RM) (pd : BitVec 4) (va vb : VSrc) : RoundTrip.Statement (.vcmpne g f rm pd va vb) := by
  intro hw x hx; cases hx
  have h := hw
  simp [Instr.wf, limits] at h
  refine instr_of rfl ?_ ?_ ?_ hw
  · simp [zero, h]
  · simp [zero, h]
  · simp [zero, h]

theorem RoundTrip.vclass (g : Guard) (f : Fmt) (rm : RM) (pd : BitVec 4) (va : VSrc) (mask : BitVec 9) : RoundTrip.Statement (.vclass g f rm pd va mask) := by
  intro hw x hx; cases hx
  have h := hw
  simp [Instr.wf, limits] at h
  refine instr_of rfl ?_ ?_ ?_ hw
  · simp [zero, h]
  · simp [zero, h]
  · simp [zero, h]

theorem RoundTrip.vsel (g : Guard) (f : Fmt) (rm : RM) (vd : VDst) (va vb : VSrc) (pc : BitVec 4) : RoundTrip.Statement (.vsel g f rm vd va vb pc) := by
  intro hw x hx; cases hx
  have h := hw
  simp [Instr.wf, limits] at h
  refine instr_of rfl ?_ ?_ ?_ hw
  · simp [zero, h]
  · simp [zero, h]
  · simp [zero, h]

theorem RoundTrip.vcvt (g : Guard) (fd : Fmt) (rm : RM) (vd : VDst) (va : VSrc) (fs : Fmt) (sat : Bool) (part : BitVec 4) : RoundTrip.Statement (.vcvt g fd rm vd va fs sat part) := by
  intro hw x hx; cases hx
  have h := hw
  simp [Instr.wf, limits] at h
  refine instr_of rfl ?_ ?_ ?_ hw
  · simp [zero, h]
  · simp [zero, h]
  · simp [zero, h]

theorem RoundTrip.vqnt (g : Guard) (fd : Fmt) (rm : RM) (vd : VDst) (va vc : VSrc) (fs : Fmt) (sat : Bool) (part : BitVec 4) : RoundTrip.Statement (.vqnt g fd rm vd va vc fs sat part) := by
  intro hw x hx; cases hx
  have h := hw
  simp [Instr.wf, limits] at h
  refine instr_of rfl ?_ ?_ ?_ hw
  · simp [zero, h]
  · simp [zero, h]
  · simp [zero, h]

theorem RoundTrip.vcbdec (g : Guard) (fd : Fmt) (rm : RM) (vd : VDst) (va : VSrc) (part : BitVec 4) : RoundTrip.Statement (.vcbdec g fd rm vd va part) := by
  intro hw x hx; cases hx
  have h := hw
  simp [Instr.wf, limits] at h
  refine instr_of rfl ?_ ?_ ?_ hw
  · simp [zero, h]
  · simp [zero, h]
  · simp [zero, h]

theorem RoundTrip.vround (g : Guard) (f : Fmt) (rm : RM) (vd : VDst) (va : VSrc) : RoundTrip.Statement (.vround g f rm vd va) := by
  intro hw x hx; cases hx
  have h := hw
  simp [Instr.wf, limits] at h
  refine instr_of rfl ?_ ?_ ?_ hw
  · simp [zero, h]
  · simp [zero, h]
  · simp [zero, h]

theorem RoundTrip.viadd (g : Guard) (f : Fmt) (rm : RM) (vd : VDst) (va vb : VSrc) : RoundTrip.Statement (.viadd g f rm vd va vb) := by
  intro hw x hx; cases hx
  have h := hw
  simp [Instr.wf, limits] at h
  refine instr_of rfl ?_ ?_ ?_ hw
  · simp [zero, h]
  · simp [zero, h]
  · simp [zero, h]

theorem RoundTrip.visub (g : Guard) (f : Fmt) (rm : RM) (vd : VDst) (va vb : VSrc) : RoundTrip.Statement (.visub g f rm vd va vb) := by
  intro hw x hx; cases hx
  have h := hw
  simp [Instr.wf, limits] at h
  refine instr_of rfl ?_ ?_ ?_ hw
  · simp [zero, h]
  · simp [zero, h]
  · simp [zero, h]

theorem RoundTrip.vimul (g : Guard) (f : Fmt) (rm : RM) (vd : VDst) (va vb : VSrc) : RoundTrip.Statement (.vimul g f rm vd va vb) := by
  intro hw x hx; cases hx
  have h := hw
  simp [Instr.wf, limits] at h
  refine instr_of rfl ?_ ?_ ?_ hw
  · simp [zero, h]
  · simp [zero, h]
  · simp [zero, h]

theorem RoundTrip.vimin (g : Guard) (f : Fmt) (rm : RM) (vd : VDst) (va vb : VSrc) : RoundTrip.Statement (.vimin g f rm vd va vb) := by
  intro hw x hx; cases hx
  have h := hw
  simp [Instr.wf, limits] at h
  refine instr_of rfl ?_ ?_ ?_ hw
  · simp [zero, h]
  · simp [zero, h]
  · simp [zero, h]

theorem RoundTrip.vimax (g : Guard) (f : Fmt) (rm : RM) (vd : VDst) (va vb : VSrc) : RoundTrip.Statement (.vimax g f rm vd va vb) := by
  intro hw x hx; cases hx
  have h := hw
  simp [Instr.wf, limits] at h
  refine instr_of rfl ?_ ?_ ?_ hw
  · simp [zero, h]
  · simp [zero, h]
  · simp [zero, h]

theorem RoundTrip.vand (g : Guard) (f : Fmt) (rm : RM) (vd : VDst) (va vb : VSrc) : RoundTrip.Statement (.vand g f rm vd va vb) := by
  intro hw x hx; cases hx
  have h := hw
  simp [Instr.wf, limits] at h
  refine instr_of rfl ?_ ?_ ?_ hw
  · simp [zero, h]
  · simp [zero, h]
  · simp [zero, h]

theorem RoundTrip.vor (g : Guard) (f : Fmt) (rm : RM) (vd : VDst) (va vb : VSrc) : RoundTrip.Statement (.vor g f rm vd va vb) := by
  intro hw x hx; cases hx
  have h := hw
  simp [Instr.wf, limits] at h
  refine instr_of rfl ?_ ?_ ?_ hw
  · simp [zero, h]
  · simp [zero, h]
  · simp [zero, h]

theorem RoundTrip.vxor (g : Guard) (f : Fmt) (rm : RM) (vd : VDst) (va vb : VSrc) : RoundTrip.Statement (.vxor g f rm vd va vb) := by
  intro hw x hx; cases hx
  have h := hw
  simp [Instr.wf, limits] at h
  refine instr_of rfl ?_ ?_ ?_ hw
  · simp [zero, h]
  · simp [zero, h]
  · simp [zero, h]

theorem RoundTrip.vshl (g : Guard) (f : Fmt) (rm : RM) (vd : VDst) (va vb : VSrc) : RoundTrip.Statement (.vshl g f rm vd va vb) := by
  intro hw x hx; cases hx
  have h := hw
  simp [Instr.wf, limits] at h
  refine instr_of rfl ?_ ?_ ?_ hw
  · simp [zero, h]
  · simp [zero, h]
  · simp [zero, h]

theorem RoundTrip.vshr (g : Guard) (f : Fmt) (rm : RM) (vd : VDst) (va vb : VSrc) : RoundTrip.Statement (.vshr g f rm vd va vb) := by
  intro hw x hx; cases hx
  have h := hw
  simp [Instr.wf, limits] at h
  refine instr_of rfl ?_ ?_ ?_ hw
  · simp [zero, h]
  · simp [zero, h]
  · simp [zero, h]

theorem RoundTrip.vsra (g : Guard) (f : Fmt) (rm : RM) (vd : VDst) (va vb : VSrc) : RoundTrip.Statement (.vsra g f rm vd va vb) := by
  intro hw x hx; cases hx
  have h := hw
  simp [Instr.wf, limits] at h
  refine instr_of rfl ?_ ?_ ?_ hw
  · simp [zero, h]
  · simp [zero, h]
  · simp [zero, h]

theorem RoundTrip.vicmpeq (g : Guard) (f : Fmt) (rm : RM) (pd : BitVec 4) (va vb : VSrc) : RoundTrip.Statement (.vicmpeq g f rm pd va vb) := by
  intro hw x hx; cases hx
  have h := hw
  simp [Instr.wf, limits] at h
  refine instr_of rfl ?_ ?_ ?_ hw
  · simp [zero, h]
  · simp [zero, h]
  · simp [zero, h]

theorem RoundTrip.vicmplt (g : Guard) (f : Fmt) (rm : RM) (pd : BitVec 4) (va vb : VSrc) : RoundTrip.Statement (.vicmplt g f rm pd va vb) := by
  intro hw x hx; cases hx
  have h := hw
  simp [Instr.wf, limits] at h
  refine instr_of rfl ?_ ?_ ?_ hw
  · simp [zero, h]
  · simp [zero, h]
  · simp [zero, h]

theorem RoundTrip.viabs (g : Guard) (f : Fmt) (rm : RM) (vd : VDst) (va : VSrc) : RoundTrip.Statement (.viabs g f rm vd va) := by
  intro hw x hx; cases hx
  have h := hw
  simp [Instr.wf, limits] at h
  refine instr_of rfl ?_ ?_ ?_ hw
  · simp [zero, h]
  · simp [zero, h]
  · simp [zero, h]

theorem RoundTrip.vpopc (g : Guard) (f : Fmt) (rm : RM) (vd : VDst) (va : VSrc) : RoundTrip.Statement (.vpopc g f rm vd va) := by
  intro hw x hx; cases hx
  have h := hw
  simp [Instr.wf, limits] at h
  refine instr_of rfl ?_ ?_ ?_ hw
  · simp [zero, h]
  · simp [zero, h]
  · simp [zero, h]

theorem RoundTrip.vmov (g : Guard) (f : Fmt) (rm : RM) (vd : VDst) (va : VSrc) : RoundTrip.Statement (.vmov g f rm vd va) := by
  intro hw x hx; cases hx
  have h := hw
  simp [Instr.wf, limits] at h
  refine instr_of rfl ?_ ?_ ?_ hw
  · simp [zero, h]
  · simp [zero, h]
  · simp [zero, h]

theorem RoundTrip.vbcst (g : Guard) (f : Fmt) (rm : RM) (vd : VDst) (va : VSrc) (n : BitVec 11) : RoundTrip.Statement (.vbcst g f rm vd va n) := by
  intro hw x hx; cases hx
  have h := hw
  simp [Instr.wf, limits] at h
  refine instr_of rfl ?_ ?_ ?_ hw
  · simp [zero, h]
  · simp [zero, h]
  · simp [zero, h]

theorem RoundTrip.vperm (g : Guard) (f : Fmt) (rm : RM) (vd : VDst) (va vb : VSrc) : RoundTrip.Statement (.vperm g f rm vd va vb) := by
  intro hw x hx; cases hx
  have h := hw
  simp [Instr.wf, limits] at h
  refine instr_of rfl ?_ ?_ ?_ hw
  · simp [zero, h]
  · simp [zero, h]
  · simp [zero, h]

theorem RoundTrip.vrotl (g : Guard) (f : Fmt) (rm : RM) (vd : VDst) (va : VSrc) (n : BitVec 11) : RoundTrip.Statement (.vrotl g f rm vd va n) := by
  intro hw x hx; cases hx
  have h := hw
  simp [Instr.wf, limits] at h
  refine instr_of rfl ?_ ?_ ?_ hw
  · simp [zero, h]
  · simp [zero, h]
  · simp [zero, h]

theorem RoundTrip.vextr (g : Guard) (f : Fmt) (rm : RM) (vd : VDst) (va vb : VSrc) (n : BitVec 11) : RoundTrip.Statement (.vextr g f rm vd va vb n) := by
  intro hw x hx; cases hx
  have h := hw
  simp [Instr.wf, limits] at h
  refine instr_of rfl ?_ ?_ ?_ hw
  · simp [zero, h]
  · simp [zero, h]
  · simp [zero, h]

theorem RoundTrip.vins (g : Guard) (f : Fmt) (rm : RM) (vd : VDst) (va vb : VSrc) (n : BitVec 11) : RoundTrip.Statement (.vins g f rm vd va vb n) := by
  intro hw x hx; cases hx
  have h := hw
  simp [Instr.wf, limits] at h
  refine instr_of rfl ?_ ?_ ?_ hw
  · simp [zero, h]
  · simp [zero, h]
  · simp [zero, h]

theorem RoundTrip.vzip (g : Guard) (f : Fmt) (rm : RM) (vd : VDst) (va vb : VSrc) (h : Bool) : RoundTrip.Statement (.vzip g f rm vd va vb h) := by
  intro hw x hx; cases hx
  have h := hw
  simp [Instr.wf, limits] at h
  refine instr_of rfl ?_ ?_ ?_ hw
  · simp [zero, h]
  · simp [zero, h]
  · simp [zero, h]

theorem RoundTrip.vunzip (g : Guard) (f : Fmt) (rm : RM) (vd : VDst) (va vb : VSrc) (o : Bool) : RoundTrip.Statement (.vunzip g f rm vd va vb o) := by
  intro hw x hx; cases hx
  have h := hw
  simp [Instr.wf, limits] at h
  refine instr_of rfl ?_ ?_ ?_ hw
  · simp [zero, h]
  · simp [zero, h]
  · simp [zero, h]

theorem RoundTrip.viota (g : Guard) (f : Fmt) (rm : RM) (vd : VDst) : RoundTrip.Statement (.viota g f rm vd) := by
  intro hw x hx; cases hx
  have h := hw
  simp [Instr.wf, limits] at h
  refine instr_of rfl ?_ ?_ ?_ hw
  · simp [zero, h]
  · simp [zero, h]
  · simp [zero, h]

theorem RoundTrip.vcompr (g : Guard) (f : Fmt) (rm : RM) (vd : VDst) (va : VSrc) (pc : BitVec 4) : RoundTrip.Statement (.vcompr g f rm vd va pc) := by
  intro hw x hx; cases hx
  have h := hw
  simp [Instr.wf, limits] at h
  refine instr_of rfl ?_ ?_ ?_ hw
  · simp [zero, h]
  · simp [zero, h]
  · simp [zero, h]

theorem RoundTrip.vexpnd (g : Guard) (f : Fmt) (rm : RM) (vd : VDst) (va : VSrc) (pc : BitVec 4) : RoundTrip.Statement (.vexpnd g f rm vd va pc) := by
  intro hw x hx; cases hx
  have h := hw
  simp [Instr.wf, limits] at h
  refine instr_of rfl ?_ ?_ ?_ hw
  · simp [zero, h]
  · simp [zero, h]
  · simp [zero, h]

theorem RoundTrip.vrsum (g : Guard) (f : Fmt) (rm : RM) (vd : VDst) (va : VSrc) (pc : BitVec 4) : RoundTrip.Statement (.vrsum g f rm vd va pc) := by
  intro hw x hx; cases hx
  have h := hw
  simp [Instr.wf, limits] at h
  refine instr_of rfl ?_ ?_ ?_ hw
  · simp [zero, h]
  · simp [zero, h]
  · simp [zero, h]

theorem RoundTrip.vrmax (g : Guard) (f : Fmt) (rm : RM) (vd : VDst) (va : VSrc) (pc : BitVec 4) : RoundTrip.Statement (.vrmax g f rm vd va pc) := by
  intro hw x hx; cases hx
  have h := hw
  simp [Instr.wf, limits] at h
  refine instr_of rfl ?_ ?_ ?_ hw
  · simp [zero, h]
  · simp [zero, h]
  · simp [zero, h]

theorem RoundTrip.vrmin (g : Guard) (f : Fmt) (rm : RM) (vd : VDst) (va : VSrc) (pc : BitVec 4) : RoundTrip.Statement (.vrmin g f rm vd va pc) := by
  intro hw x hx; cases hx
  have h := hw
  simp [Instr.wf, limits] at h
  refine instr_of rfl ?_ ?_ ?_ hw
  · simp [zero, h]
  · simp [zero, h]
  · simp [zero, h]

theorem RoundTrip.vscan (g : Guard) (f : Fmt) (rm : RM) (vd : VDst) (va : VSrc) (pc : BitVec 4) : RoundTrip.Statement (.vscan g f rm vd va pc) := by
  intro hw x hx; cases hx
  have h := hw
  simp [Instr.wf, limits] at h
  refine instr_of rfl ?_ ?_ ?_ hw
  · simp [zero, h]
  · simp [zero, h]
  · simp [zero, h]

theorem RoundTrip.vdot (g : Guard) (f : Fmt) (rm : RM) (vd : VDst) (va vb : VSrc) (pc : BitVec 4) : RoundTrip.Statement (.vdot g f rm vd va vb pc) := by
  intro hw x hx; cases hx
  have h := hw
  simp [Instr.wf, limits] at h
  refine instr_of rfl ?_ ?_ ?_ hw
  · simp [zero, h]
  · simp [zero, h]
  · simp [zero, h]

theorem RoundTrip.vargmx (g : Guard) (f : Fmt) (rm : RM) (vd : VDst) (va : VSrc) (pc : BitVec 4) : RoundTrip.Statement (.vargmx g f rm vd va pc) := by
  intro hw x hx; cases hx
  have h := hw
  simp [Instr.wf, limits] at h
  refine instr_of rfl ?_ ?_ ?_ hw
  · simp [zero, h]
  · simp [zero, h]
  · simp [zero, h]

theorem RoundTrip.mNop (g : Guard) : RoundTrip.Statement (.mNop g) := by
  intro hw x hx; cases hx
  have h := hw
  simp [Instr.wf, limits] at h
  refine instr_of rfl ?_ ?_ ?_ hw
  · simp [zero, h]
  · simp [zero, h]
  · simp [zero, h]

theorem RoundTrip.mpush (g : Guard) (f : MFmt) (vs : VSrc) (row : MRow) : RoundTrip.Statement (.mpush g f vs row) := by
  cases row
  all_goals
    intro hw x hx; cases hx
    have h := hw
    simp [Instr.wf, limits] at h
    refine instr_of rfl ?_ ?_ ?_ hw
    · simp [zero, MRow.dec, MRow.codeOk, MRow.rowBits, MRow.rxBit, h]
    · simp [zero, MRow.dec, MRow.codeOk, MRow.rowBits, MRow.rxBit, h]
    · simp [zero, MRow.dec, MRow.codeOk, MRow.rowBits, MRow.rxBit, h]

theorem RoundTrip.mpusht (g : Guard) (f : MFmt) (e : BitVec 6) (row : MRow) : RoundTrip.Statement (.mpusht g f e row) := by
  cases row
  all_goals
    intro hw x hx; cases hx
    have h := hw
    simp [Instr.wf, limits] at h
    refine instr_of rfl ?_ ?_ ?_ hw
    · simp [zero, MRow.dec, MRow.codeOk, MRow.rowBits, MRow.rxBit, h]
    · simp [zero, MRow.dec, MRow.codeOk, MRow.rowBits, MRow.rxBit, h]
    · simp [zero, MRow.dec, MRow.codeOk, MRow.rowBits, MRow.rxBit, h]

theorem RoundTrip.mshift (g : Guard) (f : MFmt) (acc : AccRef) (vs : VSrc) (row : MRow) (xa xb : BitVec 4) (ovr : Bool) : RoundTrip.Statement (.mshift g f acc vs row xa xb ovr) := by
  cases row <;> rcases acc with ⟨r, _ | _⟩ <;> by_cases hf : mfmtScaled f = true
  all_goals
    intro hw x hx; cases hx
    have h := hw
    simp [Instr.wf, limits] at h
    refine instr_of rfl ?_ ?_ ?_ hw
    · simp_all [zero, MRow.dec, MRow.codeOk, MRow.rowBits, MRow.rxBit, AccRef.dec, AccRef.codeOk, AccRef.axBits, AccRef.axeBit, scaleOf]
    · simp [zero, MRow.dec, MRow.codeOk, MRow.rowBits, MRow.rxBit, AccRef.dec, AccRef.codeOk, AccRef.axBits, AccRef.axeBit, scaleOf, h]
    · simp [zero, MRow.dec, MRow.codeOk, MRow.rowBits, MRow.rxBit, AccRef.dec, AccRef.codeOk, AccRef.axBits, AccRef.axeBit, scaleOf, h]

theorem RoundTrip.mshiftl (g : Guard) (f : MFmt) (acc : AccRef) (row : MRow) (xa xb : BitVec 4) (ovr : Bool) : RoundTrip.Statement (.mshiftl g f acc row xa xb ovr) := by
  cases row <;> rcases acc with ⟨r, _ | _⟩ <;> by_cases hf : mfmtScaled f = true
  all_goals
    intro hw x hx; cases hx
    have h := hw
    simp [Instr.wf, limits] at h
    refine instr_of rfl ?_ ?_ ?_ hw
    · simp_all [zero, MRow.dec, MRow.codeOk, MRow.rowBits, MRow.rxBit, AccRef.dec, AccRef.codeOk, AccRef.axBits, AccRef.axeBit, scaleOf]
    · simp [zero, MRow.dec, MRow.codeOk, MRow.rowBits, MRow.rxBit, AccRef.dec, AccRef.codeOk, AccRef.axBits, AccRef.axeBit, scaleOf, h]
    · simp [zero, MRow.dec, MRow.codeOk, MRow.rowBits, MRow.rxBit, AccRef.dec, AccRef.codeOk, AccRef.axBits, AccRef.axeBit, scaleOf, h]

theorem RoundTrip.mshiftt (g : Guard) (f : MFmt) (acc : AccRef) (e : BitVec 6) (row : MRow) (xa xb : BitVec 4) (ovr : Bool) : RoundTrip.Statement (.mshiftt g f acc e row xa xb ovr) := by
  cases row <;> rcases acc with ⟨r, _ | _⟩ <;> by_cases hf : mfmtScaled f = true
  all_goals
    intro hw x hx; cases hx
    have h := hw
    simp [Instr.wf, limits] at h
    refine instr_of rfl ?_ ?_ ?_ hw
    · simp_all [zero, MRow.dec, MRow.codeOk, MRow.rowBits, MRow.rxBit, AccRef.dec, AccRef.codeOk, AccRef.axBits, AccRef.axeBit, scaleOf]
    · simp [zero, MRow.dec, MRow.codeOk, MRow.rowBits, MRow.rxBit, AccRef.dec, AccRef.codeOk, AccRef.axBits, AccRef.axeBit, scaleOf, h]
    · simp [zero, MRow.dec, MRow.codeOk, MRow.rowBits, MRow.rxBit, AccRef.dec, AccRef.codeOk, AccRef.axBits, AccRef.axeBit, scaleOf, h]

theorem RoundTrip.mflip (g : Guard) : RoundTrip.Statement (.mflip g) := by
  intro hw x hx; cases hx
  have h := hw
  simp [Instr.wf, limits] at h
  refine instr_of rfl ?_ ?_ ?_ hw
  · simp [zero, h]
  · simp [zero, h]
  · simp [zero, h]

theorem RoundTrip.mdrain (g : Guard) (f : Fmt) (acc : AccRef) (vd : BitVec 11) (row : MRow) (rm : RM) (sat : Bool) : RoundTrip.Statement (.mdrain g f acc vd row rm sat) := by
  cases row <;> rcases acc with ⟨r, _ | _⟩
  all_goals
    intro hw x hx; cases hx
    have h := hw
    simp [Instr.wf, limits] at h
    refine instr_of rfl ?_ ?_ ?_ hw
    · simp [zero, MRow.dec, MRow.codeOk, MRow.rowBits, MRow.rxBit, AccRef.dec, AccRef.codeOk, AccRef.axBits, AccRef.axeBit, h]
    · simp [zero, MRow.dec, MRow.codeOk, MRow.rowBits, MRow.rxBit, AccRef.dec, AccRef.codeOk, AccRef.axBits, AccRef.axeBit, h]
    · simp [zero, MRow.dec, MRow.codeOk, MRow.rowBits, MRow.rxBit, AccRef.dec, AccRef.codeOk, AccRef.axBits, AccRef.axeBit, h]

theorem RoundTrip.mzero (g : Guard) (acc : AccRef) : RoundTrip.Statement (.mzero g acc) := by
  rcases acc with ⟨r, _ | _⟩
  all_goals
    intro hw x hx; cases hx
    have h := hw
    simp [Instr.wf, limits] at h
    refine instr_of rfl ?_ ?_ ?_ hw
    · simp [zero, AccRef.dec, AccRef.codeOk, AccRef.axBits, AccRef.axeBit, h]
    · simp [zero, AccRef.dec, AccRef.codeOk, AccRef.axBits, AccRef.axeBit, h]
    · simp [zero, AccRef.dec, AccRef.codeOk, AccRef.axBits, AccRef.axeBit, h]

theorem RoundTrip.maddv (g : Guard) (f : Fmt) (acc : AccRef) (vs : VSrc) (row : MRow) (ovr : Bool) : RoundTrip.Statement (.maddv g f acc vs row ovr) := by
  cases row <;> rcases acc with ⟨r, _ | _⟩
  all_goals
    intro hw x hx; cases hx
    have h := hw
    simp [Instr.wf, limits] at h
    refine instr_of rfl ?_ ?_ ?_ hw
    · simp [zero, MRow.dec, MRow.codeOk, MRow.rowBits, MRow.rxBit, AccRef.dec, AccRef.codeOk, AccRef.axBits, AccRef.axeBit, h]
    · simp [zero, MRow.dec, MRow.codeOk, MRow.rowBits, MRow.rxBit, AccRef.dec, AccRef.codeOk, AccRef.axBits, AccRef.axeBit, h]
    · simp [zero, MRow.dec, MRow.codeOk, MRow.rowBits, MRow.rxBit, AccRef.dec, AccRef.codeOk, AccRef.axBits, AccRef.axeBit, h]

theorem RoundTrip.mdrainz (g : Guard) (f : Fmt) (acc : AccRef) (vd : BitVec 11) (row : MRow) (rm : RM) (sat : Bool) : RoundTrip.Statement (.mdrainz g f acc vd row rm sat) := by
  cases row <;> rcases acc with ⟨r, _ | _⟩
  all_goals
    intro hw x hx; cases hx
    have h := hw
    simp [Instr.wf, limits] at h
    refine instr_of rfl ?_ ?_ ?_ hw
    · simp [zero, MRow.dec, MRow.codeOk, MRow.rowBits, MRow.rxBit, AccRef.dec, AccRef.codeOk, AccRef.axBits, AccRef.axeBit, h]
    · simp [zero, MRow.dec, MRow.codeOk, MRow.rowBits, MRow.rxBit, AccRef.dec, AccRef.codeOk, AccRef.axBits, AccRef.axeBit, h]
    · simp [zero, MRow.dec, MRow.codeOk, MRow.rowBits, MRow.rxBit, AccRef.dec, AccRef.codeOk, AccRef.axBits, AccRef.axeBit, h]

theorem RoundTrip.lNop (g : Guard) : RoundTrip.Statement (.lNop g) := by
  intro hw x hx; cases hx
  have h := hw
  simp [Instr.wf, limits] at h
  refine instr_of rfl ?_ ?_ ?_ hw
  · simp [zero, h]
  · simp [zero, h]
  · simp [zero, h]

theorem RoundTrip.lds (g : Guard) (w : BitVec 2) (sx : Bool) (sd : SReg) (ab : BitVec 5) (sa : SReg) (off : BitVec 20) : RoundTrip.Statement (.lds g w sx sd ab sa off) := by
  intro hw x hx; cases hx
  have h := hw
  simp [Instr.wf, limits] at h
  refine instr_of rfl ?_ ?_ ?_ hw
  · simp [zero, h]
  · simp [zero, h]
  · simp [zero, h]

theorem RoundTrip.sts (g : Guard) (w : BitVec 2) (sv : SReg) (ab : BitVec 5) (sa : SReg) (off : BitVec 20) : RoundTrip.Statement (.sts g w sv ab sa off) := by
  intro hw x hx; cases hx
  have h := hw
  simp [Instr.wf, limits] at h
  refine instr_of rfl ?_ ?_ ?_ hw
  · simp [zero, h]
  · simp [zero, h]
  · simp [zero, h]

theorem RoundTrip.vld (g : Guard) (len : BitVec 3) (vd : BitVec 11) (ab : BitVec 5) (sa : SReg) (off : BitVec 20) : RoundTrip.Statement (.vld g len vd ab sa off) := by
  intro hw x hx; cases hx
  have h := hw
  simp [Instr.wf, limits] at h
  refine instr_of rfl ?_ ?_ ?_ hw
  · simp [zero, h]
  · simp [zero, h]
  · simp [zero, h]

theorem RoundTrip.vst (g : Guard) (len : BitVec 3) (vd : BitVec 11) (ab : BitVec 5) (sa : SReg) (off : BitVec 20) : RoundTrip.Statement (.vst g len vd ab sa off) := by
  intro hw x hx; cases hx
  have h := hw
  simp [Instr.wf, limits] at h
  refine instr_of rfl ?_ ?_ ?_ hw
  · simp [zero, h]
  · simp [zero, h]
  · simp [zero, h]

theorem RoundTrip.vlds (g : Guard) (w : BitVec 2) (vd : BitVec 11) (ab : BitVec 5) (off : BitVec 20) (sa : SReg) : RoundTrip.Statement (.vlds g w vd ab off sa) := by
  intro hw x hx; cases hx
  have h := hw
  simp [Instr.wf, limits] at h
  refine instr_of rfl ?_ ?_ ?_ hw
  · simp [zero, h]
  · simp [zero, h]
  · simp [zero, h]

theorem RoundTrip.vsts (g : Guard) (w : BitVec 2) (vd : BitVec 11) (ab : BitVec 5) (off : BitVec 20) (sa : SReg) : RoundTrip.Statement (.vsts g w vd ab off sa) := by
  intro hw x hx; cases hx
  have h := hw
  simp [Instr.wf, limits] at h
  refine instr_of rfl ?_ ?_ ?_ hw
  · simp [zero, h]
  · simp [zero, h]
  · simp [zero, h]

theorem RoundTrip.vldx (g : Guard) (w : BitVec 2) (vd : BitVec 11) (ab : BitVec 5) (sa : SReg) (vx : BitVec 11) : RoundTrip.Statement (.vldx g w vd ab sa vx) := by
  intro hw x hx; cases hx
  have h := hw
  simp [Instr.wf, limits] at h
  refine instr_of rfl ?_ ?_ ?_ hw
  · simp [zero, h]
  · simp [zero, h]
  · simp [zero, h]

theorem RoundTrip.vstx (g : Guard) (w : BitVec 2) (vd : BitVec 11) (ab : BitVec 5) (sa : SReg) (vx : BitVec 11) : RoundTrip.Statement (.vstx g w vd ab sa vx) := by
  intro hw x hx; cases hx
  have h := hw
  simp [Instr.wf, limits] at h
  refine instr_of rfl ?_ ?_ ?_ hw
  · simp [zero, h]
  · simp [zero, h]
  · simp [zero, h]

theorem RoundTrip.gathr (g : Guard) (glob res : Bool) (vx : BitVec 11) (ab : BitVec 5) (sa : SReg) (f : BitVec 6) (cnt : BitVec 7) (pr : BitVec 4) : RoundTrip.Statement (.gathr g glob res vx ab sa f cnt pr) := by
  intro hw x hx; cases hx
  have h := hw
  simp [Instr.wf, limits] at h
  refine instr_of rfl ?_ ?_ ?_ hw
  · simp [zero, h]
  · simp [zero, h]
  · simp [zero, h]

theorem RoundTrip.atoml (g : Guard) (op : AtomOp) (f : Fmt) (sd : SReg) (ab : BitVec 5) (sa : SReg) (off : BitVec 20) : RoundTrip.Statement (.atoml g op f sd ab sa off) := by
  intro hw x hx; cases hx
  have h := hw
  simp [Instr.wf, limits] at h
  refine instr_of rfl ?_ ?_ ?_ hw
  · simp [zero, h]
  · simp [zero, h]
  · simp [zero, h]

theorem RoundTrip.ldg (g : Guard) (w : BitVec 2) (sx : Bool) (sd : SReg) (ab : BitVec 5) (sa : SReg) (off : BitVec 20) (pr : BitVec 4) : RoundTrip.Statement (.ldg g w sx sd ab sa off pr) := by
  intro hw x hx; cases hx
  have h := hw
  simp [Instr.wf, limits] at h
  refine instr_of rfl ?_ ?_ ?_ hw
  · simp [zero, h]
  · simp [zero, h]
  · simp [zero, h]

theorem RoundTrip.stg (g : Guard) (w : BitVec 2) (sv : SReg) (ab : BitVec 5) (sa : SReg) (off : BitVec 20) : RoundTrip.Statement (.stg g w sv ab sa off) := by
  intro hw x hx; cases hx
  have h := hw
  simp [Instr.wf, limits] at h
  refine instr_of rfl ?_ ?_ ?_ hw
  · simp [zero, h]
  · simp [zero, h]
  · simp [zero, h]

theorem RoundTrip.vldg (g : Guard) (len : BitVec 3) (vd : BitVec 11) (ab : BitVec 5) (sa : SReg) (off : BitVec 20) (pr : BitVec 4) : RoundTrip.Statement (.vldg g len vd ab sa off pr) := by
  intro hw x hx; cases hx
  have h := hw
  simp [Instr.wf, limits] at h
  refine instr_of rfl ?_ ?_ ?_ hw
  · simp [zero, h]
  · simp [zero, h]
  · simp [zero, h]

theorem RoundTrip.vstg (g : Guard) (len : BitVec 3) (vd : BitVec 11) (ab : BitVec 5) (sa : SReg) (off : BitVec 20) : RoundTrip.Statement (.vstg g len vd ab sa off) := by
  intro hw x hx; cases hx
  have h := hw
  simp [Instr.wf, limits] at h
  refine instr_of rfl ?_ ?_ ?_ hw
  · simp [zero, h]
  · simp [zero, h]
  · simp [zero, h]

theorem RoundTrip.atomg (g : Guard) (op : AtomOp) (f : Fmt) (sd : SReg) (ab : BitVec 5) (sa : SReg) (off : BitVec 20) : RoundTrip.Statement (.atomg g op f sd ab sa off) := by
  intro hw x hx; cases hx
  have h := hw
  simp [Instr.wf, limits] at h
  refine instr_of rfl ?_ ?_ ?_ hw
  · simp [zero, h]
  · simp [zero, h]
  · simp [zero, h]

theorem RoundTrip.watom (g : Guard) (op : AtomOp) (f : Fmt) (sd : SReg) (ab : BitVec 5) (sa : SReg) (off : BitVec 20) : RoundTrip.Statement (.watom g op f sd ab sa off) := by
  intro hw x hx; cases hx
  have h := hw
  simp [Instr.wf, limits] at h
  refine instr_of rfl ?_ ?_ ?_ hw
  · simp [zero, h]
  · simp [zero, h]
  · simp [zero, h]

theorem RoundTrip.watomr (g : Guard) (op : AtomOp) (f : Fmt) (vd : BitVec 11) (ab : BitVec 5) (sa : SReg) (off : BitVec 20) : RoundTrip.Statement (.watomr g op f vd ab sa off) := by
  intro hw x hx; cases hx
  have h := hw
  simp [Instr.wf, limits] at h
  refine instr_of rfl ?_ ?_ ?_ hw
  · simp [zero, h]
  · simp [zero, h]
  · simp [zero, h]

theorem RoundTrip.pgreq (g : Guard) (wr : Bool) (ab : BitVec 5) (sa : SReg) (off : BitVec 20) : RoundTrip.Statement (.pgreq g wr ab sa off) := by
  intro hw x hx; cases hx
  have h := hw
  simp [Instr.wf, limits] at h
  refine instr_of rfl ?_ ?_ ?_ hw
  · simp [zero, h]
  · simp [zero, h]
  · simp [zero, h]

theorem RoundTrip.cdisc (g : Guard) (ab : BitVec 5) (off : BitVec 20) (sa : SReg) : RoundTrip.Statement (.cdisc g ab off sa) := by
  intro hw x hx; cases hx
  have h := hw
  simp [Instr.wf, limits] at h
  refine instr_of rfl ?_ ?_ ?_ hw
  · simp [zero, h]
  · simp [zero, h]
  · simp [zero, h]

theorem RoundTrip.cflush (g : Guard) (inv : Bool) (ab : BitVec 5) (off : BitVec 20) (sa : SReg) : RoundTrip.Statement (.cflush g inv ab off sa) := by
  intro hw x hx; cases hx
  have h := hw
  simp [Instr.wf, limits] at h
  refine instr_of rfl ?_ ?_ ?_ hw
  · simp [zero, h]
  · simp [zero, h]
  · simp [zero, h]

theorem RoundTrip.smap (g : Guard) (e : BitVec 4) (ab : BitVec 5) (off : BitVec 20) (sg sz : SReg) : RoundTrip.Statement (.smap g e ab off sg sz) := by
  intro hw x hx; cases hx
  have h := hw
  simp [Instr.wf, limits] at h
  refine instr_of rfl ?_ ?_ ?_ hw
  · simp [zero, h]
  · simp [zero, h]
  · simp [zero, h]

theorem RoundTrip.sunmap (g : Guard) (e : BitVec 4) : RoundTrip.Statement (.sunmap g e) := by
  intro hw x hx; cases hx
  have h := hw
  simp [Instr.wf, limits] at h
  refine instr_of rfl ?_ ?_ ?_ hw
  · simp [zero, h]
  · simp [zero, h]
  · simp [zero, h]

theorem RoundTrip.sflush (g : Guard) (e : BitVec 4) : RoundTrip.Statement (.sflush g e) := by
  intro hw x hx; cases hx
  have h := hw
  simp [Instr.wf, limits] at h
  refine instr_of rfl ?_ ?_ ?_ hw
  · simp [zero, h]
  · simp [zero, h]
  · simp [zero, h]

theorem RoundTrip.sdisc (g : Guard) (e : BitVec 4) : RoundTrip.Statement (.sdisc g e) := by
  intro hw x hx; cases hx
  have h := hw
  simp [Instr.wf, limits] at h
  refine instr_of rfl ?_ ?_ ?_ hw
  · simp [zero, h]
  · simp [zero, h]
  · simp [zero, h]

theorem RoundTrip.rldg (g : Guard) (wd : RWidth) (d : RData) (ab : BitVec 5) (off : BitVec 20) (sa : SReg) : RoundTrip.Statement (.rldg g wd d ab off sa) := by
  cases d <;> cases wd <;> intro hw x hx <;> cases hx <;> first
    | (simp [Instr.wf, limits, remoteDataOk] at hw; done)
    | (have h := hw
       simp [Instr.wf, limits, remoteDataOk] at h
       exact instr_of rfl (by simp [zero, RData.dec, RData.codeOk, RData.enc, RWidth.enc, RWidth.dec, remoteDataOk, h]) (by simp [zero, RData.dec, RData.codeOk, RData.enc, RWidth.enc, RWidth.dec, remoteDataOk, h]) (by simp [zero, RData.dec, RData.codeOk, RData.enc, RWidth.enc, RWidth.dec, remoteDataOk, h]) hw)

theorem RoundTrip.rstg (g : Guard) (wd : RWidth) (d : RData) (ab : BitVec 5) (off : BitVec 20) (sa : SReg) : RoundTrip.Statement (.rstg g wd d ab off sa) := by
  cases d <;> cases wd <;> intro hw x hx <;> cases hx <;> first
    | (simp [Instr.wf, limits, remoteDataOk] at hw; done)
    | (have h := hw
       simp [Instr.wf, limits, remoteDataOk] at h
       exact instr_of rfl (by simp [zero, RData.dec, RData.codeOk, RData.enc, RWidth.enc, RWidth.dec, remoteDataOk, h]) (by simp [zero, RData.dec, RData.codeOk, RData.enc, RWidth.enc, RWidth.dec, remoteDataOk, h]) (by simp [zero, RData.dec, RData.codeOk, RData.enc, RWidth.enc, RWidth.dec, remoteDataOk, h]) hw)

theorem RoundTrip.rstp (g : Guard) (wd : RWidth) (d : RData) (ab : BitVec 5) (off : BitVec 20) (sa : SReg) : RoundTrip.Statement (.rstp g wd d ab off sa) := by
  cases d <;> cases wd <;> intro hw x hx <;> cases hx <;> first
    | (simp [Instr.wf, limits, remoteDataOk] at hw; done)
    | (have h := hw
       simp [Instr.wf, limits, remoteDataOk] at h
       exact instr_of rfl (by simp [zero, RData.dec, RData.codeOk, RData.enc, RWidth.enc, RWidth.dec, remoteDataOk, h]) (by simp [zero, RData.dec, RData.codeOk, RData.enc, RWidth.enc, RWidth.dec, remoteDataOk, h]) (by simp [zero, RData.dec, RData.codeOk, RData.enc, RWidth.enc, RWidth.dec, remoteDataOk, h]) hw)

theorem RoundTrip.ratom (g : Guard) (op : AtomOp) (f : Fmt) (sd : SReg) (ab : BitVec 5) (off : BitVec 20) (sa : SReg) : RoundTrip.Statement (.ratom g op f sd ab off sa) := by
  intro hw x hx; cases hx
  have h := hw
  simp [Instr.wf, limits] at h
  refine instr_of rfl ?_ ?_ ?_ hw
  · simp [zero, h]
  · simp [zero, h]
  · simp [zero, h]

theorem RoundTrip.rfence (g : Guard) : RoundTrip.Statement (.rfence g) := by
  intro hw x hx; cases hx
  have h := hw
  simp [Instr.wf, limits] at h
  refine instr_of rfl ?_ ?_ ?_ hw
  · simp [zero, h]
  · simp [zero, h]
  · simp [zero, h]

theorem RoundTrip.eNop (g : Guard) : RoundTrip.Statement (.eNop g) := by
  intro hw x hx; cases hx
  have h := hw
  simp [Instr.wf, limits] at h
  refine instr_of rfl ?_ ?_ ?_ hw
  · simp [zero, h]
  · simp [zero, h]
  · simp [zero, h]

theorem RoundTrip.pcopy (g : Guard) (ch : BitVec 3) (ab : BitVec 5) (off : BitVec 20) (sd : SReg) : RoundTrip.Statement (.pcopy g ch ab off sd) := by
  intro hw x hx; cases hx
  have h := hw
  simp [Instr.wf, limits] at h
  refine instr_of rfl ?_ ?_ ?_ hw
  · simp [zero, h]
  · simp [zero, h]
  · simp [zero, h]

theorem RoundTrip.pcopyt (g : Guard) (ch : BitVec 3) (ab : BitVec 5) (off : BitVec 20) (sd : SReg) : RoundTrip.Statement (.pcopyt g ch ab off sd) := by
  intro hw x hx; cases hx
  have h := hw
  simp [Instr.wf, limits] at h
  refine instr_of rfl ?_ ?_ ?_ hw
  · simp [zero, h]
  · simp [zero, h]
  · simp [zero, h]

theorem RoundTrip.pcopyr (g : Guard) (ch : BitVec 3) (ab : BitVec 5) (off : BitVec 20) (sd : SReg) : RoundTrip.Statement (.pcopyr g ch ab off sd) := by
  intro hw x hx; cases hx
  have h := hw
  simp [Instr.wf, limits] at h
  refine instr_of rfl ?_ ?_ ?_ hw
  · simp [zero, h]
  · simp [zero, h]
  · simp [zero, h]

theorem RoundTrip.pstat (g : Guard) (ch : BitVec 3) (sd : SReg) : RoundTrip.Statement (.pstat g ch sd) := by
  intro hw x hx; cases hx
  have h := hw
  simp [Instr.wf, limits] at h
  refine instr_of rfl ?_ ?_ ?_ hw
  · simp [zero, h]
  · simp [zero, h]
  · simp [zero, h]

theorem RoundTrip.pstatErr (g : Guard) (ch : BitVec 3) (sd : SReg) : RoundTrip.Statement (.pstatErr g ch sd) := by
  intro hw x hx; cases hx
  have h := hw
  simp [Instr.wf, limits] at h
  refine instr_of rfl ?_ ?_ ?_ hw
  · simp [zero, h]
  · simp [zero, h]
  · simp [zero, h]; rfl

theorem RoundTrip.pstatClr (g : Guard) (ch : BitVec 3) (sd : SReg) : RoundTrip.Statement (.pstatClr g ch sd) := by
  intro hw x hx; cases hx
  have h := hw
  simp [Instr.wf, limits] at h
  refine instr_of rfl ?_ ?_ ?_ hw
  · simp [zero, h]
  · simp [zero, h]
  · simp [zero, h]; rfl

theorem RoundTrip.tbind (g : Guard) (e : BitVec 6) (lvl : BitVec 3) (ab : BitVec 5) (sa : SReg) (ac : BitVec 5) (n : BitVec 3) (rows : BitVec 6) (pair : Bool) : RoundTrip.Statement (.tbind g e lvl ab sa ac n rows pair) := by
  intro hw x hx; cases hx
  have h := hw
  simp [Instr.wf, limits] at h
  refine instr_of rfl ?_ ?_ ?_ hw
  · simp [zero, h]
  · simp [zero, h]
  · simp [zero, h]

theorem RoundTrip.tfill (g : Guard) (e : BitVec 6) : RoundTrip.Statement (.tfill g e) := by
  intro hw x hx; cases hx
  have h := hw
  simp [Instr.wf, limits] at h
  refine instr_of rfl ?_ ?_ ?_ hw
  · simp [zero, h]
  · simp [zero, h]
  · simp [zero, h]

theorem RoundTrip.tdrain (g : Guard) (e : BitVec 6) : RoundTrip.Statement (.tdrain g e) := by
  intro hw x hx; cases hx
  have h := hw
  simp [Instr.wf, limits] at h
  refine instr_of rfl ?_ ?_ ?_ hw
  · simp [zero, h]
  · simp [zero, h]
  · simp [zero, h]

theorem RoundTrip.tfree (g : Guard) (e : BitVec 6) : RoundTrip.Statement (.tfree g e) := by
  intro hw x hx; cases hx
  have h := hw
  simp [Instr.wf, limits] at h
  refine instr_of rfl ?_ ?_ ?_ hw
  · simp [zero, h]
  · simp [zero, h]
  · simp [zero, h]

theorem RoundTrip.tstate (g : Guard) (e : BitVec 6) (sd : SReg) : RoundTrip.Statement (.tstate g e sd) := by
  intro hw x hx; cases hx
  have h := hw
  simp [Instr.wf, limits] at h
  refine instr_of rfl ?_ ?_ ?_ hw
  · simp [zero, h]
  · simp [zero, h]
  · simp [zero, h]

theorem RoundTrip.vsend (g : Guard) (sa : SReg) (ab : BitVec 5) (off : BitVec 20) (num len : BitVec 8) : RoundTrip.Statement (.vsend g sa ab off num len) := by
  intro hw x hx; cases hx
  have h := hw
  simp [Instr.wf, limits] at h
  refine instr_of rfl ?_ ?_ ?_ hw
  · simp [zero, h]
  · simp [zero, h]
  · simp [zero, h]

theorem RoundTrip.vlatch (g : Guard) (t : LatchDst) (sender : BitVec 5) (num : BitVec 8) : RoundTrip.Statement (.vlatch g t sender num) := by
  intro hw x hx
  cases t <;> cases hx
  · rename_i ab off
    have h : bit 0#3 0 = false := rfl
    simp only [SlotWord.instr?, SlotWord.decode, decodeE]
    simp [h, chk, zero, hw]
  · rename_i e
    have h : bit 1#3 0 = true := rfl
    have h2 : fld 1#3 1 2 = 0#2 := rfl
    simp only [SlotWord.instr?, SlotWord.decode, decodeE]
    simp [h, h2, chk, zero, hw]

theorem RoundTrip.vstat (g : Guard) (sd : SReg) : RoundTrip.Statement (.vstat g sd) := by
  intro hw x hx; cases hx
  have h := hw
  simp [Instr.wf, limits] at h
  refine instr_of rfl ?_ ?_ ?_ hw
  · simp [zero, h]
  · simp [zero, h]
  · simp [zero, h]

theorem RoundTrip.qpush (g : Guard) (k : BitVec 4) (ab : BitVec 5) (off : BitVec 20) : RoundTrip.Statement (.qpush g k ab off) := by
  intro hw x hx; cases hx
  have h := hw
  simp [Instr.wf, limits] at h
  refine instr_of rfl ?_ ?_ ?_ hw
  · simp [zero, h]
  · simp [zero, h]
  · simp [zero, h]

theorem RoundTrip.qadv (g : Guard) (k n : BitVec 4) : RoundTrip.Statement (.qadv g k n) := by
  intro hw x hx; cases hx
  have h := hw
  simp [Instr.wf, limits] at h
  refine instr_of rfl ?_ ?_ ?_ hw
  · simp [zero, h]
  · simp [zero, h]
  · simp [zero, h]

theorem RoundTrip.qcfg (g : Guard) (k : BitVec 4) (prod cons : BitVec 2) : RoundTrip.Statement (.qcfg g k prod cons) := by
  intro hw x hx; cases hx
  have h := hw
  simp [Instr.wf, limits] at h
  refine instr_of rfl ?_ ?_ ?_ hw
  · simp [zero, h]
  · simp [zero, h]
  · simp [zero, h]

theorem RoundTrip.qrst (g : Guard) (k : BitVec 4) : RoundTrip.Statement (.qrst g k) := by
  intro hw x hx; cases hx
  have h := hw
  simp [Instr.wf, limits] at h
  refine instr_of rfl ?_ ?_ ?_ hw
  · simp [zero, h]
  · simp [zero, h]
  · simp [zero, h]

theorem RoundTrip.gsrch (g : Guard) (ab : BitVec 5) (off : BitVec 20) (sd : SReg) : RoundTrip.Statement (.gsrch g ab off sd) := by
  intro hw x hx; cases hx
  have h := hw
  simp [Instr.wf, limits] at h
  refine instr_of rfl ?_ ?_ ?_ hw
  · simp [zero, h]
  · simp [zero, h]
  · simp [zero, h]

theorem RoundTrip.gstat (g : Guard) (sd sa : SReg) : RoundTrip.Statement (.gstat g sd sa) := by
  intro hw x hx; cases hx
  have h := hw
  simp [Instr.wf, limits] at h
  refine instr_of rfl ?_ ?_ ?_ hw
  · simp [zero, h]
  · simp [zero, h]
  · simp [zero, h]

theorem RoundTrip.rlydone (g : Guard) (n : BitVec 8) : RoundTrip.Statement (.rlydone g n) := by
  intro hw x hx; cases hx
  have h := hw
  simp [Instr.wf, limits] at h
  refine instr_of rfl ?_ ?_ ?_ hw
  · simp [zero, h]
  · simp [zero, h]
  · simp [zero, h]

theorem RoundTrip.rlyfree (g : Guard) (n : BitVec 8) : RoundTrip.Statement (.rlyfree g n) := by
  intro hw x hx; cases hx
  have h := hw
  simp [Instr.wf, limits] at h
  refine instr_of rfl ?_ ?_ ?_ hw
  · simp [zero, h]
  · simp [zero, h]
  · simp [zero, h]

theorem RoundTrip.rlystash (g : Guard) (n : BitVec 8) : RoundTrip.Statement (.rlystash g n) := by
  intro hw x hx; cases hx
  have h := hw
  simp [Instr.wf, limits] at h
  refine instr_of rfl ?_ ?_ ?_ hw
  · simp [zero, h]
  · simp [zero, h]
  · simp [zero, h]

theorem RoundTrip.rlypop (g : Guard) (n : BitVec 8) : RoundTrip.Statement (.rlypop g n) := by
  intro hw x hx; cases hx
  have h := hw
  simp [Instr.wf, limits] at h
  refine instr_of rfl ?_ ?_ ?_ hw
  · simp [zero, h]
  · simp [zero, h]
  · simp [zero, h]

theorem RoundTrip.cres (g : Guard) (sd : SReg) (ab : BitVec 5) (sa : SReg) : RoundTrip.Statement (.cres g sd ab sa) := by
  intro hw x hx; cases hx
  have h := hw
  simp [Instr.wf, limits] at h
  refine instr_of rfl ?_ ?_ ?_ hw
  · simp [zero, h]
  · simp [zero, h]
  · simp [zero, h]

theorem RoundTrip.crel (g : Guard) (ab : BitVec 5) (sa : SReg) : RoundTrip.Statement (.crel g ab sa) := by
  intro hw x hx; cases hx
  have h := hw
  simp [Instr.wf, limits] at h
  refine instr_of rfl ?_ ?_ ?_ hw
  · simp [zero, h]
  · simp [zero, h]
  · simp [zero, h]

theorem RoundTrip.split (g : Guard) (n : BitVec 4) : RoundTrip.Statement (.split g n) := by
  intro hw x hx; cases hx
  have h := hw
  simp [Instr.wf, limits] at h
  refine instr_of rfl ?_ ?_ ?_ hw
  · simp [zero, h]
  · simp [zero, h]
  · simp [zero, h]
theorem RoundTrip.splitOccupancyEnd (core : Nat) : RoundTrip.Statement (.splitOccupancyEnd core) := fun _ _ h => nomatch h

theorem RoundTrip.bundleFetch (core : Nat) : RoundTrip.Statement (.bundleFetch core) := fun _ _ h => nomatch h

theorem RoundTrip.resultDelivery (core : Nat) : RoundTrip.Statement (.resultDelivery core) := fun _ _ h => nomatch h

theorem RoundTrip.loadDataReturn (core : Nat) : RoundTrip.Statement (.loadDataReturn core) := fun _ _ h => nomatch h

theorem RoundTrip.xldLanding (core : Nat) : RoundTrip.Statement (.xldLanding core) := fun _ _ h => nomatch h

theorem RoundTrip.contributionLanding (core : Nat) : RoundTrip.Statement (.contributionLanding core) := fun _ _ h => nomatch h

theorem RoundTrip.pushLanding (core : Nat) : RoundTrip.Statement (.pushLanding core) := fun _ _ h => nomatch h

theorem RoundTrip.queueProducerLanding (quad k : Nat) : RoundTrip.Statement (.queueProducerLanding quad k) := fun _ _ h => nomatch h

theorem RoundTrip.stallPark (core ctx : Nat) : RoundTrip.Statement (.stallPark core ctx) := fun _ _ h => nomatch h

theorem RoundTrip.taskWake (core ctx : Nat) : RoundTrip.Statement (.taskWake core ctx) := fun _ _ h => nomatch h

theorem RoundTrip.priorityPromotion (core ctx : Nat) : RoundTrip.Statement (.priorityPromotion core ctx) := fun _ _ h => nomatch h

theorem RoundTrip.turnEnd (core : Nat) : RoundTrip.Statement (.turnEnd core) := fun _ _ h => nomatch h

theorem RoundTrip.switchBegin (core : Nat) : RoundTrip.Statement (.switchBegin core) := fun _ _ h => nomatch h

theorem RoundTrip.switchEnd (core : Nat) : RoundTrip.Statement (.switchEnd core) := fun _ _ h => nomatch h

theorem RoundTrip.placementStart (launch entry : Nat) : RoundTrip.Statement (.placementStart launch entry) := fun _ _ h => nomatch h

theorem RoundTrip.stashFill (core e sector : Nat) : RoundTrip.Statement (.stashFill core e sector) := fun _ _ h => nomatch h

theorem RoundTrip.tileFillComplete (core e : Nat) : RoundTrip.Statement (.tileFillComplete core e) := fun _ _ h => nomatch h

theorem RoundTrip.tileDrainComplete (core e : Nat) : RoundTrip.Statement (.tileDrainComplete core e) := fun _ _ h => nomatch h

theorem RoundTrip.pumpJobStart (core ch : Nat) : RoundTrip.Statement (.pumpJobStart core ch) := fun _ _ h => nomatch h

theorem RoundTrip.pumpJobComplete (core ch : Nat) : RoundTrip.Statement (.pumpJobComplete core ch) := fun _ _ h => nomatch h

theorem RoundTrip.pumpJobHalt (core ch : Nat) : RoundTrip.Statement (.pumpJobHalt core ch) := fun _ _ h => nomatch h

theorem RoundTrip.engineRangeJobComplete (core : Nat) : RoundTrip.Statement (.engineRangeJobComplete core) := fun _ _ h => nomatch h

theorem RoundTrip.wellheadUpdate (core : Nat) : RoundTrip.Statement (.wellheadUpdate core) := fun _ _ h => nomatch h

theorem RoundTrip.volleyDrive (core ctx : Nat) : RoundTrip.Statement (.volleyDrive core ctx) := fun _ _ h => nomatch h

theorem RoundTrip.spillStallRelease (die : Nat) : RoundTrip.Statement (.spillStallRelease die) := fun _ _ h => nomatch h

theorem RoundTrip.heldPostingRelease (part : Nat) : RoundTrip.Statement (.heldPostingRelease part) := fun _ _ h => nomatch h

theorem RoundTrip.notifyWrite (offset width : Nat) (value : BitVec 64) : RoundTrip.Statement (.notifyWrite offset width value) := fun _ _ h => nomatch h

theorem RoundTrip.packetFetch (q : Nat) : RoundTrip.Statement (.packetFetch q) := fun _ _ h => nomatch h

theorem RoundTrip.launch (q idx : Nat) : RoundTrip.Statement (.launch q idx) := fun _ _ h => nomatch h

theorem RoundTrip.launchComplete (launch : Nat) : RoundTrip.Statement (.launchComplete launch) := fun _ _ h => nomatch h

theorem RoundTrip.copy (q idx : Nat) : RoundTrip.Statement (.copy q idx) := fun _ _ h => nomatch h

theorem RoundTrip.rallyLoad (q idx : Nat) : RoundTrip.Statement (.rallyLoad q idx) := fun _ _ h => nomatch h

theorem RoundTrip.gen (q idx : Nat) : RoundTrip.Statement (.gen q idx) := fun _ _ h => nomatch h

theorem RoundTrip.barrier (q idx : Nat) : RoundTrip.Statement (.barrier q idx) := fun _ _ h => nomatch h

theorem RoundTrip.barrierConditionMet (q idx : Nat) : RoundTrip.Statement (.barrierConditionMet q idx) := fun _ _ h => nomatch h

theorem RoundTrip.fence (q idx : Nat) : RoundTrip.Statement (.fence q idx) := fun _ _ h => nomatch h

theorem RoundTrip.hostWordPoll (w : Waiter) : RoundTrip.Statement (.hostWordPoll w) := fun _ _ h => nomatch h

theorem RoundTrip.sliceEnd (quad : Nat) : RoundTrip.Statement (.sliceEnd quad) := fun _ _ h => nomatch h

theorem RoundTrip.sliceStart (quad : Nat) : RoundTrip.Statement (.sliceStart quad) := fun _ _ h => nomatch h

theorem RoundTrip.spacingOverrun (core ctx : Nat) (ns : BitVec 48) : RoundTrip.Statement (.spacingOverrun core ctx ns) := fun _ _ h => nomatch h

theorem RoundTrip.contextSave (quad : Nat) : RoundTrip.Statement (.contextSave quad) := fun _ _ h => nomatch h

theorem RoundTrip.save (part : Nat) : RoundTrip.Statement (.save part) := fun _ _ h => nomatch h

theorem RoundTrip.restore (part : Nat) : RoundTrip.Statement (.restore part) := fun _ _ h => nomatch h

theorem RoundTrip.shootdown (part : Nat) (value : BitVec 64) : RoundTrip.Statement (.shootdown part value) := fun _ _ h => nomatch h

theorem RoundTrip.shootdownAck (part core : Nat) : RoundTrip.Statement (.shootdownAck part core) := fun _ _ h => nomatch h

theorem RoundTrip.shootdownDone (part : Nat) : RoundTrip.Statement (.shootdownDone part) := fun _ _ h => nomatch h

theorem RoundTrip.migrationStart (part rec : Nat) : RoundTrip.Statement (.migrationStart part rec) := fun _ _ h => nomatch h

theorem RoundTrip.migrationLineMove (part rec : Nat) : RoundTrip.Statement (.migrationLineMove part rec) := fun _ _ h => nomatch h

theorem RoundTrip.migrationFinish (part rec : Nat) : RoundTrip.Statement (.migrationFinish part rec) := fun _ _ h => nomatch h

theorem RoundTrip.migrationDone (part rec : Nat) : RoundTrip.Statement (.migrationDone part rec) := fun _ _ h => nomatch h

theorem RoundTrip.sweepPassStart : RoundTrip.Statement (.sweepPassStart) := fun _ _ h => nomatch h

theorem RoundTrip.sweepElement (e : SweepElem) : RoundTrip.Statement (.sweepElement e) := fun _ _ h => nomatch h

theorem RoundTrip.sweepPassComplete : RoundTrip.Statement (.sweepPassComplete) := fun _ _ h => nomatch h

theorem RoundTrip.rallyEntryStart (part : Nat) : RoundTrip.Statement (.rallyEntryStart part) := fun _ _ h => nomatch h

theorem RoundTrip.rallyEntryComplete (part : Nat) : RoundTrip.Statement (.rallyEntryComplete part) := fun _ _ h => nomatch h

theorem RoundTrip.rallyIncrementTimeout (rtag : Nat) : RoundTrip.Statement (.rallyIncrementTimeout rtag) := fun _ _ h => nomatch h

theorem RoundTrip.gseQueryPacket (stack : Nat) : RoundTrip.Statement (.gseQueryPacket stack) := fun _ _ h => nomatch h

theorem RoundTrip.gseRound (stack slot : Nat) : RoundTrip.Statement (.gseRound stack slot) := fun _ _ h => nomatch h

theorem RoundTrip.gseForwardedRequest (stack : Nat) : RoundTrip.Statement (.gseForwardedRequest stack) := fun _ _ h => nomatch h

theorem RoundTrip.gseQueryComplete (stack slot : Nat) : RoundTrip.Statement (.gseQueryComplete stack slot) := fun _ _ h => nomatch h

theorem RoundTrip.flitSend (port : Nat) : RoundTrip.Statement (.flitSend port) := fun _ _ h => nomatch h

theorem RoundTrip.flitReceive (port : Nat) (payload : BitVec 512) (ctl : BitVec 32) : RoundTrip.Statement (.flitReceive port payload ctl) := fun _ _ h => nomatch h

theorem RoundTrip.reportTimer (port : Nat) : RoundTrip.Statement (.reportTimer port) := fun _ _ h => nomatch h

theorem RoundTrip.reportReceive (port : Nat) (payload : BitVec 512) (ctl : BitVec 32) : RoundTrip.Statement (.reportReceive port payload ctl) := fun _ _ h => nomatch h

theorem RoundTrip.fabricRead : RoundTrip.Statement (.fabricRead) := fun _ _ h => nomatch h

theorem RoundTrip.fabricWrite : RoundTrip.Statement (.fabricWrite) := fun _ _ h => nomatch h

theorem RoundTrip.fabricPostedWrite : RoundTrip.Statement (.fabricPostedWrite) := fun _ _ h => nomatch h

theorem RoundTrip.fabricAtomic : RoundTrip.Statement (.fabricAtomic) := fun _ _ h => nomatch h

theorem RoundTrip.fabricResponse : RoundTrip.Statement (.fabricResponse) := fun _ _ h => nomatch h

theorem RoundTrip.staleNotice : RoundTrip.Statement (.staleNotice) := fun _ _ h => nomatch h

theorem RoundTrip.announce : RoundTrip.Statement (.announce) := fun _ _ h => nomatch h

theorem RoundTrip.announceSend (node : Nat) : RoundTrip.Statement (.announceSend node) := fun _ _ h => nomatch h

theorem RoundTrip.rallyIncrement : RoundTrip.Statement (.rallyIncrement) := fun _ _ h => nomatch h

theorem RoundTrip.postedWriteGapTimeout (src : Nat) : RoundTrip.Statement (.postedWriteGapTimeout src) := fun _ _ h => nomatch h

theorem RoundTrip.escapeMove (port vc : Nat) : RoundTrip.Statement (.escapeMove port vc) := fun _ _ h => nomatch h

theorem RoundTrip.remoteTimeout (rtag : Nat) : RoundTrip.Statement (.remoteTimeout rtag) := fun _ _ h => nomatch h

theorem RoundTrip.portTrainingDone (port : Nat) (peer : BitVec 10) (pport : BitVec 5) : RoundTrip.Statement (.portTrainingDone port peer pport) := fun _ _ h => nomatch h

theorem RoundTrip.nodeIdWrite (value : BitVec 64) : RoundTrip.Statement (.nodeIdWrite value) := fun _ _ h => nomatch h

theorem RoundTrip.coldReset : RoundTrip.Statement (.coldReset) := fun _ _ h => nomatch h

theorem RoundTrip.warmReset : RoundTrip.Statement (.warmReset) := fun _ _ h => nomatch h

theorem RoundTrip.functionReset : RoundTrip.Statement (.functionReset) := fun _ _ h => nomatch h

theorem RoundTrip.startGroupBegin (group : Nat) : RoundTrip.Statement (.startGroupBegin group) := fun _ _ h => nomatch h

theorem RoundTrip.unitReady (u : StartUnit) (ok : Bool) : RoundTrip.Statement (.unitReady u ok) := fun _ _ h => nomatch h

theorem RoundTrip.correctedError (kind : UnitKind) (index : Nat) (addr : BitVec 64) (part : Nat) : RoundTrip.Statement (.correctedError kind index addr part) := fun _ _ h => nomatch h

theorem RoundTrip.correctedThreshold (kind : UnitKind) (index : Nat) : RoundTrip.Statement (.correctedThreshold kind index) := fun _ _ h => nomatch h

theorem RoundTrip.uncorrectableLineError (cache : Bool) (line : Nat) : RoundTrip.Statement (.uncorrectableLineError cache line) := fun _ _ h => nomatch h

theorem RoundTrip.tagParityError (die line : Nat) : RoundTrip.Statement (.tagParityError die line) := fun _ _ h => nomatch h

theorem RoundTrip.errorInject (value : BitVec 64) : RoundTrip.Statement (.errorInject value) := fun _ _ h => nomatch h

theorem RoundTrip.injectedReport (kind : UnitKind) (index cls : Nat) (addr detail : BitVec 64) : RoundTrip.Statement (.injectedReport kind index cls addr detail) := fun _ _ h => nomatch h

theorem RoundTrip.ckptCloseDone (part : Nat) : RoundTrip.Statement (.ckptCloseDone part) := fun _ _ h => nomatch h

theorem RoundTrip.rollback (part : Nat) : RoundTrip.Statement (.rollback part) := fun _ _ h => nomatch h

theorem RoundTrip.rollbackDone (part : Nat) : RoundTrip.Statement (.rollbackDone part) := fun _ _ h => nomatch h

theorem RoundTrip.powerControlTick (watts : BitVec 13) : RoundTrip.Statement (.powerControlTick watts) := fun _ _ h => nomatch h

theorem RoundTrip.registerWrite (offset : Nat) (value : BitVec 64) : RoundTrip.Statement (.registerWrite offset value) := fun _ _ h => nomatch h

theorem RoundTrip.tlbWalkComplete (core : Nat) : RoundTrip.Statement (.tlbWalkComplete core) := fun _ _ h => nomatch h

end Sys2Proof.Laws
end

