-- ==== Sys2Proof/Laws/Run.lean ====
section
/-! SUPPORT. An event that the module performs by itself, other than the retry of a write that it owes and the posting of a
hand-off that a bundle has left, is one of the instructions. -/

namespace Sys2Proof.Machine

theorem Event.run_eq_exec (e : Event) (h : e ≠ .owedWrites) (hh : ∀ n x, e ≠ .handoff n x) : ∃ i, ∀ s, e.run s = exec i s := by
  cases e with
  | owedWrites => exact absurd rfl h
  | handoff n x => exact absurd rfl (hh n x)
  | powerTick watts => exact ⟨.powerControlTick watts, fun _ => rfl⟩
  | splitOccupancyEnd core => exact ⟨.splitOccupancyEnd core, fun _ => rfl⟩
  | resultDelivery core => exact ⟨.resultDelivery core, fun _ => rfl⟩
  | loadDataReturn core => exact ⟨.loadDataReturn core, fun _ => rfl⟩
  | xldLanding core => exact ⟨.xldLanding core, fun _ => rfl⟩
  | contributionLanding core => exact ⟨.contributionLanding core, fun _ => rfl⟩
  | pushLanding core => exact ⟨.pushLanding core, fun _ => rfl⟩
  | queueProducerLanding quad k => exact ⟨.queueProducerLanding quad k, fun _ => rfl⟩
  | stallPark core ctx => exact ⟨.stallPark core ctx, fun _ => rfl⟩
  | taskWake core ctx => exact ⟨.taskWake core ctx, fun _ => rfl⟩
  | priorityPromotion core ctx => exact ⟨.priorityPromotion core ctx, fun _ => rfl⟩
  | turnEnd core => exact ⟨.turnEnd core, fun _ => rfl⟩
  | switchBegin core => exact ⟨.switchBegin core, fun _ => rfl⟩
  | switchEnd core => exact ⟨.switchEnd core, fun _ => rfl⟩
  | placementStart l entry => exact ⟨.placementStart l entry, fun _ => rfl⟩
  | tileFillComplete core e => exact ⟨.tileFillComplete core e, fun _ => rfl⟩
  | tileDrainComplete core e => exact ⟨.tileDrainComplete core e, fun _ => rfl⟩
  | pumpJobStart core ch => exact ⟨.pumpJobStart core ch, fun _ => rfl⟩
  | pumpJobComplete core ch => exact ⟨.pumpJobComplete core ch, fun _ => rfl⟩
  | pumpJobHalt core ch => exact ⟨.pumpJobHalt core ch, fun _ => rfl⟩
  | engineRangeJobComplete core => exact ⟨.engineRangeJobComplete core, fun _ => rfl⟩
  | wellheadUpdate core => exact ⟨.wellheadUpdate core, fun _ => rfl⟩
  | volleyDrive core ctx => exact ⟨.volleyDrive core ctx, fun _ => rfl⟩
  | spillStallRelease die => exact ⟨.spillStallRelease die, fun _ => rfl⟩
  | heldPostingRelease part => exact ⟨.heldPostingRelease part, fun _ => rfl⟩
  | packetFetch q => exact ⟨.packetFetch q, fun _ => rfl⟩
  | launch q idx => exact ⟨.launch q idx, fun _ => rfl⟩
  | launchComplete l => exact ⟨.launchComplete l, fun _ => rfl⟩
  | copy q idx => exact ⟨.copy q idx, fun _ => rfl⟩
  | rallyLoad q idx => exact ⟨.rallyLoad q idx, fun _ => rfl⟩
  | gen q idx => exact ⟨.gen q idx, fun _ => rfl⟩
  | barrier q idx => exact ⟨.barrier q idx, fun _ => rfl⟩
  | barrierConditionMet q idx => exact ⟨.barrierConditionMet q idx, fun _ => rfl⟩
  | fence q idx => exact ⟨.fence q idx, fun _ => rfl⟩
  | hostWordPoll w => exact ⟨.hostWordPoll w, fun _ => rfl⟩
  | sliceEnd quad => exact ⟨.sliceEnd quad, fun _ => rfl⟩
  | sliceStart quad => exact ⟨.sliceStart quad, fun _ => rfl⟩
  | spacingOverrun core ctx ns => exact ⟨.spacingOverrun core ctx ns, fun _ => rfl⟩
  | contextSave quad => exact ⟨.contextSave quad, fun _ => rfl⟩
  | save part => exact ⟨.save part, fun _ => rfl⟩
  | restore part => exact ⟨.restore part, fun _ => rfl⟩
  | shootdownAck part core => exact ⟨.shootdownAck part core, fun _ => rfl⟩
  | shootdownDone part => exact ⟨.shootdownDone part, fun _ => rfl⟩
  | migrationLineMove part rec => exact ⟨.migrationLineMove part rec, fun _ => rfl⟩
  | migrationFinish part rec => exact ⟨.migrationFinish part rec, fun _ => rfl⟩
  | migrationDone part rec => exact ⟨.migrationDone part rec, fun _ => rfl⟩
  | sweepPassStart => exact ⟨.sweepPassStart, fun _ => rfl⟩
  | sweepElement e => exact ⟨.sweepElement e, fun _ => rfl⟩
  | sweepPassComplete => exact ⟨.sweepPassComplete, fun _ => rfl⟩
  | rallyEntryStart part => exact ⟨.rallyEntryStart part, fun _ => rfl⟩
  | rallyEntryComplete part => exact ⟨.rallyEntryComplete part, fun _ => rfl⟩
  | rallyIncrementTimeout rtag => exact ⟨.rallyIncrementTimeout rtag, fun _ => rfl⟩
  | gseQueryPacket stack => exact ⟨.gseQueryPacket stack, fun _ => rfl⟩
  | gseRound stack slot => exact ⟨.gseRound stack slot, fun _ => rfl⟩
  | gseForwardedRequest stack => exact ⟨.gseForwardedRequest stack, fun _ => rfl⟩
  | gseQueryComplete stack slot => exact ⟨.gseQueryComplete stack slot, fun _ => rfl⟩
  | flitSend port => exact ⟨.flitSend port, fun _ => rfl⟩
  | reportTimer port => exact ⟨.reportTimer port, fun _ => rfl⟩
  | fabricRead => exact ⟨.fabricRead, fun _ => rfl⟩
  | fabricWrite => exact ⟨.fabricWrite, fun _ => rfl⟩
  | fabricPostedWrite => exact ⟨.fabricPostedWrite, fun _ => rfl⟩
  | fabricAtomic => exact ⟨.fabricAtomic, fun _ => rfl⟩
  | fabricResponse => exact ⟨.fabricResponse, fun _ => rfl⟩
  | staleNotice => exact ⟨.staleNotice, fun _ => rfl⟩
  | announce => exact ⟨.announce, fun _ => rfl⟩
  | announceSend node => exact ⟨.announceSend node, fun _ => rfl⟩
  | rallyIncrement => exact ⟨.rallyIncrement, fun _ => rfl⟩
  | postedWriteGapTimeout src => exact ⟨.postedWriteGapTimeout src, fun _ => rfl⟩
  | escapeMove port vc => exact ⟨.escapeMove port vc, fun _ => rfl⟩
  | remoteTimeout rtag => exact ⟨.remoteTimeout rtag, fun _ => rfl⟩
  | startGroupBegin group => exact ⟨.startGroupBegin group, fun _ => rfl⟩
  | correctedThreshold kind index => exact ⟨.correctedThreshold kind index, fun _ => rfl⟩
  | injectedReport kind index cls addr detail => exact ⟨.injectedReport kind index cls addr detail, fun _ => rfl⟩
  | ckptCloseDone part => exact ⟨.ckptCloseDone part, fun _ => rfl⟩
  | rollbackDone part => exact ⟨.rollbackDone part, fun _ => rfl⟩
  | tlbWalkComplete core => exact ⟨.tlbWalkComplete core, fun _ => rfl⟩

end Sys2Proof.Machine
end

