-- ==== Sys2Proof/Laws/Vector.lean ====
section
/-! SUPPORT. Vectors: the elements of a vector built by element, the lanes of a mask, and a result under a guard. -/

namespace Sys2Proof.Machine

theorem foldr_fields_testBit (w : Nat) (g : Nat → Nat) (hw : 0 < w) (n a i : Nat) :
    ((List.range' a n).foldr (fun e acc => acc * 2 ^ w + g e % 2 ^ w) 0).testBit i =
      (decide (i < w * n) && (g (a + i / w)).testBit (i % w)) := by
  induction n generalizing a i with
  | zero => simp
  | succ n ih =>
    have hm := Nat.mod_lt (g a) (Nat.two_pow_pos w)
    rw [List.range'_succ, List.foldr_cons, Nat.mul_comm, Nat.testBit_two_pow_mul_add _ hm]
    by_cases h : i < w
    · have h1 : i / w = 0 := Nat.div_eq_of_lt h
      have h2 : i % w = i := Nat.mod_eq_of_lt h
      have h3 : i < w * (n + 1) := by rw [Nat.mul_succ]; omega
      simp [h, h1, h2, h3, Nat.testBit_mod_two_pow]
    · have h0 : w ≤ i := by omega
      rw [if_neg h, ih]
      have h1 : (i - w) / w + 1 = i / w := by rw [← Nat.add_div_right _ hw]; congr 1; omega
      have h2 : (i - w) % w = i % w := by rw [← Nat.add_mod_right (i - w) w]; congr 1; omega
      have h3 : (i - w < w * n) = (i < w * (n + 1)) := by rw [Nat.mul_succ]; apply propext; omega
      have h4 : a + 1 + (i - w) / w = a + i / w := by omega
      simp only [h2, h3, h4]

/-- The bits of a number made of fields. -/
theorem packNat_testBit (w n : Nat) (g : Nat → Nat) (hw : 0 < w) (i : Nat) :
    (packNat w n g).testBit i = (decide (i < w * n) && (g (i / w)).testBit (i % w)) := by
  have := foldr_fields_testBit w g hw n 0 i
  simpa [packNat, List.range_eq_range'] using this

theorem fmtWidth_pos (f : Fmt) : 0 < fmtWidth f := by cases f <;> decide

/-- The elements of a format fill a vector. -/
theorem fmt_fills (f : Fmt) : fmtWidth f * fmtCount f = 8192 := by cases f <;> decide

theorem mkVec_getLsbD (f : Fmt) (g : Nat → Nat) (i : Nat) (h : i < 8192) :
    (mkVec f g).getLsbD i = (g (i / fmtWidth f)).testBit (i % fmtWidth f) := by
  simp only [mkVec, BitVec.getLsbD_ofNat, packNat_testBit _ _ _ (fmtWidth_pos f), fmt_fills, h, decide_true, Bool.true_and]

theorem elem_testBit (f : Fmt) (v : VBits) (e j : Nat) :
    (elem f v e).testBit j = (decide (j < fmtWidth f) && v.getLsbD (fmtWidth f * e + j)) := by
  simp only [elem, BitVec.testBit_toNat, BitVec.getLsbD_extractLsb']

/-- Element e of a vector built by element, cut to its width. -/
theorem elem_mkVec (f : Fmt) (g : Nat → Nat) (e : Nat) (h : e < fmtCount f) : elem f (mkVec f g) e = g e % 2 ^ fmtWidth f := by
  apply Nat.eq_of_testBit_eq
  intro j
  rw [elem_testBit, Nat.testBit_mod_two_pow]
  by_cases hj : j < fmtWidth f
  · have hw := fmtWidth_pos f
    have hb : fmtWidth f * e + j < 8192 := by
      have := fmt_fills f
      have h2 : fmtWidth f * (e + 1) ≤ fmtWidth f * fmtCount f := Nat.mul_le_mul_left _ h
      rw [Nat.mul_succ] at h2; omega
    rw [mkVec_getLsbD f g _ hb, Nat.mul_add_div hw, Nat.mul_add_mod, Nat.div_eq_of_lt hj, Nat.mod_eq_of_lt hj]
    simp
  · simp [hj]

/-- A mask spread over the bits of a vector. -/
theorem spreadLanes_getLsbD (m : Lanes) (i : Nat) (h : i < 8192) : (spreadLanes m).getLsbD i = m.getLsbD (i / 32) := by
  unfold spreadLanes
  split
  · rename_i hm
    have : i / 32 < 256 := by omega
    rw [hm, BitVec.getLsbD_allOnes, BitVec.getLsbD_allOnes]
    simp only [h, this]
  · have h1 : i < 32 * 256 := by omega
    rw [BitVec.getLsbD_ofNat, packNat_testBit _ _ _ (by decide)]
    simp only [h1, decide_true, Bool.true_and]
    cases hb : m.getLsbD (i / 32)
    · simp
    · have : i % 32 < 32 := Nat.mod_lt _ (by decide)
      rw [if_pos rfl, Nat.testBit_two_pow_sub_one]; simp [this]

theorem mergeLanes_getLsbD (m : Lanes) (new old : VBits) (i : Nat) (h : i < 8192) :
    (mergeLanes m new old).getLsbD i = if m.getLsbD (i / 32) then new.getLsbD i else old.getLsbD i := by
  simp only [mergeLanes, BitVec.getLsbD_or, BitVec.getLsbD_and, BitVec.getLsbD_not, spreadLanes_getLsbD m i h, h]
  cases m.getLsbD (i / 32) <;> simp

theorem laneMask_getLsbD (f : Fmt) (m : Lanes) (e j : Nat) (he : e < fmtCount f) (hj : j < fmtWidth f) :
    (laneMask f m).getLsbD ((fmtWidth f * e + j) / 32) = m.getLsbD (laneOf f e) := by
  by_cases h : f = .i64
  · subst h
    have he' : e < 128 := he
    have hj' : j < 64 := hj
    have h1 : fmtWidth .i64 = 64 := rfl
    have h2 : (64 * e + j) / 32 < 256 := by omega
    have h3 : (64 * e + j) / 32 / 2 * 2 = 2 * e := by omega
    simp only [laneMask, laneOf, h1]
    rw [if_pos (by decide), if_pos (by decide), BitVec.getLsbD_ofNat, packNat_testBit _ _ _ (by decide)]
    simp only [h2, Nat.one_mul, Nat.div_one, Nat.mod_one, h3, decide_true, Bool.true_and]
    cases m.getLsbD (2 * e) <;> decide
  · have hb : (f == .i64) = false := by simpa using h
    simp only [laneMask, laneOf, hb]
    have : fmtWidth f = 32 ∨ fmtWidth f = 16 ∨ fmtWidth f = 8 ∨ fmtWidth f = 4 := by cases f <;> simp_all [fmtWidth]
    have h4 : (fmtWidth f * e + j) / 32 = e * fmtWidth f / 32 := by
      rcases this with h | h | h | h <;> rw [h] at hj ⊢ <;> omega
    simp [h4]

/-- An element of a result under a guard: the new value in an enabled lane, the old one elsewhere (R48, R50). -/
theorem elem_merged (f : Fmt) (g : Lanes) (h : Nat → Nat) (old : VBits) (e : Nat) (he : e < fmtCount f) :
    elem f (mergeLanes (laneMask f g) (mkVec f h) old) e =
      if g.getLsbD (laneOf f e) then h e % 2 ^ fmtWidth f else elem f old e := by
  apply Nat.eq_of_testBit_eq
  intro j
  rw [elem_testBit]
  by_cases hj : j < fmtWidth f
  · have hb : fmtWidth f * e + j < 8192 := by
      have := fmt_fills f
      have h2 : fmtWidth f * (e + 1) ≤ fmtWidth f * fmtCount f := Nat.mul_le_mul_left _ he
      rw [Nat.mul_succ] at h2; omega
    rw [mergeLanes_getLsbD _ _ _ _ hb, laneMask_getLsbD f g e j he hj]
    have hm : (mkVec f h).getLsbD (fmtWidth f * e + j) = (h e % 2 ^ fmtWidth f).testBit j := by
      have := elem_testBit f (mkVec f h) e j
      rw [elem_mkVec f h e he] at this
      simp [this, hj]
    rw [hm]
    cases g.getLsbD (laneOf f e)
    · simp [hj, elem_testBit]
    · simp [hj]
  · have : ∀ x : Nat, x < 2 ^ fmtWidth f → x.testBit j = false := fun x hx =>
      Nat.testBit_lt_two_pow (Nat.lt_of_lt_of_le hx (Nat.pow_le_pow_right (by decide) (by omega)))
    simp only [hj, decide_false, Bool.false_and]
    split
    · rw [this _ (Nat.mod_lt _ (Nat.two_pow_pos _))]
    · rw [elem_testBit]; simp [hj]

end Sys2Proof.Machine
end

