-- ==== Sys2Proof/Machine/ZwixaLex.lean ====
section
/-! DEFINITION. Zwixa sources: lines (R91), tokens (R92) and integer expressions (R99, R100). A source that
breaks a rule has no value but the words that say why. -/

namespace Sys2Proof.Zwixa

/-- What a rule asks for, or what is wrong. -/
abbrev Res (α : Type) := Except String α

/-- A float token (R92): a decimal with how many of its digits stand behind the point and an exponent, or inf, or
nan. -/
inductive Flt where
  | dec (digits : Nat) (frac : Nat) (exp : Int)
  | inf
  | nan
  deriving DecidableEq, Repr

/-- A token (R92). -/
inductive Tok where
  | id (s : String)
  | int (n : Nat)
  | float (x : Flt)
  | p (s : String)
  deriving DecidableEq, Repr

/-- A token, and whether a blank stands before it (R93). -/
structure Token where
  tok : Tok
  blank : Bool
  deriving DecidableEq, Repr

/-- The bytes that a source may hold beside its line ends (R91). -/
def sourceByte (b : Nat) : Bool := b == 0x09 || (0x20 ≤ b && b ≤ 0x7E)

/-- A source cut into lines at LF or CR LF, with the rest of the line being read (R91). -/
def cutLines : List Nat → List Char → Res (List (List Char))
  | [], cur => .ok (if cur.isEmpty then [] else [cur.reverse])
  | 0x0D :: 0x0A :: bs, cur => (cutLines bs []).map (cur.reverse :: ·)
  | 0x0A :: bs, cur => (cutLines bs []).map (cur.reverse :: ·)
  | b :: bs, cur => if sourceByte b then cutLines bs (Char.ofNat b :: cur) else .error "a byte that no source holds"

/-- The lines of a source, none longer than 4,096 characters (R91). -/
def sourceLines (src : List Nat) : Res (List (List Char)) := do
  let ls ← cutLines src []
  if ls.all fun l => l.length ≤ 4096 then .ok ls else .error "a line of more than 4,096 characters"

def isLetter (c : Char) : Bool := ('a' ≤ c && c ≤ 'z') || ('A' ≤ c && c ≤ 'Z')
def isDigit (c : Char) : Bool := '0' ≤ c && c ≤ '9'
def isIdStart (c : Char) : Bool := isLetter c || c == '_' || c == '.'
def isIdChar (c : Char) : Bool := isIdStart c || isDigit c

/-- A letter in upper case. -/
def upper (c : Char) : Char := if 'a' ≤ c && c ≤ 'z' then Char.ofNat (c.toNat - 32) else c

/-- A text in upper case. -/
def upperS (s : String) : String := String.ofList (s.toList.map upper)

/-- The value of a digit of any base up to 16. -/
def digitVal (c : Char) : Nat :=
  if isDigit c then c.toNat - 48 else if 'a' ≤ c && c ≤ 'f' then c.toNat - 87
  else if 'A' ≤ c && c ≤ 'F' then c.toNat - 55 else 16

/-- Digits of a base from the front of a text, one "_" allowed between two of them: their value, how many there
are, and what follows. -/
def takeDigits (base : Nat) : List Char → Nat → Nat → Nat × Nat × List Char
  | c :: d :: cs, v, n =>
    if digitVal c < base then takeDigits base (d :: cs) (v * base + digitVal c) (n + 1)
    else if c == '_' && 0 < n && digitVal d < base then takeDigits base cs (v * base + digitVal d) (n + 1)
    else (v, n, c :: d :: cs)
  | [c], v, n => if digitVal c < base then (v * base + digitVal c, n + 1, []) else (v, n, [c])
  | [], v, n => (v, n, [])

/-- Decimal digits without "_", of which a float is made. -/
def takePlain : List Char → Nat → Nat → Nat × Nat × List Char
  | c :: cs, v, n => if isDigit c then takePlain cs (v * 10 + digitVal c) (n + 1) else (v, n, c :: cs)
  | [], v, n => (v, n, [])

/-- The exponent of a float, if one follows (R92). -/
def takeExp : List Char → Int × List Char
  | e :: cs =>
    if e == 'e' || e == 'E' then
      let (neg, ds) := match cs with | '-' :: ds => (true, ds) | '+' :: ds => (false, ds) | ds => (false, ds)
      let (v, n, rest) := takePlain ds 0 0
      if n = 0 then (0, e :: cs) else (if neg then -(v : Int) else v, rest)
    else (0, e :: cs)
  | [] => (0, [])

/-- A number at the front of a text: a float where digits, a point and digits stand, an integer else (R92). Whether
0X and 0B open an integer as 0x and 0b do is the model's choice. (Log 128: DESIGN CHOICE) -/
def takeNumber (cs : List Char) : Tok × List Char :=
  let (v, n, rest) := takePlain cs 0 0
  match rest with
  | '.' :: d :: ds =>
    if 0 < n && isDigit d then
      let (w, m, tail) := takePlain (d :: ds) v 0
      let (e, tail) := takeExp tail
      (.float (.dec w m e), tail)
    else let (v, _, rest) := takeDigits 10 cs 0 0; (.int v, rest)
  | _ =>
    let based := fun (b : Nat) (ds : List Char) =>
      let (v, n, rest) := takeDigits b ds 0 0
      if n = 0 then none else some (Tok.int v, rest)
    let hex := match cs with
      | '0' :: x :: ds => if x == 'x' || x == 'X' then based 16 ds else if x == 'b' || x == 'B' then based 2 ds else none
      | _ => none
    match hex with
    | some r => r
    | none => let (v, _, rest) := takeDigits 10 cs 0 0; (.int v, rest)

/-- The characters of an identifier at the front of a text. -/
def takeIdent : List Char → List Char × List Char
  | c :: cs => if isIdChar c then let (a, b) := takeIdent cs; (c :: a, b) else ([], c :: cs)
  | [] => ([], [])

/-- An identifier's token: inf and nan are floats in any mix of case (R92). -/
def identTok (s : List Char) : Tok :=
  let t := String.ofList s
  if upperS t == "INF" then .float .inf else if upperS t == "NAN" then .float .nan else .id t

/-- The punctuation at the front of a text, the longest first (R92). -/
def takePunct (cs : List Char) : Option (String × List Char) :=
  match cs with
  | c :: d :: rest =>
    if ["||", "<<", "<=", ">>", ">=", "==", "!="].contains (String.ofList [c, d]) then some (String.ofList [c, d], rest)
    else if "()[],:!+-*/%<>&^|~=$".toList.contains c then some (String.ofList [c], d :: rest) else none
  | [c] => if "()[],:!+-*/%<>&^|~=$".toList.contains c then some (String.ofList [c], []) else none
  | [] => none

/-- The tokens of a line; a comment runs to its end (R92). -/
def tokensFrom : Nat → Bool → List Char → Res (List Token)
  | 0, _, _ => .ok []
  | _, _, [] => .ok []
  | fuel + 1, blank, c :: cs =>
    if c == ' ' || c == '\t' then tokensFrom fuel true cs
    else if c == ';' || (c == '/' && cs.head? == some '/') then .ok []
    else if isDigit c then
      let (t, rest) := takeNumber (c :: cs)
      (tokensFrom fuel false rest).map (⟨t, blank⟩ :: ·)
    else if isIdStart c then
      let (s, rest) := takeIdent (c :: cs)
      (tokensFrom fuel false rest).map (⟨identTok s, blank⟩ :: ·)
    else
      match takePunct (c :: cs) with
      | some (s, rest) => (tokensFrom fuel false rest).map (⟨.p s, blank⟩ :: ·)
      | none => .error "a character that begins no token"

def tokens (line : List Char) : Res (List Token) := tokensFrom (line.length + 1) true line

/-- Expressions (R99): `here` is "$". -/
inductive Expr where
  | num (v : Word)
  | sym (s : String)
  | here
  | neg (e : Expr)
  | inv (e : Expr)
  | not (e : Expr)
  | bin (op : String) (a b : Expr)
  deriving DecidableEq, Repr

/-- The level of a binary operator, the loosest lowest (R99). -/
def level : String → Option Nat
  | "|" => some 1
  | "^" => some 2
  | "&" => some 3
  | "==" => some 4
  | "!=" => some 4
  | "<" => some 5
  | "<=" => some 5
  | ">" => some 5
  | ">=" => some 5
  | "<<" => some 6
  | ">>" => some 6
  | "+" => some 7
  | "-" => some 7
  | "*" => some 8
  | "/" => some 8
  | "%" => some 8
  | _ => none

mutual
/-- An operand of an expression at the front of the tokens: a number, a symbol, "$", a parenthesis, or a unary
operator and its operand. -/
def parseUnary : Nat → List Token → Res (Expr × List Token)
  | 0, _ => .error "an expression too deep"
  | fuel + 1, ts =>
    match ts with
    | ⟨.int n, _⟩ :: r => .ok (.num (BitVec.ofNat 64 n), r)
    | ⟨.id s, _⟩ :: r => .ok (.sym s, r)
    | ⟨.p "$", _⟩ :: r => .ok (.here, r)
    | ⟨.p "-", _⟩ :: r => (parseUnary fuel r).map fun (e, r) => (.neg e, r)
    | ⟨.p "~", _⟩ :: r => (parseUnary fuel r).map fun (e, r) => (.inv e, r)
    | ⟨.p "!", _⟩ :: r => (parseUnary fuel r).map fun (e, r) => (.not e, r)
    | ⟨.p "(", _⟩ :: r =>
      match parseBinary fuel 1 r with
      | .ok (e, ⟨.p ")", _⟩ :: r) => .ok (e, r)
      | .ok _ => .error "a parenthesis is not closed"
      | .error x => .error x
    | _ => .error "an expression is expected"

/-- An expression of operators of a level or tighter ones. -/
def parseBinary : Nat → Nat → List Token → Res (Expr × List Token)
  | 0, _, _ => .error "an expression too deep"
  | fuel + 1, lv, ts => do
    let (e, r) ← parseUnary fuel ts
    parseTail fuel lv e r

/-- The operators of a level or tighter ones that follow an operand, associated to the left. -/
def parseTail : Nat → Nat → Expr → List Token → Res (Expr × List Token)
  | 0, _, _, _ => .error "an expression too deep"
  | fuel + 1, lv, e, ts =>
    match ts with
    | ⟨.p op, _⟩ :: r =>
      match level op with
      | none => .ok (e, ts)
      | some k =>
        if k < lv then .ok (e, ts)
        else
          match parseBinary fuel (k + 1) r with
          | .error x => .error x
          | .ok (b, r) => parseTail fuel lv (.bin op e b) r
    | _ => .ok (e, ts)
end

/-- All of a list of tokens as one expression. -/
def parseExpr (ts : List Token) : Res Expr :=
  match parseBinary (4 * ts.length + 8) 1 ts with
  | .ok (e, []) => .ok e
  | .ok _ => .error "tokens follow an expression"
  | .error x => .error x

/-- A comparison's value (R99). -/
def truth (b : Bool) : Word := if b then 1 else 0

/-- A binary operator on 64-bit values (R99). While symbols are not settled, `strict` is false, and an operand that
no operator takes gives 0. -/
def evalBin (strict : Bool) (op : String) (a b : Word) : Res Word :=
  let if_ := fun (ok : Bool) (v : Word) (what : String) =>
    if ok then Except.ok v else if strict then .error what else .ok 0
  match op with
  | "*" => .ok (a * b)
  | "/" => if_ (b != 0) (a.sdiv b) "a division by zero"
  | "%" => if_ (b != 0) (a.srem b) "a division by zero"
  | "+" => .ok (a + b)
  | "-" => .ok (a - b)
  | "<<" => if_ (b.toNat < 64) (a <<< b.toNat) "a shift count outside 0 to 63"
  | ">>" => if_ (b.toNat < 64) (a.sshiftRight b.toNat) "a shift count outside 0 to 63"
  | "<" => .ok (truth (a.slt b))
  | "<=" => .ok (truth (a.sle b))
  | ">" => .ok (truth (b.slt a))
  | ">=" => .ok (truth (b.sle a))
  | "==" => .ok (truth (a == b))
  | "!=" => .ok (truth (a != b))
  | "&" => .ok (a &&& b)
  | "^" => .ok (a ^^^ b)
  | "|" => .ok (a ||| b)
  | _ => .error "no such operator"

/-- The value of an expression at an offset, with the symbols' values (R99, R100). -/
def Expr.eval (look : String → Res Word) (here : Word) (strict : Bool) : Expr → Res Word
  | .num v => .ok v
  | .sym s => look s
  | .here => .ok here
  | .neg e => (e.eval look here strict).map (- ·)
  | .inv e => (e.eval look here strict).map (~~~ ·)
  | .not e => (e.eval look here strict).map fun v => truth (v == 0)
  | .bin op a b => do evalBin strict op (← a.eval look here strict) (← b.eval look here strict)

/-- The symbols that an expression names. -/
def Expr.syms : Expr → List String
  | .num _ => []
  | .sym s => [s]
  | .here => []
  | .neg e => e.syms
  | .inv e => e.syms
  | .not e => e.syms
  | .bin _ a b => a.syms ++ b.syms

end Sys2Proof.Zwixa
end

