-- ==== Sys2Proof/Machine/ZwixaForms.lean ====
section
/-! DEFINITION. The forms of Zwixa mnemonics: how suffixes (R98) and operands (R96, R97, R200 and the Syntax
columns of the instruction chapters) fill the fields of a slot word (R115 to R118). -/

namespace Sys2Proof.Zwixa

/-- Fields of a word: each value with its lowest bit. -/
abbrev Fields := List (Nat × Nat)

/-- The word of some fields. -/
def Fields.word (fs : Fields) : Nat := fs.foldl (fun w (lo, v) => w ||| v * 2 ^ lo) 0

/-- A suffix position (R98): one of some names must stand there, or may. The name's value goes to a field. -/
inductive Suf where
  | one (lo : Nat) (names : List (String × Nat))
  | opt (lo : Nat) (names : List (String × Nat))
  deriving DecidableEq, Repr

/-- An operand and the field or fields that it fills. -/
inductive Arg where
  /-- sN or aN written. -/
  | sdst (lo : Nat)
  /-- sN, aN or iN read. -/
  | ssrc (lo : Nat)
  /-- aN in a field of 5 bits. -/
  | areg (lo : Nat)
  /-- aN in a scalar field. -/
  | aregS (lo : Nat)
  | preg (lo : Nat)
  | xreg (lo : Nat)
  /-- vN or the producer end kN. -/
  | vdst (lo : Nat)
  /-- vN, tN or a queue form. -/
  | vsrc (lo : Nat)
  | vreg (lo : Nat)
  /-- A queue by name or number. -/
  | queue (lo : Nat)
  | acc
  | row
  | sys (lo : Nat)
  | fmt (lo : Nat)
  /-- An unsigned value from lo to hi, less `sub`. -/
  | uint (at_ : Nat) (lo hi sub : Nat)
  /-- A signed value of some bits. -/
  | sint (at_ bits : Nat)
  /-- A place in the code, as its distance from the bundle (R100). -/
  | place
  /-- A signed C-slot immediate; a distance where it names a label (R100). -/
  | disp
  /-- A C-slot immediate from lo to hi; a distance where it names a label, in the 22 bits of IMM (R100, R116). -/
  | imm (lo hi : Nat)
  /-- An unsigned value up to hi whose low bits go to one field and whose rest goes to another. -/
  | split (bits lowAt restAt hi : Nat)
  /-- `[aB + sI ± off]`, `[aB ± off]` in units of a size, `[aB + sI]`, `[aB]`. -/
  | mem (ab : Nat) (index : Option Nat) (off : Option (Nat × Nat × Nat))
  deriving DecidableEq, Repr

/-- A form of a mnemonic: the slots that it may take, its opcode, what its suffixes and operands are, and the
bits that it fixes (R121 to R129). -/
structure Form where
  name : String
  slots : List Nat
  op : Nat
  sufs : List Suf := []
  args : List Arg := []
  opts : List Arg := []
  fixed : Nat := 0
  deriving DecidableEq, Repr

/-- What an operand's value may depend on: symbols, the labels among them, the bundle's offset, and whether the operation stands
in the C slot. Where the layout has not settled, `strict` is false and a value that does not fit is cut. -/
structure Env where
  look : String → Res Word
  isLabel : String → Bool
  here : Word
  strict : Bool
  inC : Bool := false

/-- A demand that a settled layout must meet. -/
def Env.need (e : Env) (ok : Bool) (what : String) : Res Unit := if ok || !e.strict then .ok () else .error what

def Env.value (e : Env) (ts : List Token) : Res Word := do (← parseExpr ts).eval e.look e.here e.strict

/-- The decimal number that some characters write, without a leading zero. -/
def decimal (cs : List Char) : Option Nat :=
  if cs.isEmpty || !cs.all isDigit || (1 < cs.length && cs.head? == some '0') then none
  else some (takePlain cs 0 0).1

/-- The registers of R40: the letter of each numbered class and its highest number. -/
def regClasses : List (Char × Nat) :=
  [('S', 63), ('A', 31), ('I', 5), ('P', 15), ('T', 15), ('V', 1535), ('K', 15), ('X', 15)]

/-- A register's letter and number, from its name in any case (R40, R92, R97); lr is s63. -/
def regName (s : String) : Option (Char × Nat) :=
  match s.toList.map upper with
  | ['L', 'R'] => some ('S', 63)
  | c :: ds =>
    match regClasses.lookup c, decimal ds with
    | some hi, some n => if n ≤ hi then some (c, n) else none
    | _, _ => none
  | [] => none

/-- A single token that names a register. -/
def regTok (ts : List Token) : Option (Char × Nat) :=
  match ts with
  | [⟨.id s, _⟩] => regName s
  | _ => none

/-- The number of a queue register kN. -/
def queueName (s : String) : Option Nat :=
  match regName s with
  | some ('K', n) => some n
  | _ => none

/-- The number of a queue that an identifier kN.a names and advances (R93). -/
def advancing (s : String) : Option Nat :=
  match (s.toList.map upper).reverse with
  | 'A' :: '.' :: cs => queueName (String.ofList cs.reverse)
  | _ => none

/-- A queue operand kN, kN.a, kN+j or kN+j.a, in which no blank stands (R93, R97). (Log 150: DESIGN CHOICE) -/
def kform (ts : List Token) : Res (Option (Nat × Nat × Bool)) :=
  let ok := fun (n j : Nat) (a : Bool) =>
    if j ≤ 7 then .ok (some (n, j, a)) else .error "a queue operand outside its range"
  match ts with
  | [⟨.id s, _⟩] =>
    match queueName s, advancing s with
    | some n, _ => ok n 0 false
    | _, some n => ok n 0 true
    | _, _ => .ok none
  | [⟨.id s, _⟩, ⟨.p "+", b⟩, ⟨.int j, b'⟩] =>
    match queueName s with
    | some n => if b || b' then .error "a blank inside a queue operand" else ok n j false
    | none => .ok none
  | [⟨.id s, _⟩, ⟨.p "+", b⟩, ⟨.int j, b'⟩, ⟨.id t, b''⟩] =>
    match queueName s with
    | some n =>
      if upperS t != ".A" then .error "not a queue operand"
      else if b || b' || b'' then .error "a blank inside a queue operand" else ok n j true
    | none => .ok none
  | _ => .ok none

/-- The numbers of the system registers (R61). -/
def sysNumber (s : String) : Option Nat :=
  let indexed := fun (base : Nat) (ds : List Char) =>
    match decimal ds with
    | some n => if n ≤ 15 then some (base + n) else none
    | none => none
  match upperS s with
  | "CORE.ID" => some 0x000
  | "TASK.ID" => some 0x001
  | "GEN.CUR" => some 0x002
  | "CYCLE" => some 0x003
  | "LOOP.DEPTH" => some 0x004
  | "PARK.THRESH" => some 0x005
  | "SPLIT.CUR" => some 0x006
  | "VOLLEY.FAULT" => some 0x007
  | "TRAP.CAUSE" => some 0x010
  | "TRAP.PC" => some 0x011
  | "TRAP.SLOTS" => some 0x012
  | "TRAP.ADDR" => some 0x013
  | "TRAP.INFO" => some 0x014
  | "TRAP.VEC" => some 0x015
  | t =>
    match t.toList with
    | 'K' :: 'F' :: 'M' :: 'T' :: '.' :: ds => indexed 0x040 ds
    | 'K' :: 'S' :: 'T' :: 'A' :: 'T' :: '.' :: ds => indexed 0x050 ds
    | _ => none

/-- The V-slot format names by code (R98, R119). -/
def vFormats : List (String × Nat) :=
  [("F32", 0), ("BF16", 1), ("F16", 2), ("E4M3", 3), ("E5M2", 4), ("E2M1", 5), ("I32", 6), ("I16", 7), ("I8", 8), ("I64", 9)]

/-- The V-slot formats of some codes. -/
def vCodes (cs : List Nat) : List (String × Nat) := vFormats.filter fun x => cs.contains x.2

/-- The paired formats by code, those whose operands are scaled and the others (R98, R82). -/
def scaledFormats : List (String × Nat) := [("E4M3", 2), ("E5M2", 3), ("E4M3E5M2", 4), ("E2M1", 5), ("E4M3VQ2", 6)]
def unscaledFormats : List (String × Nat) := [("BF16", 0), ("F16", 1), ("I8", 7)]

/-- A register number of a class within its range. -/
def ranged (n hi code : Nat) : Res Nat := if n ≤ hi then .ok code else .error "no such register"

/-- A scalar operand's code (R43, R97). -/
def scalarCode (read : Bool) (ts : List Token) : Res Nat :=
  match regTok ts with
  | some ('S', n) => ranged n 63 n
  | some ('A', n) => ranged n 31 (64 + n)
  | some ('I', n) => if read then ranged n 5 (96 + n) else .error "an index register is not written"
  | _ => .error "a scalar register is expected"

/-- A register of one class. -/
def classCode (c : Char) (hi : Nat) (ts : List Token) : Res Nat :=
  match regTok ts with
  | some (d, n) => if d == c then ranged n hi n else .error "another kind of register is expected"
  | none => .error "a register is expected"

/-- A vector operand's code (R44, R97): a destination takes vN or kN. -/
def vectorCode (read : Bool) (ts : List Token) : Res Nat := do
  match ← kform ts with
  | some (n, j, a) =>
    if read || (j == 0 && !a) then .ok (1552 + 16 * (2 * j + a.toNat) + n) else .error "only kN is a destination"
  | none =>
    match regTok ts with
    | some ('V', n) => ranged n 1535 n
    | some ('T', n) => if read then ranged n 15 (1536 + n) else .error "a result-queue entry is not written"
    | _ => .error "a vector operand is expected"

/-- An operand's tokens as an expression, in which no register and no kform stands (R93). -/
def operandExpr (ts : List Token) : Res Expr := do
  let x ← parseExpr ts
  if x.syms.any fun s => (regName s).isSome || (advancing s).isSome then .error "an expression is expected" else .ok x

/-- The value of an operand that is an expression, as it stands. -/
def Env.plain (e : Env) (ts : List Token) : Res Word := do (← operandExpr ts).eval e.look e.here e.strict

/-- An operand names a label. -/
def Env.namesLabel (e : Env) (ts : List Token) : Res Bool := do .ok ((← operandExpr ts).syms.any e.isLabel)

/-- The value of a C-slot operand: one that names a label, with whatever terms, is the distance from its bundle: the value of the
whole expression less the bundle's offset (R100). (Log 143: DESIGN CHOICE) -/
def Env.distance (e : Env) (ts : List Token) : Res Word := do
  let v ← e.plain ts
  .ok (if ← e.namesLabel ts then v - e.here else v)

/-- The value of an operand of the operation's slot (R99, R100). (Log 143: DESIGN CHOICE) -/
def Env.number (e : Env) (ts : List Token) : Res Word := if e.inC then e.distance ts else e.plain ts

/-- A value within a range, less `sub`. -/
def Env.unsigned (e : Env) (v : Word) (lo hi sub : Nat) : Res Nat := do
  e.need ((lo : Int) ≤ v.toInt && v.toInt ≤ hi) "a value outside its field"
  .ok ((v.toInt.toNat - sub) % (hi - sub + 1))

/-- A value in a signed field of some bits (R99). -/
def Env.signed (e : Env) (v : Word) (bits : Nat) : Res Nat := do
  e.need (-(2 ^ (bits - 1) : Int) ≤ v.toInt && v.toInt < 2 ^ (bits - 1)) "a value outside its field"
  .ok (v.toNat % 2 ^ bits)

/-- acc(e) or acc(e + aN) (R94, R97). -/
def Env.accFields (e : Env) (ts : List Token) : Res Fields := do
  match ts with
  | ⟨.id s, _⟩ :: ⟨.p "(", _⟩ :: rest =>
    if upperS s != "ACC" then .error "an accumulator row is expected"
    else
      match rest.reverse with
      | ⟨.p ")", _⟩ :: ⟨.id a, b⟩ :: ⟨.p "+", _⟩ :: inner =>
        match regName a with
        | some ('A', n) =>
          let k ← ranged n 31 n
          .ok [(23, ← e.unsigned (← e.number inner.reverse) 0 3071 0), (35, k), (40, 1)]
        | some _ => .error "an accumulator row adds an address register"
        | none => .ok [(23, ← e.unsigned (← e.number (inner.reverse ++ [⟨.p "+", false⟩, ⟨.id a, b⟩])) 0 3071 0)]
      | ⟨.p ")", _⟩ :: inner => .ok [(23, ← e.unsigned (← e.number inner.reverse) 0 3071 0)]
      | _ => .error "an accumulator row is expected"
  | _ => .error "an accumulator row is expected"

/-- The parts of a memory operand (R94, R97): its base, its index and its offset's tokens with the offset's sign. -/
def memParts (ts : List Token) : Res (Nat × Option (List Token) × Option (Bool × List Token)) := do
  let offset := fun (ts : List Token) =>
    match ts with
    | [] => .ok none
    | ⟨.p "+", _⟩ :: r => .ok (some (false, r))
    | ⟨.p "-", _⟩ :: r => .ok (some (true, r))
    | _ => .error "a memory operand is malformed"
  match ts with
  | ⟨.p "[", _⟩ :: base :: rest =>
    match rest.reverse with
    | ⟨.p "]", _⟩ :: inner =>
      let ab ← classCode 'A' 31 [base]
      match inner.reverse with
      | ⟨.p "+", x⟩ :: i :: r =>
        if (regTok [i]).isSome then .ok (ab, some [i], ← offset r)
        else .ok (ab, none, ← offset (⟨.p "+", x⟩ :: i :: r))
      | r => .ok (ab, none, ← offset r)
    | _ => .error "a memory operand is expected"
  | _ => .error "a memory operand is expected"

/-- A memory operand's fields. An offset goes to a signed field in units of a size; where the form has no field for
it, it is zero. (Log 112: DEDUCED) -/
def Env.memFields (e : Env) (ab : Nat) (index : Option Nat) (off : Option (Nat × Nat × Nat)) (ts : List Token) :
    Res Fields := do
  let (b, i, o) ← memParts ts
  let fi ← match index, i with
    | _, none => .ok []
    | some lo, some t => (scalarCode true t).map fun v => [(lo, v)]
    | none, some _ => .error "no index register stands in this memory operand"
  let v ← match o with
    | none => .ok 0
    | some (m, t) => (e.number t).map fun (v : Word) => if m then -v else v
  let fo ← match off with
    | some (lo, bits, unit) => do
      e.need (v.toInt % unit == 0) "an offset that is no multiple of its unit"
      .ok [(lo, ← e.signed (v.sdiv (BitVec.ofNat 64 unit)) bits)]
    | none => do
      e.need (v == 0) "no offset stands in this memory operand"
      .ok []
  .ok ((ab, b) :: fi ++ fo)

/-- The fields that an operand fills. (Log 112: DEDUCED; 143: DESIGN CHOICE; 148: DESIGN CHOICE) -/
def Env.arg (e : Env) (ts : List Token) : Arg → Res Fields
  | .sdst lo => (scalarCode false ts).map fun v => [(lo, v)]
  | .ssrc lo => (scalarCode true ts).map fun v => [(lo, v)]
  | .areg lo => (classCode 'A' 31 ts).map fun v => [(lo, v)]
  | .aregS lo => (classCode 'A' 31 ts).map fun v => [(lo, 64 + v)]
  | .preg lo => (classCode 'P' 15 ts).map fun v => [(lo, v)]
  | .xreg lo => (classCode 'X' 15 ts).map fun v => [(lo, v)]
  | .vdst lo => (vectorCode false ts).map fun v => [(lo, v)]
  | .vsrc lo => (vectorCode true ts).map fun v => [(lo, v)]
  | .vreg lo => (classCode 'V' 1535 ts).map fun v => [(lo, v)]
  | .queue lo =>
    match regTok ts with
    | some ('K', n) => (ranged n 15 n).map fun v => [(lo, v)]
    | _ => do .ok [(lo, ← e.unsigned (← e.number ts) 0 15 0)]
  | .acc => e.accFields ts
  | .row =>
    match regTok ts with
    | some ('I', 0) => .ok [(47, 1)]
    | _ => do .ok [(41, ← e.unsigned (← e.number ts) 0 63 0)]
  | .sys lo =>
    match ts with
    | [⟨.id s, _⟩] =>
      match sysNumber s with
      | some n => .ok [(lo, n)]
      | none => .error "no such system register"
    | _ => .error "a system register is expected"
  | .fmt lo =>
    match ts with
    | [⟨.id s, _⟩] =>
      match vFormats.lookup (upperS s) with
      | some n => .ok [(lo, n)]
      | none => .error "no such format"
    | _ => .error "a format is expected"
  | .uint at_ lo hi sub => do .ok [(at_, ← e.unsigned (← e.number ts) lo hi sub)]
  | .sint at_ bits => do .ok [(at_, ← e.signed (← e.number ts) bits)]
  | .place => do .ok [(26, ← e.signed ((← e.plain ts) - e.here) 22)]
  | .disp => do .ok [(26, ← e.signed (← e.distance ts) 22)]
  | .imm lo hi => do
    let v ← e.distance ts
    let back := (← e.namesLabel ts) && v.toInt < 0 && -(2 ^ 21 : Int) ≤ v.toInt
    .ok [(26, ← e.unsigned (if back then v + 2 ^ 22 else v) lo hi 0)]
  | .split bits lowAt restAt hi => do
    let v ← e.unsigned (← e.number ts) 0 hi 0
    .ok [(lowAt, v % 2 ^ bits), (restAt, v / 2 ^ bits)]
  | .mem ab index off => e.memFields ab index off ts

/-- The fields of a form's suffixes, or none where the suffixes are not this form's (R98). -/
def sufFields : List Suf → List String → Option Fields
  | [], [] => some []
  | [], _ :: _ => none
  | .one lo names :: r, s :: ss =>
    match names.lookup s with
    | some v => (sufFields r ss).map ((lo, v) :: ·)
    | none => none
  | .one _ _ :: _, [] => none
  | .opt lo names :: r, s :: ss =>
    match names.lookup s with
    | some v => (sufFields r ss).map ((lo, v) :: ·)
    | none => sufFields r (s :: ss)
  | .opt _ _ :: r, [] => sufFields r []

/-- Operands against a form's operands, the optional ones last. -/
def Env.argFields (e : Env) : List Arg → List Arg → List (List Token) → Res Fields
  | [], [], [] => .ok []
  | [], [], _ :: _ => .error "too many operands"
  | a :: as_, os, t :: ts => do .ok ((← e.arg t a) ++ (← e.argFields as_ os ts))
  | _ :: _, _, [] => .error "too few operands"
  | [], _ :: _, [] => .ok []
  | [], o :: os, t :: ts => do .ok ((← e.arg t o) ++ (← e.argFields [] os ts))

/-- A group of forms that differ in mnemonic and opcode alone. -/
def group (slots : List Nat) (args : List Arg) (ops : List (String × Nat)) : List Form :=
  ops.map fun (n, o) => { name := n, slots := slots, op := o, args := args }

/-- A C-slot form (R122). -/
def cForm (name : String) (op : Nat) (args : List Arg) : Form := { name := name, slots := [0], op := op, args := args }

/-- C slot: R122 and the Syntax entries of R138 to R157. -/
def cForms : List Form := [
  cForm "NOP" 0x00 [], cForm "BR" 0x01 [.place], cForm "BRL" 0x02 [.place],
  { cForm "JMP" 0x03 [.ssrc 12] with opts := [.disp] }, { cForm "JMPL" 0x04 [.ssrc 12] with opts := [.disp] },
  { cForm "RET" 0x1F [] with fixed := 63 * 2 ^ 12 },
  cForm "LOOP" 0x05 [.ssrc 12, .place], cForm "LOOPI" 0x06 [.split 7 12 19 16383, .place],
  { cForm "LOOP" 0x07 [.ssrc 12, .uint 19 1 8 0, .place] with sufs := [.one 0 [("P", 0)]] },
  cForm "LBRK" 0x08 [], cForm "LCONT" 0x09 [], cForm "LDELTA" 0x0A [.aregS 19, .imm 0 5, .ssrc 12],
  { cForm "SYNC" 0x0B [.imm 1 15] with sufs := [.opt 30 [("LAND", 1)]] },
  cForm "SAFE" 0x0C [.imm 0 (2 ^ 22 - 1)], cForm "WAITX" 0x0D [.imm 0 7, .ssrc 12],
  { cForm "PARK" 0x0E [] with sufs := [.one 26 [("YIELD", 0)]] },
  { cForm "PARK" 0x0E [.ssrc 12] with sufs := [.one 26 [("TIME", 1)]] },
  { cForm "PARK" 0x0E [.ssrc 12, .ssrc 19] with sufs := [.one 26 [("WORD", 2)]] },
  { cForm "PARK" 0x0E [.queue 30] with sufs := [.one 26 [("QUEUE", 3)]] },
  cForm "TSPAWN" 0x0F [.imm 0 15, .uint 30 0 3 0, .ssrc 12, .ssrc 19],
  cForm "TEXIT" 0x10 [], cForm "HALT" 0x1E [.imm 0 65535],
  cForm "BARQ" 0x11 [.imm 0 15, .ssrc 12], cForm "BARD" 0x12 [.imm 0 15, .ssrc 12],
  { cForm "BARA" 0x13 [.imm 0 15] with sufs := [.opt 30 [("D", 1)]] },
  { cForm "BARW" 0x14 [.imm 0 15] with sufs := [.opt 30 [("D", 1)]] },
  cForm "PGWAIT" 0x15 [.ssrc 12], cForm "TRAP" 0x16 [.imm 0 (2 ^ 22 - 1)], cForm "ERET" 0x17 [],
  cForm "MFS" 0x18 [.sdst 12, .sys 26], cForm "MTS" 0x19 [.sys 26, .ssrc 12],
  cForm "GENINC" 0x1A [.sdst 19, .ssrc 12], cForm "GENRD" 0x1B [.sdst 19, .ssrc 12],
  { cForm "SWEEP" 0x1C [.ssrc 12, .uint 30 0 1 0] with opts := [.imm 0 15] },
  cForm "CKPT" 0x1D [.ssrc 12]]

/-- S slot: R124 and the Syntax entries of R158 to R164. -/
def sForms : List Form :=
  { name := "NOP", slots := [1], op := 0 } ::
  group [1] [.sdst 12, .ssrc 19, .ssrc 26]
    [("ADD", 0x01), ("SUB", 0x02), ("MUL", 0x03), ("MULHU", 0x04), ("MULHS", 0x05), ("DIVU", 0x06), ("DIVS", 0x07),
     ("REMU", 0x08), ("REMS", 0x09), ("AND", 0x0A), ("OR", 0x0B), ("XOR", 0x0C), ("ANDN", 0x0D), ("SHL", 0x0E),
     ("SHR", 0x0F), ("SRA", 0x10), ("ROL", 0x11), ("MIN", 0x12), ("MAX", 0x13), ("MINU", 0x14), ("MAXU", 0x15),
     ("FADD", 0x40), ("FMUL", 0x41), ("FMIN", 0x42), ("FMAX", 0x43)] ++
  group [1] [.sdst 12, .ssrc 19] [("CLZ", 0x16), ("CTZ", 0x17), ("POPC", 0x18), ("MOV", 0x1B), ("FTOI", 0x44), ("ITOF", 0x45)] ++
  group [1] [.sdst 12, .ssrc 19, .uint 33 1 64 0] [("SEXT", 0x19), ("ZEXT", 0x1A)] ++
  [{ name := "ADDX", slots := [1], op := 0x1C, args := [.sdst 12, .ssrc 19, .ssrc 26], opts := [.uint 33 0 7 0] }] ++
  group [1] [.sdst 12, .ssrc 19, .sint 33 15] [("ADDI", 0x20), ("ANDI", 0x21), ("ORI", 0x22), ("XORI", 0x23)] ++
  group [1] [.sdst 12, .ssrc 19, .uint 33 0 63 0] [("SHLI", 0x24), ("SHRI", 0x25), ("SRAI", 0x26)] ++
  group [1] [.sdst 12, .sint 19 29] [("LI", 0x27), ("LIH", 0x28)] ++
  group [1] [.preg 12, .ssrc 19, .ssrc 26]
    [("CEQ", 0x30), ("CNE", 0x31), ("CLT", 0x32), ("CLE", 0x33), ("CLTU", 0x34), ("CLEU", 0x35)] ++
  group [1] [.preg 12, .ssrc 19, .sint 33 15] [("CEQI", 0x36), ("CLTI", 0x37), ("CLTUI", 0x38)] ++
  group [1] [.sdst 12, .ssrc 19, .ssrc 26, .preg 33] [("SEL", 0x39)]

/-- The rounding modes (R98, R74). -/
def rmNames : List (String × Nat) := [("RNE", 0), ("RTZ", 1), ("RUP", 2), ("RDN", 3), ("RNA", 4)]

/-- P slot: R125 and the Syntax entries of R189 to R193. -/
def pForms : List Form :=
  { name := "NOP", slots := [2], op := 0 } ::
  group [2] [.preg 12, .preg 16, .preg 20] [("PAND", 0x01), ("POR", 0x02), ("PXOR", 0x03), ("PANDN", 0x04)] ++
  group [2] [.preg 12, .preg 16] [("PNOT", 0x05), ("PANY", 0x09), ("PALL", 0x0A)] ++
  group [2] [.preg 12, .preg 16, .uint 24 0 255 0] [("PBCST", 0x08), ("PROT", 0x0B)] ++
  group [2] [.preg 12, .uint 24 0 255 0] [("PSETI", 0x06)] ++
  group [2] [.preg 12, .preg 16, .split 8 24 20 256] [("PLANES", 0x07)] ++
  group [2] [.xreg 12, .mem 16 none (some (21, 11, 64))] [("XLD", 0x10)] ++
  group [2] [.xreg 12, .uint 24 0 255 0] [("XSET", 0x11)] ++
  group [2] [.xreg 12, .xreg 16] [("XMOV", 0x12)] ++
  [{ name := "QFMT", slots := [2], op := 0x18, sufs := [.opt 24 rmNames, .opt 27 [("SAT", 1)]],
     args := [.queue 12, .fmt 16, .fmt 20] }]

/-- V-slot forms of one shape: format codes, whether a rounding mode may be named, operands (R167). -/
def vGroup (codes : List Nat) (rm : Bool) (args : List Arg) (ops : List (String × Nat)) : List Form :=
  ops.map fun (n, o) =>
    { name := n, slots := [3, 4], op := o, args := args,
      sufs := .one 56 (vCodes codes) :: if rm then [.opt 60 rmNames] else [] }

/-- The format classes of R167. -/
def codesFA : List Nat := [0, 1, 2]
def codesFL : List Nat := [0, 1, 2, 3, 4, 5]
def codesIN : List Nat := [6, 7, 8, 9]
def codesANY : List Nat := codesFL ++ codesIN

/-- V slots, arithmetic, compares and conversion: R126 and the Syntax entries of R168 to R184. -/
def vForms1 : List Form :=
  { name := "NOP", slots := [3, 4], op := 0 } ::
  vGroup codesFA true [.vdst 12, .vsrc 23, .vsrc 34] [("VADD", 0x01), ("VSUB", 0x02), ("VMUL", 0x03)] ++
  vGroup codesFA true [.vdst 12, .vsrc 23, .vsrc 34, .vsrc 45] [("VFMA", 0x04), ("VFMS", 0x05), ("VFNMA", 0x06)] ++
  vGroup codesFA false [.vdst 12, .vsrc 23, .vsrc 34] [("VMIN", 0x07), ("VMAX", 0x08)] ++
  vGroup codesFA false [.vdst 12, .vsrc 23] [("VABS", 0x09), ("VNEG", 0x0A)] ++
  vGroup codesFA true [.vdst 12, .vsrc 23]
    [("VRCP", 0x0B), ("VRSQ", 0x0C), ("VSQRT", 0x0D), ("VEXP2", 0x0E), ("VLOG2", 0x0F), ("VROUND", 0x1C)] ++
  vGroup codesFA false [.preg 12, .vsrc 23, .vsrc 34]
    [("VCMPEQ", 0x12), ("VCMPLT", 0x13), ("VCMPLE", 0x14), ("VCMPNE", 0x15)] ++
  vGroup codesIN false [.preg 12, .vsrc 23, .vsrc 34] [("VICMPEQ", 0x2B), ("VICMPLT", 0x2C)] ++
  vGroup codesFL false [.preg 12, .vsrc 23, .uint 34 0 511 0] [("VCLASS", 0x16)] ++
  vGroup codesANY false [.vdst 12, .vsrc 23, .vsrc 34, .preg 45] [("VSEL", 0x18)] ++
  vGroup codesIN false [.vdst 12, .vsrc 23, .vsrc 34]
    [("VIADD", 0x20), ("VISUB", 0x21), ("VIMUL", 0x22), ("VIMIN", 0x23), ("VIMAX", 0x24), ("VSHL", 0x28), ("VSHR", 0x29),
     ("VSRA", 0x2A)] ++
  vGroup codesANY false [.vdst 12, .vsrc 23, .vsrc 34] [("VAND", 0x25), ("VOR", 0x26), ("VXOR", 0x27)] ++
  vGroup codesIN false [.vdst 12, .vsrc 23] [("VIABS", 0x2D), ("VPOPC", 0x2E)] ++
  [{ name := "VCVT", slots := [3, 4], op := 0x19,
     sufs := [.one 56 vFormats, .one 34 vFormats, .opt 60 rmNames, .opt 38 [("SAT", 1)]],
     args := [.vdst 12, .vsrc 23], opts := [.uint 45 0 15 0] },
   { name := "VQNT", slots := [3, 4], op := 0x1A,
     sufs := [.one 56 (vCodes [3, 4, 5, 8]), .one 34 (vCodes codesFA), .opt 60 rmNames, .opt 38 [("SAT", 1)]],
     args := [.vdst 12, .vsrc 23, .vsrc 45], opts := [.uint 39 0 15 0] },
   { name := "VCBDEC", slots := [3, 4], op := 0x1B, sufs := [.one 56 (vCodes [0, 1, 2, 3])],
     args := [.vdst 12, .vsrc 23], opts := [.uint 34 0 15 0] }]

/-- V slots, data movement and reductions: R126 and the Syntax entries of R185 to R188. -/
def vForms2 : List Form :=
  vGroup codesANY false [.vdst 12, .vsrc 23] [("VMOV", 0x30)] ++
  vGroup codesANY false [.vdst 12, .vsrc 23, .uint 34 0 2047 0] [("VBCST", 0x31), ("VROTL", 0x34)] ++
  vGroup [0, 1, 2, 6, 7, 9] false [.vdst 12, .vsrc 23, .vsrc 34] [("VPERM", 0x32)] ++
  vGroup codesANY false [.vdst 12, .vsrc 23, .vsrc 34, .uint 45 0 2047 0] [("VEXTR", 0x35), ("VINS", 0x36)] ++
  vGroup codesANY false [.vdst 12, .vsrc 23, .vsrc 34, .uint 45 0 1 0] [("VZIP", 0x37), ("VUNZIP", 0x38)] ++
  vGroup (codesFA ++ codesIN) true [.vdst 12] [("VIOTA", 0x39)] ++
  vGroup codesANY false [.vdst 12, .vsrc 23, .preg 45] [("VCOMPR", 0x3A), ("VEXPND", 0x3B)] ++
  vGroup codesANY true [.vdst 12, .vsrc 23, .preg 45] [("VRSUM", 0x40)] ++
  vGroup codesANY false [.vdst 12, .vsrc 23, .preg 45] [("VRMAX", 0x41), ("VRMIN", 0x42)] ++
  vGroup [0, 6, 9] true [.vdst 12, .vsrc 23, .preg 45] [("VSCAN", 0x44)] ++
  vGroup (codesFL ++ [6, 7, 8]) true [.vdst 12, .vsrc 23, .vsrc 34, .preg 45] [("VDOT", 0x45)] ++
  vGroup (codesFL ++ [6, 7, 8]) false [.vdst 12, .vsrc 23, .preg 45] [("VARGMX", 0x46)]

/-- M-slot forms of a beat: with scale operands where the format is scaled, without them where it is not (R200). -/
def beat (name : String) (op : Nat) (args : List Arg) : List Form :=
  let f : Form := { name := name, slots := [5], op := op }
  [{ f with sufs := [.one 48 scaledFormats, .opt 60 [("OVR", 1)]], args := args ++ [.xreg 52, .xreg 56] },
   { f with sufs := [.one 48 unscaledFormats, .opt 60 [("OVR", 1)]], args := args }]

/-- M slot: R127 and the forms of R200. -/
def mForms : List Form :=
  [{ name := "NOP", slots := [5], op := 0 },
   { name := "MPUSH", slots := [5], op := 0x01, sufs := [.one 48 (unscaledFormats ++ scaledFormats)], args := [.vsrc 12, .row] },
   { name := "MPUSHT", slots := [5], op := 0x02, sufs := [.one 48 (unscaledFormats ++ scaledFormats)],
     args := [.uint 12 0 63 0, .row] }] ++
  beat "MSHIFT" 0x03 [.acc, .vsrc 12, .row] ++ beat "MSHIFTL" 0x04 [.acc, .row] ++
  beat "MSHIFTT" 0x05 [.acc, .uint 12 0 63 0, .row] ++
  [{ name := "MFLIP", slots := [5], op := 0x06 }] ++
  ([("MDRAIN", 0x07), ("MDRAINZ", 0x0A)].map fun (n, o) =>
    { name := n, slots := [5], op := o, args := [.vreg 12, .acc, .row],
      sufs := [.one 48 (vCodes [0, 1, 2, 3, 4, 5, 6, 7]), .opt 60 rmNames, .opt 63 [("SAT", 1)]] }) ++
  [{ name := "MZERO", slots := [5], op := 0x08, args := [.acc] },
   { name := "MADDV", slots := [5], op := 0x09, args := [.acc, .vsrc 12, .row],
     sufs := [.one 48 (vCodes [0, 6]), .opt 60 [("OVR", 1)]] }]

/-- Access widths (R216, R232) and vector lengths. -/
def widths : List (String × Nat) := [("B", 0), ("H", 1), ("W", 2), ("D", 3)]
def lengths : List (String × Nat) := [("L512", 1), ("L256", 2), ("L128", 3), ("L64", 4)]

/-- The operations and formats of the atomics (R227). -/
def atomNames : List (String × Nat) := [("ADD", 0), ("MIN", 1), ("MAX", 2), ("AND", 3), ("OR", 4), ("XCHG", 5), ("CAS", 6)]

/-- Memory operands of the L slot: with an index and an offset, with an offset, with an index (R215). -/
def lMem : Arg := .mem 23 (some 48) (some (28, 20, 1))
def lOff : Arg := .mem 23 none (some (28, 20, 1))
def lIndex : Arg := .mem 23 (some 48) none

/-- An L-slot form (R128). -/
def lForm (name : String) (op : Nat) (sufs : List Suf) (args : List Arg) : Form :=
  { name := name, slots := [6], op := op, sufs := sufs, args := args }

/-- L slot: R128 and the Syntax entries of R222 to R233. -/
def lForms : List Form := [
  lForm "NOP" 0x00 [] [],
  lForm "LDS" 0x01 [.one 55 widths, .opt 57 [("SX", 1)]] [.sdst 12, lMem],
  lForm "STS" 0x02 [.one 55 widths] [.ssrc 12, lMem],
  lForm "VLD" 0x03 [.opt 55 lengths] [.vreg 12, lMem], lForm "VST" 0x04 [.opt 55 lengths] [.vreg 12, lMem],
  lForm "VLDS" 0x05 [.one 55 widths] [.vreg 12, lOff, .ssrc 48], lForm "VSTS" 0x06 [.one 55 widths] [.vreg 12, lOff, .ssrc 48],
  lForm "VLDX" 0x07 [.one 55 widths] [.vreg 12, lIndex, .vreg 28], lForm "VSTX" 0x08 [.one 55 widths] [.vreg 12, lIndex, .vreg 28],
  lForm "GATHR" 0x09 [.opt 55 [("G", 1)]] [.vreg 12, .mem 23 none none, .ssrc 48, .uint 28 0 63 0, .uint 34 1 64 1],
  { lForm "GATHR" 0x09 [.opt 55 [("G", 1)], .one 56 [("R", 1)]]
      [.vreg 12, .mem 23 none none, .ssrc 48, .uint 28 0 63 0, .uint 34 1 64 1] with opts := [.preg 58] },
  lForm "ATOML" 0x0A [.one 55 atomNames, .one 58 (vCodes [0, 6, 9])] [.sdst 12, lMem],
  { lForm "LDG" 0x10 [.one 55 widths, .opt 57 [("SX", 1)]] [.sdst 12, lMem] with opts := [.preg 58] },
  lForm "STG" 0x11 [.one 55 widths] [.ssrc 12, lMem],
  { lForm "VLDG" 0x12 [.opt 55 lengths] [.vreg 12, lMem] with opts := [.preg 58] },
  lForm "VSTG" 0x13 [.opt 55 lengths] [.vreg 12, lMem],
  lForm "ATOMG" 0x14 [.one 55 atomNames, .one 58 (vCodes [0, 6, 9])] [.sdst 12, lMem],
  lForm "WATOM" 0x15 [.one 55 atomNames, .one 58 (vCodes [0, 6, 9])] [.sdst 12, lMem],
  lForm "WATOMR" 0x16 [.one 55 [("ADD", 0), ("MIN", 1), ("MAX", 2)], .one 58 (vCodes [0, 1, 6])] [.vreg 12, lMem],
  lForm "PGREQ" 0x17 [.opt 55 [("W", 1)]] [lMem],
  lForm "CDISC" 0x18 [] [lOff, .ssrc 48], lForm "CFLUSH" 0x19 [.opt 55 [("INV", 1)]] [lOff, .ssrc 48],
  lForm "SMAP" 0x1A [] [.uint 58 0 15 0, lOff, .ssrc 48, .ssrc 12],
  lForm "SUNMAP" 0x1B [] [.uint 58 0 15 0], lForm "SFLUSH" 0x1C [] [.uint 58 0 15 0], lForm "SDISC" 0x1D [] [.uint 58 0 15 0],
  lForm "RLDG" 0x20 [.one 55 widths] [.sdst 12, lOff, .ssrc 48],
  lForm "RLDG" 0x20 [.one 55 [("V64", 4), ("V", 5)]] [.vreg 12, lOff, .ssrc 48],
  lForm "RSTG" 0x21 [.one 55 widths] [.ssrc 12, lOff, .ssrc 48],
  lForm "RSTG" 0x21 [.one 55 [("V64", 4), ("V", 5)]] [.vreg 12, lOff, .ssrc 48],
  lForm "RSTP" 0x22 [.one 55 widths] [.ssrc 12, lOff, .ssrc 48],
  lForm "RSTP" 0x22 [.one 55 [("V64", 4), ("V", 5)]] [.vreg 12, lOff, .ssrc 48],
  lForm "RATOM" 0x23 [.one 55 atomNames, .one 58 (vCodes [0, 6, 9])] [.sdst 12, lOff, .ssrc 48],
  lForm "RFENCE" 0x24 [] []]

/-- Memory operands of the E slot: with an offset in IMM[19:0], or a base alone (R234). -/
def eOff : Arg := .mem 16 none (some (28, 20, 1))
def eBase : Arg := .mem 16 none none

/-- An E-slot form (R129). -/
def eForm (name : String) (op : Nat) (args : List Arg) : Form := { name := name, slots := [7], op := op, args := args }

/-- E slot: R129 and the Syntax entries of R239 to R257. -/
def eForms : List Form := [
  eForm "NOP" 0x00 [],
  eForm "PCOPY" 0x01 [.uint 12 0 7 0, eOff, .sdst 21], eForm "PCOPYT" 0x02 [.uint 12 0 7 0, eOff, .sdst 21],
  eForm "PCOPYR" 0x03 [.uint 12 0 7 0, eOff, .sdst 21],
  { eForm "PSTAT" 0x04 [.sdst 21, .uint 12 0 7 0] with sufs := [.opt 28 [("ERR", 1), ("CLR", 2)]] },
  { eForm "TBIND" 0x08 [.uint 28 0 63 0, eBase, .ssrc 21, .areg 37, .uint 42 1 6 0, .uint 45 1 64 1, .uint 34 0 7 0] with
    sufs := [.opt 51 [("PAIR", 1)]] },
  eForm "TFILL" 0x09 [.uint 28 0 63 0], eForm "TDRAIN" 0x0A [.uint 28 0 63 0], eForm "TFREE" 0x0B [.uint 28 0 63 0],
  eForm "TSTATE" 0x0C [.sdst 21, .uint 28 0 63 0],
  eForm "VSEND" 0x10 [.ssrc 21, eOff, .uint 48 0 255 0, .uint 56 1 255 0],
  eForm "VLATCH" 0x11 [eOff, .uint 56 0 31 0, .uint 48 0 255 0],
  { eForm "VLATCH" 0x11 [.uint 21 0 63 0, .uint 56 0 31 0, .uint 48 0 255 0] with sufs := [.one 61 [("T", 1)]] },
  eForm "VSTAT" 0x12 [.sdst 21],
  eForm "QPUSH" 0x18 [.queue 12, eOff], eForm "QADV" 0x19 [.queue 12, .uint 28 1 8 0],
  eForm "QCFG" 0x1B [.queue 12, .uint 28 0 3 0, .uint 30 0 3 0], eForm "QRST" 0x1C [.queue 12],
  eForm "GSRCH" 0x20 [.sdst 21, eOff], eForm "GSTAT" 0x21 [.sdst 28, .ssrc 21],
  eForm "RLYDONE" 0x28 [.uint 28 1 255 0], eForm "RLYFREE" 0x29 [.uint 28 1 255 0], eForm "RLYSTASH" 0x2A [.uint 28 1 255 0],
  eForm "RLYPOP" 0x2B [.uint 28 1 255 0],
  eForm "CRES" 0x30 [.sdst 28, eBase, .ssrc 21], eForm "CREL" 0x31 [eBase, .ssrc 21], eForm "SPLIT" 0x38 [.uint 28 0 12 0]]

/-- Every form, by slot (R121). -/
def forms : List Form := cForms ++ sForms ++ pForms ++ vForms1 ++ vForms2 ++ mForms ++ lForms ++ eForms

end Sys2Proof.Zwixa
end

