-- ==== Sys2Proof/Machine/ZwixaPack.lean ====
section
/-! DEFINITION. Bundles as Zwixa writes them (R94 to R96, R105, R106): slot operations and their slots, and the
packing of a bundle beside the one before it. -/

namespace Sys2Proof.Zwixa

/-- The pieces of a list of tokens between separators that stand outside parentheses and brackets. -/
def splitTop (sep : String) : List Token → Nat → List Token → List (List Token)
  | [], _, cur => [cur.reverse]
  | t :: ts, depth, cur =>
    match t.tok with
    | .p s =>
      if s == sep && depth == 0 then cur.reverse :: splitTop sep ts depth []
      else if s == "(" || s == "[" then splitTop sep ts (depth + 1) (t :: cur)
      else if s == ")" || s == "]" then splitTop sep ts (depth - 1) (t :: cur)
      else splitTop sep ts depth (t :: cur)
    | _ => splitTop sep ts depth (t :: cur)

/-- The operands of a statement: none where nothing stands. -/
def operands (ts : List Token) : List (List Token) := if ts.isEmpty then [] else splitTop "," ts 0 []

/-- The text of an identifier split at its dots, in upper case (R93). -/
def dotPieces : List Char → List Char → List String
  | [], cur => [String.ofList cur.reverse]
  | c :: cs, cur => if c == '.' then String.ofList cur.reverse :: dotPieces cs [] else dotPieces cs (upper c :: cur)

/-- The slot of a slot name (R94). -/
def slotNumber (s : String) : Option Nat :=
  ["C", "S", "P", "V0", "V1", "M", "L", "E"].idxOf? (upperS s)

/-- A slot operation as it is written: its slot, if it is fixed; the forms of its mnemonic; G and GN; suffixes;
operands. -/
structure Written where
  slot : Option Nat
  forms : List Form
  guard : Nat
  sufs : List String
  args : List (List Token)

/-- A slot prefix, if one stands first (R94, R95). -/
def takePrefix (ts : List Token) : Res (Option Nat × List Token) :=
  match ts with
  | ⟨.p "[", _⟩ :: ⟨.id s, _⟩ :: ⟨.p "]", _⟩ :: r =>
    match slotNumber s with
    | some n => .ok (some n, r)
    | none => .error "no such slot"
  | _ => .ok (none, ts)

/-- A guard, if one stands first: G and GN as bits [4:0] (R94, R96). -/
def takeGuard (ts : List Token) : Res (Nat × List Token) :=
  match ts with
  | ⟨.p "(", _⟩ :: ⟨.p "!", _⟩ :: t :: ⟨.p ")", _⟩ :: r => (classCode 'P' 15 [t]).map fun n => (n + 16, r)
  | ⟨.p "(", _⟩ :: t :: ⟨.p ")", _⟩ :: r => (classCode 'P' 15 [t]).map fun n => (n, r)
  | ⟨.p "(", _⟩ :: _ => .error "a guard is malformed"
  | _ => .ok (0, ts)

/-- A slot operation (R93 to R96): its slot is the prefix's, C for a NOP without one, the one slot whose map holds
the mnemonic, or V0 or V1 as the bundle decides. -/
def readOp (ts : List Token) : Res Written := do
  let (pre, ts) ← takePrefix ts
  let (g, ts) ← takeGuard ts
  match ts with
  | ⟨.id m, _⟩ :: rest =>
    match dotPieces m.toList [] with
    | name :: sufs =>
      let all := forms.filter fun f => f.name == name
      let inSlot := fun (n : Nat) (fs : List Form) => fs.filter fun f => f.slots.contains n
      let mine := match pre with | some n => inSlot n all | none => all
      match mine with
      | [] => .error (if all.isEmpty then "no such mnemonic" else "the mnemonic does not exist in this slot")
      | f :: _ =>
        let slot := match pre with
          | some n => some n
          | none => if name == "NOP" then some 0 else if f.slots.length == 1 then f.slots.head? else none
        let mine := match slot with | some n => inSlot n mine | none => mine
        .ok { slot := slot, forms := mine, guard := g, sufs := sufs, args := operands rest }
    | [] => .error "a mnemonic is expected"
  | _ => .error "a mnemonic is expected"

/-- The word of a slot operation (R96 to R100, R115): the first form whose suffixes fit takes the operands. -/
def Env.encode (e : Env) (w : Written) : Res Nat := do
  match w.forms.findSome? fun f => (sufFields f.sufs w.sufs).map fun fs => (f, fs) with
  | none => .error "a suffix that the instruction does not take, or one that is missing"
  | some (f, fs) => do
    let as_ ← ({ e with inC := f.slots == [0] } : Env).argFields f.args f.opts w.args
    .ok (Fields.word ((0, w.guard) :: (5, f.op) :: (0, f.fixed) :: fs ++ as_))

/-- Slot operations in their slots (R95): unprefixed V operations fill V0, then V1. Where a prefixed operation has
one of the two, they take the other, whichever is written first. (Log 130: DESIGN CHOICE) -/
def placeOps (ws : List Written) : Res (List (Nat × Written)) := do
  let fixed := ws.filterMap fun w => w.slot.map fun n => (n, w)
  let all ← (ws.filter fun w => w.slot.isNone).foldlM (fun (a : List (Nat × Written)) w =>
    if !(a.any fun x => x.1 == 3) then Except.ok (a ++ [(3, w)])
    else if !(a.any fun x => x.1 == 4) then .ok (a ++ [(4, w)])
    else .error "more V-slot operations than V slots") fixed
  if all.all fun x => (all.filter fun y => y.1 == x.1).length == 1 then .ok all
  else .error "two operations claim one slot"

/-- The words of a bundle in ascending slot order. -/
def Env.words (e : Env) (ops : List (Nat × Written)) : Res (List (Nat × Nat)) :=
  (List.range 8).foldlM (fun (a : List (Nat × Nat)) n =>
    match ops.lookup n with
    | some w => do .ok (a ++ [(n, ← e.encode w)])
    | none => .ok a) []

/-- The delta byte that makes a word of a reference word, if there is one (R106, R114). -/
def deltaOf (n word ref : Nat) : Option Nat :=
  match Machine.deltaField n ref with
  | none => none
  | some (h, l) =>
    let w := h + 1 - l
    let field := fun (x : Nat) => x / 2 ^ l % 2 ^ w
    let d := Machine.intVal w ((field word + 2 ^ w - field ref) % 2 ^ w)
    if word - field word * 2 ^ l == ref - field ref * 2 ^ l && -128 ≤ d && d ≤ 127 then some (Machine.intCode 8 d) else none

/-- The n bytes of a number, least significant first (R6). -/
def leBytes (n v : Nat) : List Nat := (List.range n).map fun i => v / 2 ^ (8 * i) % 2 ^ 8

/-- The bytes of a bundle beside the words of the one before it, or as full words alone (R106, R109, R110). -/
def packBundle (words : List (Nat × Nat)) (before : Option (List (Nat × Nat))) : List Nat :=
  let piece := fun (n w : Nat) =>
    match before.bind fun b => b.lookup n with
    | none => (1, 0, leBytes (Machine.slotSize n) w)
    | some r =>
      if w == r then (0, 1, [])
      else match deltaOf n w r with
        | some d => (1, 1, [d])
        | none => (1, 0, leBytes (Machine.slotSize n) w)
  let ps := words.map fun (n, w) => (n, piece n w)
  let mask := fun (f : Nat × Nat × List Nat → Nat) => ps.foldl (fun m (n, x) => m + f x * 2 ^ n) 0
  mask (·.1) :: mask (·.2.1) :: (ps.map fun (_, x) => x.2.2).flatten

/-- Whether the bundle that some bytes and the words of the one before it make is illegal (R107, R130). -/
def illegal (bytes : List Nat) (before : Option (List (Nat × Nat))) : Bool :=
  let line := (bytes ++ List.replicate (64 - bytes.length) 0).map fun b => BitVec.ofNat 8 b
  (Machine.bundleAt line (before.getD []) 0).reasons != 0

/-- The C slot holds LOOP, LOOPI or LOOP.P (R106). -/
def isLoop (words : List (Nat × Nat)) : Bool :=
  match words.lookup 0 with
  | some w => let op := w / 2 ^ 5 % 2 ^ 7; 5 ≤ op && op ≤ 7
  | none => false

end Sys2Proof.Zwixa
end

