-- ==== Sys2Proof/Machine/ZwixaImage.lean ====
section
/-! DEFINITION. The Zwixa assembler (spec/04): directives (R101, R102), sections and kernel images (R103), live maps
and tensors (R104), and the passes over a source until its labels settle. -/

namespace Sys2Proof.Zwixa

open Sys2Proof.Machine (XVal floatVal largestFinite canonicalNaN sticky bitLen intCode)

/-- The exact value of a decimal or integer item, as far as one rounding can tell. -/
def decimalVal (neg : Bool) (digits frac : Nat) (exp : Int) : XVal :=
  let e := exp - frac
  let num := digits * 10 ^ e.toNat
  let den := 10 ^ (-e).toNat
  let s := 256 + bitLen den - bitLen num
  let n := num * 2 ^ s
  .fin neg (sticky (n / den) (n % den != 0)) (-(s : Int) - 1)

/-- One item of .f32, .bf16 or .e4m3, or a pad, in its format (R102); a number may have a sign of either kind.
(Log 151: DESIGN CHOICE) -/
def floatItem (f : Fmt) (ts : List Token) : Res Nat :=
  let (neg, ts) := match ts with
    | ⟨.p "-", _⟩ :: r => (true, r)
    | ⟨.p "+", _⟩ :: r => (false, r)
    | r => (false, r)
  let finite := fun (x : XVal) =>
    let c := if x == .fin neg 0 0 then Machine.zeroCode f neg else Machine.round f .rne false x
    match floatVal f c with
    | .fin _ _ _ => if f == .e2m1 && c == 8 then .error "a value beyond the format" else .ok c
    | _ => .error "a value beyond the format"
  match ts with
  | [⟨.float .nan, _⟩] => .ok (canonicalNaN f false)
  | [⟨.float .inf, _⟩] => if f == .e4m3 || f == .e2m1 then .error "the format has no infinity" else .ok (Machine.overflowMark f neg)
  | [⟨.float (.dec d n e), _⟩] => finite (if d = 0 then .fin neg 0 0 else decimalVal neg d n e)
  | [⟨.int v, _⟩] => if v = 0 then .ok 0 else finite (decimalVal neg v 0 0)
  | _ => .error "a number is expected"

/-- What a section holds so far: its bytes, last first; labels that wait for the next bundle or datum; the words of
the bundle before, where the next one may refer to them, and whether it opened a loop (R106); how far its last line
is to be filled. -/
structure Sect where
  code : Bool
  rev : List Nat
  len : Nat
  pending : List String
  before : Option (List (Nat × Nat))
  afterLoop : Bool
  fillTo : Nat

def Sect.empty (code : Bool) : Sect :=
  { code := code, rev := [], len := 0, pending := [], before := none, afterLoop := false, fillTo := 0 }

def Sect.emit (s : Sect) (bs : List Nat) : Sect := { s with rev := bs.reverse ++ s.rev, len := s.len + bs.length }

/-- Zero bytes up to an offset. -/
def Sect.padTo (s : Sect) (n : Nat) : Sect := s.emit (List.replicate (n - s.len) 0)

/-- The next multiple of a size. -/
def roundUp (n size : Nat) : Nat := (n + size - 1) / size * size

/-- A kernel being assembled (R103): where its first code line stands in its section, the labels of its bundles,
placement entries with the labels of their entry points, live maps and descriptors. -/
structure Kernel where
  name : String
  quads : Nat
  spacing : Nat
  base : Nat
  named : List String
  places : List (List Nat × String)
  lives : List (List Nat)
  tensors : List (List Nat)

/-- A pass over a source: the symbols and labels of the pass before it and its own, what it has made, and whether
values must fit. -/
structure Pass where
  prev : List (String × Word)
  prevLabels : List String
  syms : List (String × Word)
  labels : List String
  sects : List (String × Sect)
  cur : String
  kernel : Option Kernel
  images : List (String × List Nat)
  nodelta : Bool
  exports : List String
  strict : Bool

def Pass.start (prev : List (String × Word)) (prevLabels : List String) (strict : Bool) : Pass :=
  { prev := prev, prevLabels := prevLabels, syms := [], labels := [],
    sects := [("text", .empty true), ("data", .empty false)], cur := "text", kernel := none, images := [],
    nodelta := false, exports := [], strict := strict }

/-- The section where bundles and data go now; a kernel's code stays in the one in which it is opened (R101). -/
def Pass.sect (p : Pass) : Sect := (p.sects.lookup p.cur).getD (.empty true)

def Pass.setSect (p : Pass) (s : Sect) : Pass :=
  { p with sects := p.sects.map fun (n, x) => if n == p.cur then (n, s) else (n, x) }

/-- From where labels and "$" count: the open kernel's first code line, or the section's start (R100). -/
def Pass.origin (p : Pass) : Nat := (p.kernel.map Kernel.base).getD 0

/-- Where the next byte goes, as labels count. -/
def Pass.at_ (p : Pass) : Nat := p.sect.len - p.origin

/-- Names that no symbol may take (R92). Slot names, acc and local are taken in any case, as register names are.
(Log 129: DESIGN CHOICE) -/
def reserved (s : String) : Bool :=
  (regName s).isSome || ["ACC", "LOCAL", "C", "S", "P", "V0", "V1", "M", "L", "E"].contains (upperS s)

/-- A symbol takes its value, once, whether it is a constant or a label (R92, R100). (Log 146: DESIGN CHOICE) -/
def Pass.define (p : Pass) (s : String) (v : Word) : Res Pass :=
  if reserved s then .error "a reserved name is no symbol"
  else if (p.syms.lookup s).isSome then .error "a symbol is defined twice"
  else .ok { p with syms := (s, v) :: p.syms }

/-- A symbol's value: that of this pass, or of the one before. -/
def Pass.look (p : Pass) (s : String) : Res Word :=
  match p.syms.lookup s, p.prev.lookup s with
  | some v, _ => .ok v
  | none, some v => .ok v
  | none, none => if p.strict then .error "a symbol is not defined" else .ok 0

/-- What an operand at an offset of the section may depend on. -/
def Pass.env (p : Pass) (here : Nat) : Env :=
  { look := p.look, isLabel := fun s => p.labels.contains s || p.prevLabels.contains s,
    here := BitVec.ofNat 64 (here - p.origin), strict := p.strict }

/-- The labels that wait name an offset of their section (R94, R100). (Log 112: DEDUCED) -/
def Pass.settle (p : Pass) (at_ : Nat) : Res Pass := do
  let s := p.sect
  let q ← s.pending.foldlM (fun (q : Pass) n => q.define n (BitVec.ofNat 64 (at_ - p.origin))) p
  .ok ({ q with labels := s.pending ++ q.labels }.setSect { s with pending := [] })

/-- A datum is placed (R101). A bundle that follows it in code is written as full words.
(Log 136: DESIGN CHOICE) -/
def Pass.datum (p : Pass) (bs : List Nat) : Res Pass := do
  let q ← p.settle p.sect.len
  .ok (q.setSect { q.sect.emit bs with before := none, afterLoop := false })

/-- The labels that wait will name a bundle of the open kernel (R103). -/
def Pass.noteEntries (p : Pass) : Pass :=
  { p with kernel := p.kernel.map fun k => { k with named := p.sect.pending ++ k.named } }

/-- A bundle line is placed (R95, R105, R106): in the line being filled, or at the next line's start. One that
fetch would find illegal is refused (R107). -/
def Pass.bundle (p : Pass) (ts : List Token) : Res Pass := do
  let s := p.sect
  if !s.code then .error "a bundle outside a code section"
  else
    let ops ← placeOps (← (splitTop "||" ts 0 []).mapM readOp)
    let full := !s.pending.isEmpty || p.nodelta || s.afterLoop || s.len % 64 == 0
    let before := if full then none else s.before
    let words ← (p.env s.len).words ops
    let bytes := packBundle words before
    let next := roundUp s.len 64
    let (at_, words, bytes, before) ←
      if s.len % 64 + bytes.length ≤ 64 then Except.ok (s.len, words, bytes, before)
      else do
        let words ← (p.env next).words ops
        .ok (next, words, packBundle words none, none)
    if p.strict && illegal bytes before then .error "an illegal bundle"
    else
      let q ← p.noteEntries.settle at_
      let s := (q.sect.padTo at_).emit bytes
      .ok (q.setSect { s with fillTo := roundUp s.len 64, before := some words, afterLoop := isLoop words })

/-- A single identifier. -/
def ident (ts : List Token) : Res String :=
  match ts with
  | [⟨.id s, _⟩] => .ok s
  | _ => .error "a name is expected"

/-- One end of a live item (R104, R283): its kind and index. -/
def Env.liveEnd (e : Env) (ts : List Token) : Res (Nat × Nat) := do
  match ts with
  | ⟨.id a, _⟩ :: ⟨.p "(", _⟩ :: rest =>
    match rest.reverse with
    | ⟨.p ")", _⟩ :: inner =>
      if upperS a != "ACC" then .error "a live item is malformed"
      else .ok (8, ← e.unsigned (← e.value inner.reverse) 0 3071 0)
    | _ => .error "a live item is malformed"
  | _ =>
    match regTok ts with
    | some ('S', n) => .ok (1, ← ranged n 63 n)
    | some ('A', n) => .ok (2, ← ranged n 31 n)
    | some ('P', n) => .ok (3, ← ranged n 15 n)
    | some ('V', n) => .ok (4, ← ranged n 1535 n)
    | some ('X', n) => .ok (5, ← ranged n 15 n)
    | some ('T', n) => .ok (6, ← ranged n 15 n)
    | some ('K', n) => .ok (7, ← ranged n 15 n)
    | _ => .error "a live item is malformed"

/-- A live item as its 8 bytes (R104, R283). (Log 112: DEDUCED; 149: DESIGN CHOICE) -/
def Env.liveItem (e : Env) (ts : List Token) : Res (List Nat) := do
  let range := fun (k f l : Nat) => leBytes 8 (k + f * 2 ^ 8 + l * 2 ^ 20)
  match ts with
  | ⟨.id a, x⟩ :: ⟨.p "(", y⟩ :: rest =>
    if upperS a == "LOCAL" then
      match rest.reverse with
      | ⟨.p ")", _⟩ :: inner =>
        match splitTop "," inner.reverse 0 [] with
        | [b, s] =>
          let base := (← e.value b).toInt
          let size := (← e.value s).toInt
          e.need (0 ≤ base && 0 < size && base % 64 == 0 && size % 64 == 0 && base + size ≤ 0xC0000) "a live range outside the local store"
          .ok (leBytes 8 (9 + base.toNat % 2 ^ 22 * 2 ^ 8 + size.toNat % 2 ^ 32 * 2 ^ 32))
        | _ => .error "a live item is malformed"
      | _ => .error "a live item is malformed"
    else
      match splitTop "-" (⟨.id a, x⟩ :: ⟨.p "(", y⟩ :: rest) 0 [] with
      | [f, l] =>
        let (k, i) ← e.liveEnd f
        let (k', j) ← e.liveEnd l
        if k == k' then do
          e.need (i ≤ j) "a live range that runs down"
          .ok (range k i j)
        else .error "a live range of two kinds"
      | _ => .error "a live item is malformed"
  | _ =>
    match splitTop "-" ts 0 [] with
    | [f] => do
      let (k, i) ← e.liveEnd f
      .ok (range k i i)
    | [f, l] => do
      let (k, i) ← e.liveEnd f
      let (k', j) ← e.liveEnd l
      if k == k' && i ≤ j && (k != 7 || i == j) then .ok (range k i j) else .error "a live item is malformed"
    | _ => .error "a live item is malformed"

/-- The keys of a .tensor with their values' tokens (R104): a piece that begins "name =" opens a key.
(Log 112: DEDUCED) Keys are taken in any case. (Log 135: DESIGN CHOICE) -/
def tensorKeys : List (List Token) → List (String × List (List Token)) → Res (List (String × List (List Token)))
  | [], acc => .ok acc.reverse
  | t :: ts, acc =>
    match t, acc with
    | ⟨.id k, _⟩ :: ⟨.p "=", _⟩ :: v, _ =>
      if (acc.lookup (upperS k)).isSome then .error "a key stands twice" else tensorKeys ts ((upperS k, [v]) :: acc)
    | v, (k, vs) :: acc => tensorKeys ts ((k, vs ++ [v]) :: acc)
    | _, [] => .error "a key is expected"

/-- The 128 bytes of a tensor's descriptor (R104, R293). The pad of an integer format is an integer expression,
modulo the format's width. (Log 134: DESIGN CHOICE; 148: DESIGN CHOICE) -/
def Env.tensor (e : Env) (items : List (List Token)) : Res (List Nat) := do
  let ks ← tensorKeys items []
  let key := fun (k : String) => match ks.lookup k with | some vs => Except.ok vs | none => .error "a key of .tensor is missing"
  if !(ks.all fun x => ["BASE", "FORMAT", "LAYOUT", "DIMS", "STRIDES", "PAD"].contains x.1) then .error "no such key of .tensor"
  else
    let one := fun (vs : List (List Token)) => match vs with | [v] => Except.ok v | _ => .error "a key takes one value"
    let base ← e.value (← one (← key "BASE"))
    let fname ← ident (← one (← key "FORMAT"))
    let lname ← ident (← one (← key "LAYOUT"))
    let fmt ← match vFormats.lookup (upperS fname) with | some c => Except.ok c | none => .error "no such format"
    let lay ← match ["ROW", "COLSTRIPE", "BLOCK64"].idxOf? (upperS lname) with | some c => Except.ok c | none => .error "no such layout"
    let dims ← (← key "DIMS").mapM e.value
    let strides ← (← key "STRIDES").mapM e.value
    if dims.length != strides.length || dims.length == 0 || 6 < dims.length then .error "dims and strides do not match"
    else
      let fmts : List Fmt := [.f32, .bf16, .f16, .e4m3, .e5m2, .e2m1, .i32, .i16, .i8, .i64]
      let f := fmts.getD fmt .f32
      let pad ← match ks.lookup "PAD" with
        | none => Except.ok 0
        | some vs => do
          let v ← one vs
          if Machine.fmtInt f then .ok (← e.value v).toNat else floatItem f v
      e.need (dims.all fun d => 1 ≤ d.toInt && d.toInt < 2 ^ 31) "a dimension outside its range"
      let six := fun (n : Nat) (xs : List Word) => (List.range 6).flatMap fun d => leBytes n ((xs.getD d 0).toNat)
      .ok (leBytes 8 base.toNat ++ leBytes 2 (fmt + lay * 2 ^ 4 + dims.length * 2 ^ 6) ++ leBytes 2 0 ++
        leBytes 4 (pad % 2 ^ (min 32 (Machine.fmtWidth f))) ++ six 4 dims ++ six 8 strides ++ List.replicate 40 0)

/-- A placement entry's 8 bytes (R20, R103). -/
def placeEntry (v : List Nat) : List Nat :=
  leBytes 8 (v.getD 0 0 + v.getD 1 0 * 2 ^ 6 + v.getD 2 0 * 2 ^ 8 + v.getD 3 0 * 2 ^ 12 + v.getD 4 0 * 2 ^ 16 + v.getD 5 0 * 2 ^ 48)

/-- A kernel image from the bytes of its code lines: header, code lines, placement map, live maps, descriptors,
padding (R19, R103). -/
def Kernel.image (k : Kernel) (code : List Nat) : List Nat :=
  let places := k.places.flatMap fun x => placeEntry x.1
  let lives := k.lives.flatMap fun l => leBytes 8 (l.length / 8) ++ l
  let placeOff := 0x40 + code.length
  let liveOff := placeOff + places.length
  let tensOff := liveOff + lives.length
  let header := leBytes 4 0x494B4E47 ++ leBytes 2 1 ++ leBytes 2 k.quads ++ leBytes 4 0x40 ++ leBytes 4 code.length ++
    leBytes 4 placeOff ++ leBytes 2 k.places.length ++ leBytes 2 k.spacing ++ leBytes 4 liveOff ++
    leBytes 4 k.lives.length ++ leBytes 4 tensOff ++ leBytes 4 k.tensors.length ++ List.replicate 24 0
  let all := header ++ code ++ places ++ lives ++ k.tensors.flatten
  all ++ List.replicate (roundUp all.length 64 - all.length) 0

/-- An entry label names a bundle of the kernel at a multiple of 64 (R103). -/
def Kernel.entriesOk (k : Kernel) : Bool := k.places.all fun x => x.1.getD 4 0 % 64 == 0 && k.named.contains x.2

/-- What is wrong with a source, and in which line. -/
structure Wrong where
  line : Nat
  what : String
  deriving DecidableEq, Repr

/-- Code that starts a line, and in which no bundle of another kernel is referred to (R105, R106). -/
def Sect.newLine (s : Sect) : Sect :=
  { s.padTo (roundUp s.len 64) with fillTo := roundUp s.len 64, before := none, afterLoop := false }

/-- The end of a kernel (R101, R103): its last line is filled, and its code lines are those since its base.
(Log 112: DEDUCED) -/
def Pass.endKernel (p : Pass) (k : Kernel) : Res Pass :=
  let s := p.sect.newLine
  let code := (s.rev.take (s.len - k.base)).reverse
  if code.isEmpty then .error "a kernel without code"
  else if k.places.isEmpty || 4096 < k.places.length then .error "a kernel has 1 to 4,096 placement entries"
  else if 2 ^ 22 < k.lives.length then .error "a kernel has at most 4,194,304 live maps"
  else if p.strict && !k.entriesOk then .error "an entry label names no bundle of the kernel at a multiple of 64"
  else .ok { p.setSect s with kernel := none, images := p.images ++ [(k.name, k.image code)] }

/-- A data item of some bits (R101). -/
def Env.dataItem (e : Env) (bits : Nat) (ts : List Token) : Res (List Nat) := do
  let v ← e.value ts
  e.need (-(2 ^ (bits - 1) : Int) ≤ v.toInt && v.toInt ≤ 2 ^ bits - 1) "a value outside its width"
  .ok (leBytes (bits / 8) v.toNat)

/-- Directives that place data and stand outside kernels, or also inside them (R101). "$" in any item of a list is
the offset of the list's first datum. (Log 131: DESIGN CHOICE) A list may be empty. (Log 147: DESIGN CHOICE) A count of .space is at most 2^32 - 1 and its fill 0
to 255. (Log 132: DESIGN CHOICE) -/
def Pass.dataDirective (p : Pass) (d : String) (as_ : List (List Token)) : Option (Res Pass) :=
  let e := p.env p.sect.len
  let items := fun (f : List Token → Res (List Nat)) => do
    let bs ← as_.mapM f
    p.datum bs.flatten
  let float := fun (f : Fmt) (n : Nat) => items fun t => (floatItem f t).map fun c => leBytes n c
  let outside := fun (r : Res Pass) => if p.kernel.isSome then .error "a directive that stands outside kernels" else r
  match d with
  | ".BYTE" => some (items (e.dataItem 8))
  | ".HALF" => some (items (e.dataItem 16))
  | ".WORD" => some (outside (items (e.dataItem 32)))
  | ".DWORD" => some (outside (items (e.dataItem 64)))
  | ".F32" => some (outside (float .f32 4))
  | ".BF16" => some (outside (float .bf16 2))
  | ".E4M3" => some (outside (float .e4m3 1))
  | ".SPACE" => some (outside (match as_ with
    | [n] => do p.datum (List.replicate (← e.unsigned (← e.value n) 0 (2 ^ 32 - 1) 0) 0)
    | [n, f] => do p.datum (List.replicate (← e.unsigned (← e.value n) 0 (2 ^ 32 - 1) 0) (← e.unsigned (← e.value f) 0 255 0))
    | _ => .error ".space takes a count and a fill"))
  | _ => none

/-- Another section is continued or opened (R101). -/
def Pass.section_ (p : Pass) (name : String) (code : Bool) : Res Pass :=
  if p.kernel.isSome then .error "a directive that stands outside kernels"
  else
    let q := { p with cur := name }
    match p.sects.lookup name with
    | some s => if s.code == code then .ok q else .error "a section of another kind"
    | none => .ok { q with sects := p.sects ++ [(name, .empty code)] }

/-- Directives that stand in a kernel alone (R101, R103, R104). -/
def Pass.kernelDirective (p : Pass) (k : Kernel) (d : String) (as_ : List (List Token)) : Res Pass := do
  let e := p.env p.sect.len
  match d, as_ with
  | ".ENDK", [] => p.endKernel k
  | ".PLACE", [lq, m, c, pr, en, ar] =>
    let v := [← e.unsigned (← e.value lq) 0 (k.quads - 1) 0, ← e.unsigned (← e.value m) 0 3 0,
      ← e.unsigned (← e.value c) 0 15 0, ← e.unsigned (← e.value pr) 0 3 0,
      ← e.unsigned (← e.value en) 0 (2 ^ 32 - 1) 0, ← e.unsigned (← e.value ar) 0 65535 0]
    e.need (!(k.places.any fun x => x.1.take 3 == v.take 3)) "two entries name one context"
    .ok { p with kernel := some { k with places := k.places ++ [(v, ← ident en)] } }
  | ".LIVE", n :: items =>
    let name ← ident n
    if items.isEmpty || 256 < items.length then .error "a live map has 1 to 256 items"
    else
      let bs ← items.mapM e.liveItem
      let q ← p.define name (BitVec.ofNat 64 k.lives.length)
      .ok { q with kernel := some { k with lives := k.lives ++ [bs.flatten] } }
  | ".TENSOR", n :: items =>
    let name ← ident n
    let bs ← e.tensor items
    let q ← p.define name (BitVec.ofNat 64 k.tensors.length)
    .ok { q with kernel := some { k with tensors := k.tensors ++ [bs] } }
  | _, _ => .error "a directive is malformed"

/-- A directive (R101). A second .kernel of one name is refused. (Log 133: DESIGN CHOICE) The names code and data are taken in any
case. (Log 148: DESIGN CHOICE) -/
def Pass.directive (p : Pass) (d : String) (ts : List Token) : Res Pass := do
  let as_ := operands ts
  let e := p.env p.sect.len
  match p.dataDirective d as_ with
  | some r => r
  | none =>
    if [".PLACE", ".LIVE", ".TENSOR", ".ENDK"].contains d then
      match p.kernel with
      | some k => p.kernelDirective k d as_
      | none => .error "a directive that stands in a kernel"
    else
      match d, as_ with
      | ".TEXT", [] => p.section_ "text" true
      | ".DATA", [] => p.section_ "data" false
      | ".SECTION", [n, k] => do
        let kind ← ident k
        if upperS kind == "CODE" then p.section_ (← ident n) true
        else if upperS kind == "DATA" then p.section_ (← ident n) false else .error "a section is code or data"
      | ".ALIGN", [n] => do
        let v := (← e.value n).toInt
        let s := p.sect
        e.need (0 < v && 2 ^ (bitLen v.toNat - 1) == v.toNat && (!s.code || 64 ≤ v)) "an alignment that is not allowed"
        .ok (p.setSect (s.padTo (p.origin + roundUp p.at_ (max 1 v.toNat))))
      | ".EQU", [n, x] => do p.define (← ident n) (← e.value x)
      | ".GLOBAL", [n] => do .ok { p with exports := p.exports ++ [← ident n] }
      | ".NODELTA", [] => .ok { p with nodelta := true }
      | ".DELTA", [] => .ok { p with nodelta := false }
      | ".KERNEL", [n, q, sp] => do
        let name ← ident n
        if p.kernel.isSome then .error "a kernel inside a kernel"
        else if !p.sect.code then .error "a kernel outside a code section"
        else if (p.images.lookup name).isSome then .error "a kernel is defined twice"
        else
          let quads ← e.unsigned (← e.value q) 1 64 0
          let spacing ← e.unsigned (← e.value sp) 1 40000 0
          let s := p.sect.newLine
          .ok { p.setSect s with kernel := some { name := name, quads := quads, spacing := spacing, base := s.len,
                                                  named := [], places := [], lives := [], tensors := [] } }
      | _, _ => .error "no such directive, or one that is malformed"

/-- A line (R94): its label waits for the next bundle or datum of the section; then its statement. -/
def Pass.line (p : Pass) (ts : List Token) : Res Pass := do
  let (p, ts) := match ts with
    | ⟨.id l, _⟩ :: ⟨.p ":", _⟩ :: r => let s := p.sect; (p.setSect { s with pending := s.pending ++ [l] }, r)
    | r => (p, r)
  match ts with
  | [] => .ok p
  | ⟨.id d, _⟩ :: r => if d.toList.head? == some '.' then p.directive (upperS d) r else p.bundle ts
  | _ => p.bundle ts

/-- The end of the source: no kernel is open, labels that still wait name the end of their section, code is filled
to the end of its last line, exported symbols exist (R100, R101, R105). -/
def Pass.finish (p : Pass) : Res Pass := do
  if p.kernel.isSome then .error "a kernel is not closed"
  else
    let q ← p.sects.foldlM (fun (q : Pass) (n, _) => do
      let q1 := { q with cur := n }
      q1.settle q1.sect.len) p
    if q.exports.all fun n => (q.syms.lookup n).isSome then
      .ok { q with sects := q.sects.map fun (n, s) => (n, if s.code then s.padTo s.fillTo else s) }
    else .error "an exported symbol is not defined"

/-- One pass over the lines. -/
def Pass.run (p : Pass) : List (List Token) → Nat → Except Wrong Pass
  | [], n => match p.finish with | .ok q => .ok q | .error w => .error ⟨n, w⟩
  | ts :: rest, n =>
    match p.line ts with
    | .error w => .error ⟨n, w⟩
    | .ok q => q.run rest (n + 1)

/-- What a source assembles to: kernel images, sections and exported symbols. -/
structure Output where
  kernels : List (String × List Nat)
  sections : List (String × List Nat)
  exports : List (String × Word)
  deriving DecidableEq, Repr

/-- Passes until the labels settle, and a last one in which every value must fit (R99, R100): as a pass settles one more of a chain
of forward definitions at least, there may be one for each line. A constant that is defined by itself settles too.
(Log 112: DEDUCED; 145: DESIGN CHOICE) -/
def settlePasses (lines : List (List Token)) (prev : List (String × Word)) (labels : List String) : Nat → Except Wrong Pass
  | 0 => .error ⟨0, "the labels do not settle"⟩
  | fuel + 1 =>
    match (Pass.start prev labels false).run lines 1 with
    | .error w => .error w
    | .ok p => if p.syms == prev then (Pass.start prev labels true).run lines 1 else settlePasses lines p.syms p.labels fuel

/-- The tokens of every line. -/
def lexLines : List (List Char) → Nat → Except Wrong (List (List Token))
  | [], _ => .ok []
  | l :: ls, n =>
    match tokens l with
    | .error w => .error ⟨n, w⟩
    | .ok t => (lexLines ls (n + 1)).map (t :: ·)

/-- THE ASSEMBLER: a source's bytes to its output, or what is wrong with it (R91 to R107). (Log 112: DEDUCED) -/
def assemble (src : List Nat) : Except Wrong Output :=
  match sourceLines src with
  | .error w => .error ⟨0, w⟩
  | .ok ls =>
    match lexLines ls 1 with
    | .error w => .error w
    | .ok lines =>
      match settlePasses lines [] [] (lines.length + 32) with
      | .error w => .error w
      | .ok p =>
        .ok { kernels := p.images, sections := p.sects.map fun (n, s) => (n, s.rev.reverse),
              exports := p.exports.filterMap fun n => (p.syms.lookup n).map fun v => (n, v) }

end Sys2Proof.Zwixa
end

