-- ==== Sys2Proof/Tests/Slice0.lean ====
section
/-! SUPPORT. Tests: limits that refuse, words that decode, single steps, and a witness for every statement that has
hypotheses. -/

open Sys2Proof Sys2Proof.Machine

namespace Sys2Proof.Tests

set_option Elab.async false

/-! ## Well-formedness: every kind of limit refuses a term that breaks it -/

/-- The guard that is always true. -/
def always : Guard := { pred := 0, neg := false }

/-- R43: an index register above i5 as a source, an index register as a destination. -/
theorem test_wf_scalar : ([Instr.add always (.s 1) (.i 6) (.s 2), .add always (.s 1) (.s 2) (.i 7), .add always (.i 0) (.s 1) (.s 2),
    .sext always (.s 1) (.s 2) 0, .zext always (.s 1) (.s 2) 65, .loopP always (.s 1) 0 64, .loopP always (.s 1) 9 64,
    .ldelta always 0 6 (.s 1), .sync always 0 true, .mfs always (.s 1) 8, .mts always 0 (.s 1), .geninc always (.i 1) (.s 1)].all
    fun i => !i.wf) = true := by decide

/-- R189, R44, R45 and the format classes of R167: a lane count above 256, registers above v1535, formats outside the class. -/
theorem test_wf_vector : ([Instr.planes always 1 2 257, .vadd always .f32 .rne (.v 1536) (.v 0) (.v 0),
    .vadd always .f32 .rne (.v 0) (.v 1536) (.v 0), .vadd always .e4m3 .rne (.v 0) (.v 0) (.v 0),
    .vclass always .i8 .rne 1 (.v 0) 0, .viadd always .f32 .rne (.v 0) (.v 0) (.v 0), .vbcst always .i64 .rne (.v 0) (.v 0) 128,
    .vcvt always .i8 .rne (.v 0) (.v 0) .i32 false 4, .vcbdec always .i8 .rne (.v 0) (.v 0) 0, .vqnt always .f32 .rne (.v 0) (.v 0) (.v 0) .f32 false 0,
    .viota always .e2m1 .rne (.v 0), .vscan always .f16 .rne (.v 0) (.v 0) 0, .vdot always .i64 .rne (.v 0) (.v 0) (.v 0) 0,
    .vperm always .i8 .rne (.v 0) (.v 0) (.v 0)].all fun i => !i.wf) = true := by decide

/-- R53, R198, R213: an accumulator row of 3,072, a row at its limit, a scale register without a scaled format, a drain to I8. -/
theorem test_wf_matrix : ([Instr.mzero always ⟨3072, none⟩, .mpush always .bf16 (.v 0) (.imm 8), .mpusht always .bf16 0 (.imm 8),
    .mshiftl always .bf16 ⟨0, none⟩ (.imm 0) 1 0 false, .mdrain always .i8 ⟨0, none⟩ 0 (.imm 0) .rne false,
    .mdrain always .f32 ⟨0, none⟩ 0 (.imm 4) .rne false, .mdrainz always .f32 ⟨0, none⟩ 1536 (.imm 0) .rne false,
    .maddv always .f16 ⟨0, none⟩ (.v 0) (.imm 0) false, .maddv always .f32 ⟨0, none⟩ (.v 0) (.imm 4) false].all
    fun i => !i.wf) = true := by decide

/-- R215, R222, R226 to R228, R232: a sign-extended 8-byte load, a length code of 5, byte-wide indexed elements, too many gathered
rows, operations and pairs that atomics lack, a data register that does not fit the width. -/
theorem test_wf_memory : ([Instr.lds always 3 true (.s 1) 0 (.s 0) 0, .vld always 5 0 0 (.s 0) 0, .vldx always 1 0 0 (.s 0) 0,
    .gathr always true false 0 0 (.s 0) 0 64 0, .gathr always false true 0 0 (.s 0) 0 0 0, .gathr always true false 0 0 (.s 0) 0 0 1,
    .atoml always .min .f32 (.s 1) 0 (.s 0) 0, .atomg always .cas .i32 (.s 63) 0 (.s 0) 0, .watom always .cas .i64 (.a 31) 0 (.s 0) 0,
    .watomr always .min .bf16 0 0 (.s 0) 0, .rldg always .v (.scalar (.s 1)) 0 0 (.s 0), .rstg always .d (.vector 0) 0 0 (.s 0),
    .rstp always .v64 (.vector 1536) 0 0 (.s 0)].all fun i => !i.wf) = true := by decide

/-- R245, R249, R252, R255, R257: level code 6, no coordinate, coordinates past a31, an odd pair, an empty volley, an advance of 0
or 9, a count of 0, a split above 12. -/
theorem test_wf_engine : ([Instr.tbind always 0 6 0 (.s 0) 0 1 0 false, .tbind always 0 0 0 (.s 0) 0 0 0 false,
    .tbind always 0 0 0 (.s 0) 31 2 0 false, .tbind always 1 0 0 (.s 0) 0 1 0 true, .vsend always (.s 0) 0 0 0 0, .qadv always 0 0,
    .qadv always 0 9, .rlydone always 0, .rlyfree always 0, .rlystash always 0, .rlypop always 0, .split always 13,
    .pstat always 0 (.i 0)].all fun i => !i.wf) = true := by decide

/-- The limits admit the boundary values beside those refused. -/
theorem test_wf_boundary : ([Instr.add always (.s 1) (.i 5) (.a 31), .sext always (.s 1) (.s 2) 64, .loopP always (.s 1) 8 64,
    .planes always 1 2 256, .vadd always .f16 .rna (.v 1535) (.t 15) (.k 15 7 true), .mzero always ⟨3071, none⟩,
    .mshiftl always .vq2 ⟨0, some 8⟩ .i0 1 2 true, .gathr always true true 3 1 (.s 7) 0 63 1, .atomg always .cas .i32 (.s 62) 0 (.s 0) 0,
    .tbind always 62 7 0 (.s 0) 30 2 63 true, .qadv always 0 8, .split always 12].all Instr.wf) = true := by decide

/-! ## Decoding: words written out from the encodings of spec/05 and the worked words of spec/08, 14, 15 and 16 -/

/-- C slot: OP in [11:5], SA in [18:12], SB in [25:19], IMM in [47:26] (R116, R122). -/
theorem test_decode_c :
    (SlotWord.ofNum 0 0b0000000000000001000000_0000000_1000010_0000011_1_0011).instr? = some (.jmp ⟨3, true⟩ (.a 2) 64) ∧
    (SlotWord.ofNum 0 0b1111111111111111000000_0000000_0000101_0000101_0_0000).instr? = some (.loop always (.s 5) (-64)) ∧
    (SlotWord.ofNum 0 0x0000_0004_22A0).instr? = some (.pgwait always (.a 2)) ∧
    (SlotWord.ofNum 0 0x0000_0804_71C0).instr? = some (.parkWord always (.a 7) (.s 0)) ∧
    (SlotWord.ofNum 0 0b0000000000000000000000_0000000_0111111_0011111_0_0000).instr? = some (.ret always) ∧
    (SlotWord.ofNum 0 0b0000000000000000000000_0000000_0000000_0100000_0_0000).instr? = none := by decide

/-- S slot: SD in [18:12], SA in [25:19], SB in [32:26], IMM in [47:33]; LI has IMM in [47:19] (R116, R124). -/
theorem test_decode_s :
    (SlotWord.ofNum 1 0b000000000000000_1000011_1100001_0000111_0000010_0_0000).instr? = some (.sub always (.s 7) (.i 1) (.a 3)) ∧
    (SlotWord.ofNum 1 0b000000000000101_0000011_0000010_0000001_0011100_0_0000).instr? = some (.addx always (.s 1) (.s 2) (.s 3) 5) ∧
    (SlotWord.ofNum 1 0b11111111111111111111111111111_1000001_0100111_0_0000).instr? = some (.li always (.a 1) (-1)) ∧
    (SlotWord.ofNum 1 0b000000000000000_0000010_0000001_0001001_0110010_0_0000).instr? = some (.clt always 9 (.s 1) (.s 2)) ∧
    (SlotWord.ofNum 1 0b000000000000111_0000010_0000001_0000011_0111001_0_0000).instr? = some (.sel always (.s 3) (.s 1) (.s 2) 7) := by
  decide

/-- P slot: PD in [15:12], PA in [19:16], PB in [23:20], IMM in [31:24]; XD, AB and OFF of XLD (R117, R125). -/
theorem test_decode_p :
    (SlotWord.ofNum 2 0x0001_2140).instr? = some (.pall always 2 1) ∧
    (SlotWord.ofNum 2 0b11111111_0000_0000_0011_0010001_0_0000).instr? = some (.xset always 3 255) ∧
    (SlotWord.ofNum 2 0b11111111111_00001_0010_0010000_0_0000).instr? = some (.xld always 2 1 (-1)) ∧
    (SlotWord.ofNum 2 0b0000_1_100_1001_0000_1111_0011000_0_0000).instr? = some (.qfmt always 15 .f32 .i64 .rna true) := by decide

/-- V slots: VD in [22:12], VA in [33:23], VB in [44:34], VC in [55:45], FMT in [59:56], RM in [62:60] (R44, R118, R126). -/
theorem test_decode_v :
    (SlotWord.ofNum 3 0b0_000_0010_00000000000_00000000010_00000000001_00000000011_0000011_0_0000).instr? =
      some (.vmul always .f16 .rne (.v 3) (.v 1) (.v 2)) ∧
    (SlotWord.ofNum 4 0b0_000_1001_00000000000_00000000000_10111111111_11111111111_0110000_0_0000).instr? =
      some (.vmov always .i64 .rne .none (.v 1535)) ∧
    (SlotWord.ofNum 3 0b1_000_0010_00000000000_00000000010_00000000001_00000000011_0000011_0_0000).instr? = none := by decide

/-- M slot: the worked words of spec/08 and spec/14 (R118, R127). -/
theorem test_decode_m :
    (SlotWord.ofNum 5 0x0000_0000_0280_0100).instr? = some (.mzero always ⟨5, none⟩) ∧
    (SlotWord.ofNum 5 0x0000_8000_0000_2020).instr? = some (.mpush always .bf16 (.v 2) .i0) ∧
    (SlotWord.ofNum 5 0x0000_0000_0000_00C0).instr? = some (.mflip always) ∧
    (SlotWord.ofNum 5 0x0000_0000_0280_1060).instr? = some (.mshift always .bf16 ⟨5, none⟩ (.v 1) (.imm 0) 0 0 false) ∧
    (SlotWord.ofNum 5 0x0000_0000_0280_A0E0).instr? = some (.mdrain always .f32 ⟨5, none⟩ 10 (.imm 0) .rne false) ∧
    (SlotWord.ofNum 5 0x0006_0A00_0000_5028).instr? = some (.mpush ⟨8, false⟩ .vq2 (.v 5) (.imm 5)) ∧
    (SlotWord.ofNum 5 0x1216_8140_0000_0089).instr? = some (.mshiftl ⟨9, false⟩ .vq2 ⟨0, some 8⟩ .i0 1 2 true) := by decide

/-- L slot: the worked words of spec/14 and spec/16 (R118, R128). -/
theorem test_decode_l :
    (SlotWord.ofNum 6 0x0087_0008_0080_3120).instr? = some (.gathr always true false 3 1 (.s 7) 0 2 0) ∧
    (SlotWord.ofNum 6 0x0400_0000_0100_4240).instr? = some (.vldg always 0 4 2 (.s 0) 0 1) ∧
    (SlotWord.ofNum 6 0x0400_0040_0100_5240).instr? = some (.vldg always 0 5 2 (.s 0) 1024 1) ∧
    (SlotWord.ofNum 6 0x0000_0000_0100_02E0).instr? = some (.pgreq always false 2 (.s 0) 0) ∧
    (SlotWord.ofNum 6 0x0100_0000_0080_1080).instr? = some (.vst always 2 1 1 (.s 0) 0) := by decide

/-- E slot: the worked words of spec/15 and spec/16 (R118, R129). -/
theorem test_decode_e :
    (SlotWord.ofNum 7 0x0000_0000_1000_0512).instr? = some (.rlydone ⟨2, true⟩ 1) ∧
    (SlotWord.ofNum 7 0x0000_0000_1000_0543).instr? = some (.rlystash ⟨3, false⟩ 1) ∧
    (SlotWord.ofNum 7 0x0000_0000_1000_0564).instr? = some (.rlypop ⟨4, false⟩ 1) ∧
    (SlotWord.ofNum 7 0x0000_0000_1000_0531).instr? = some (.rlyfree ⟨1, true⟩ 1) ∧
    (SlotWord.ofNum 7 0x0000_0000_00A1_0400).instr? = some (.gsrch always 1 0 (.s 5)) ∧
    (SlotWord.ofNum 7 0x0000_0000_60A0_0420).instr? = some (.gstat always (.s 6) (.s 5)) := by decide

/-! ## Single steps, with results worked out from the rules that each comment names -/

/-- A task of partition 0, generation 1 (the tag that R382 gives it), ISSUING. -/
def running : Task := { Task.free with st := .issuing, tag := 1 }

/-- A core that issues this task from context 0. -/
def hosting (t : Task) : Core := { Core.reset with tasks := [(0, t)], issuing := some 0 }

/-- The module after reset with this core as core 0. -/
def module (k : Core) : State := { State.reset with cores := [(0, k)] }

/-- The module with one running task. -/
def base : State := module (hosting running)

/-- The module with a task that holds these scalar and address registers. -/
def given (s a : List (Nat × Word)) : State := module (hosting { running with s := s, a := a })

/-- What the state after the instruction satisfies; false where there is none. -/
def after (i : Instr) (s : State) (q : State → Bool) : Bool :=
  match exec i s with
  | .next t => q t
  | _ => false

/-- R158, R159, R160, R161: wrap, division by zero and overflow, sign extension, scaled sum, immediates. -/
theorem test_scalar :
    after (.add always (.s 3) (.s 1) (.s 2)) (given [(1, -1), (2, 2)] []) (·.scalar (.s 3) == 1) = true ∧
    after (.divs always (.s 3) (.s 1) (.s 2)) (given [(1, 0x8000000000000000), (2, -1)] []) (·.scalar (.s 3) == 0x8000000000000000) = true ∧
    after (.remu always (.s 3) (.s 1) (.s 2)) (given [(1, 7)] []) (·.scalar (.s 3) == 7) = true ∧
    after (.mulhs always (.s 3) (.s 1) (.s 1)) (given [(1, -1)] []) (·.scalar (.s 3) == 0) = true ∧
    after (.sext always (.s 3) (.s 1) 8) (given [(1, 0x180)] []) (·.scalar (.s 3) == 0xFFFFFFFFFFFFFF80) = true ∧
    after (.addx always (.a 1) (.s 1) (.s 2) 3) (given [(1, 1), (2, 2)] []) (·.scalar (.a 1) == 17) = true ∧
    after (.rol always (.s 1) (.s 1) (.s 2)) (given [(1, 0x8000000000000001), (2, 65)] []) (·.scalar (.s 1) == 3) = true ∧
    after (.lih always (.s 1) 1) (given [(1, 5)] []) (·.scalar (.s 1) == 0x20000005) = true ∧
    after (.addi always (.s 0) (.s 0) 5) base (·.scalar (.s 0) == 0) = true := by decide +kernel

/-- R162, R163, R164: lanes of a compare, selection by lane 0, and 1 + 2 = 3, 1 × -2 = -2 in FP32. -/
theorem test_scalar_compare_float :
    after (.clt always 2 (.s 1) (.s 2)) (given [(1, -1)] []) (·.pred 2 == BitVec.allOnes 256) = true ∧
    after (.cltu always 2 (.s 1) (.s 2)) (given [(1, -1)] []) (·.pred 2 == 0) = true ∧
    after (.sel always (.s 3) (.s 1) (.s 2) 2) (given [(1, 5), (2, 6)] []) (·.scalar (.s 3) == 6) = true ∧
    after (.fadd always (.s 3) (.s 1) (.s 2)) (given [(1, 0x3F800000), (2, 0x40000000)] []) (·.scalar (.s 3) == 0x40400000) = true ∧
    after (.fmul always (.s 3) (.s 1) (.s 2)) (given [(1, 0x3F800000), (2, 0xC0000000)] []) (·.scalar (.s 3) == 0xC0000000) = true ∧
    after (.ftoi always (.s 3) (.s 1)) (given [(1, 0x40200000)] []) (·.scalar (.s 3) == 2) = true := by decide +kernel

/-- R189: a pattern repeated over lanes, a lane count, a rotation. -/
theorem test_predicate :
    after (.pseti always 1 0x0F) base (fun t => (t.pred 1).extractLsb' 0 16 == 0x0F0F) = true ∧
    after (.planes always 1 0 3) base (·.pred 1 == 7) = true ∧
    after (.pnot always 0 0) base (·.pred 0 == BitVec.allOnes 256) = true ∧
    after (.prot always 1 1 255) (module (hosting { running with p := [(1, 1)] })) (·.pred 1 == 2 ^ 255) = true := by decide +kernel

/-- The module with v1 holding this word in every 32-bit element, and v2 its double copy shifted by one element. -/
def vectors (w : VBits) : State :=
  module { hosting running with v := [(1, { data := w, tag := 1 }), (2, { data := w >>> 32, tag := 1 })] }

/-- R169, R174, R179, R182, R185: FP32 sums by element, integer difference, element rotation, index vector, result queue. -/
theorem test_vector :
    after (.vadd always .f32 .rne (.v 3) (.v 1) (.v 2)) (vectors 0x400000003F800000)
      (fun t => elem .f32 (t.vreg 3) 0 == 0x40400000 && elem .f32 (t.vreg 3) 1 == 0x40000000) = true ∧
    after (.visub always .i32 .rne .none (.v 1) (.v 2)) (vectors 0x0000000200000001)
      (fun t => elem .i32 (t.result 0) 0 == 0xFFFFFFFF && elem .i32 (t.result 0) 1 == 2) = true ∧
    after (.vrotl always .i32 .rne (.v 1) (.v 1) 1) (vectors 0x0000000200000001)
      (fun t => elem .i32 (t.vreg 1) 0 == 2 && elem .i32 (t.vreg 1) 255 == 1) = true ∧
    after (.viota always .i16 .rne (.v 3)) base (fun t => elem .i16 (t.vreg 3) 511 == 511) = true := by decide +kernel

/-- R86, R187, R188: a sum by the tree in element 0, the index and value of the largest element, and VCMPLT's lanes (R177). -/
theorem test_vector_reduce :
    after (.vrsum always .i32 .rne (.v 3) (.v 1) 0) (vectors 0x0000000200000001)
      (fun t => elem .i32 (t.vreg 3) 0 == 3 && elem .i32 (t.vreg 3) 1 == 0) = true ∧
    after (.vargmx always .i32 .rne (.v 3) (.v 1) 0) (vectors 0x0000000200000001)
      (fun t => elem .i32 (t.vreg 3) 0 == 1 && elem .i32 (t.vreg 3) 1 == 2) = true ∧
    after (.vicmplt always .i32 .rne 1 (.v 1) (.v 2)) (vectors 0x0000000200000001) (·.pred 1 == 1) = true := by decide +kernel

/-- R199, R202, R212: MZERO clears its row, MFLIP exchanges the planes, a push lands 16 cycles later in the background plane. -/
theorem test_matrix :
    after (.mzero always ⟨5, none⟩) (module { hosting running with acc := [(5, { data := 1, tag := 1 })] })
      (fun t => t.accRow 5 == 0) = true ∧
    after (.mflip always) base (·.core.fore == true) = true ∧
    after (.mpush always .bf16 (.v 1) (.imm 7)) (vectors 5)
      (fun t => t.core.pend == [{ due := 16, ctx := 0, tag := 1, what := .push 15 5 }]) = true := by decide +kernel

/-- R215, R222, R227: bytes lie in ascending order, a load extends its sign, an atomic gives back the old value. -/
theorem test_local :
    after (.sts always 1 (.s 1) 1 (.s 0) 0) (given [(1, 0xABCD80)] [(1, 0x100)])
      (fun t => t.localBytes 1 0 0x100 4 == [0x80, 0xCD, 0, 0] && t.localBytes 2 0 0x100 2 == [0, 0]) = true ∧
    after (.sts always 0 (.s 1) 1 (.s 0) 0xFFFFF) (given [(1, 0x80)] [(1, 0x101)])
      (fun t => after (.lds always 0 true (.s 2) 1 (.s 0) 0xFFFFF) t (·.scalar (.s 2) == -128)) = true ∧
    after (.atoml always .max .i32 (.s 1) 1 (.s 0) 0) (given [(1, 5)] [(1, 0x100)])
      (fun t => t.scalar (.s 1) == 0 && t.localBytes 1 0 0x100 1 == [5]) = true ∧
    after (.lds always 2 false (.s 2) 1 (.s 0) 0) (given [] [(1, 0x102)])
      (fun t => t.task.trap.cause == 4 || t.task.st == .free) = true := by decide +kernel

/-- R252, R253: QCFG sets the endpoints and the tag; a task whose core is not the consumer advances nothing and traps QUEUE. -/
theorem test_queue :
    after (.qcfg always 3 0 2) base (fun t => (t.queue 0 3).cons == 2 && (t.queue 0 3).tag == 1) = true ∧
    after (.qadv always 3 1) (module (hosting { running with vec := 0x1000 }))
      (fun t => t.task.handling && t.task.trap.cause == 0x0C && t.task.trap.info == 0x13) = true := by decide +kernel

/-- R138, R140, R154, R155: a backward branch, a pushed level, a software trap and the return from its handler. -/
theorem test_control :
    after (.br always (-64)) (module (hosting { running with pc := 0x1000 })) (·.task.pc == 0xFC0) = true ∧
    after (.loopi always 3 64) base (fun t => t.task.loops.map (·.count) == [3] && t.scalar (.i 0) == 0) = true ∧
    after (.trap always 9) (module (hosting { running with vec := 0x2000, link := 0x1010 }))
      (fun t => t.task.pc == 0x2000 && t.task.trap.pc == 0x1010 && t.task.trap.info == 9 && t.task.handling) = true ∧
    after (.eret always) (module (hosting { running with handling := true, trap := { TrapRec.zero with pc := 0x1010 } }))
      (fun t => t.task.pc == 0x1010 && !t.task.handling) = true := by decide +kernel

/-- R156, R157: MFS reads TRAP.VEC, MTS clears its low six bits, an unprivileged GENRD traps PRIV. -/
theorem test_system :
    after (.mts always 0x015 (.s 1)) (given [(1, 0x1234)] []) (·.sysRead 0x15 == 0x1200) = true ∧
    after (.mfs always (.s 1) 6) base (·.scalar (.s 1) == 0x48) = true ∧
    after (.genrd always (.s 1) (.s 2)) (module (hosting { running with vec := 0x1000 }))
      (fun t => t.task.trap.cause == 2 && t.task.trap.info == 0x1B) = true := by decide +kernel

/-- R111: a line of zeros holds no bundle. -/
theorem test_line_of_zeros : bundles (List.replicate 64 0) = [] := by decide +kernel

/-- The word of `addi s3, s3, 8` (spec/04) is read as such from a table row of 48 bits, and the very next step runs it. -/
theorem test_step_runs_word : decodeTableWord 48 0x0010_0018_3400 = some (.addi always (.s 3) (.s 3) 8) ∧
    (match step (State.reset.withFetchWord 48 0x0010_0018_3400) with
      | .next t => (t.coreAt 0).task 0 |>.scalar (.s 3)
      | _ => 0) = 8 := by decide +kernel

/-! ## Witnesses: states and operands that meet the hypotheses of each statement, clause by clause, at values where
its ranges end -/

/-- A result of which this holds. -/
def gives {ε α : Type} (r : Except ε α) (p : α → Bool) : Bool :=
  match r with
  | .ok a => p a
  | .error _ => false

theorem gives_ok {ε α : Type} {r : Except ε α} {p : α → Bool} (h : gives r p = true) : ∃ a, r = .ok a ∧ p a = true := by
  cases r with
  | ok a => exact ⟨a, rfl, h⟩
  | error e => cases h

/-- A result that fails in this way. -/
def fails {ε α : Type} [DecidableEq ε] (r : Except ε α) (e : ε) : Bool :=
  match r with
  | .ok _ => false
  | .error x => x == e

theorem fails_error {ε α : Type} [DecidableEq ε] {r : Except ε α} {e : ε} (h : fails r e = true) : r = .error e := by
  cases r with
  | ok a => cases h
  | error x => exact congrArg _ (of_decide_eq_true h)

/-- The checks of a local access that can be computed, for a core with no uncorrectable error. -/
theorem plainLocal {s : State} {a : Word} {size align : Nat} {write : Bool}
    (h : a.toNat % align = 0 ∧ a.toNat < 2 ^ 22 ∧ (localCore s a ≠ s.c → (s.coreAt (localCore s a)).splitBusy = false) ∧
      localOffset a + size ≤ (s.coreAt (localCore s a)).scr * 2 ^ 16 ∧
      s.stashSectors (localCore s a) (localOffset a) size = [] ∧
      s.mustWait (localRegion (localCore s a) (localOffset a) size) write = false ∧
      (s.coreAt (localCore s a)).bad = []) : PlainLocal s a size align write :=
  ⟨h.1, h.2.1, h.2.2.1, h.2.2.2.1, h.2.2.2.2.1, h.2.2.2.2.2.1, fun _ _ _ => by rw [h.2.2.2.2.2.2]; simp⟩

theorem witness_ScalarArithmetic : base.guard always = true ∧ 1 ≤ (1 : BitVec 7).toNat ∧ (64 : BitVec 7).toNat ≤ 64 := by decide +kernel

theorem witness_ScalarDivision : (given [(1, 0x8000000000000000), (2, -1)] []).guard always = true := by decide +kernel

/-- A guard by a negated predicate that is false. -/
theorem witness_ScalarImmediates : base.guard ⟨15, true⟩ = true := by decide +kernel

theorem witness_ScalarComparesAndSelect : base.guard ⟨1, true⟩ = true := by decide +kernel

/-- Units of 2⁻¹⁴⁹, the least FP32 value, one number of which, 2⁻¹²⁵ + 2⁻¹⁴⁹, no FP32 value equals; and a code of each format. -/
theorem witness_ScalarFloat : (given [(1, 0x7FC00000)] []).guard always = true ∧ (-149 : Int) ≤ -149 ∧
    Finite (floatVal .f32 (round .f32 .rne false (.fin false (2 ^ 24 + 1) (-149)))) ∧
    0x7F7FFFFF < 2 ^ fmtWidth .f32 ∧ isNaN (floatVal .f32 0x7F7FFFFF) = false ∧
    Finite (floatVal .f32 0x7F7FFFFF) ∧ units (-149) (floatVal .f32 0x1000001) ≠ units (-149) (floatVal .f32 0x1000000) :=
  ⟨by decide +kernel, by decide, ⟨false, _, _, by rfl⟩, by decide, by decide +kernel, ⟨false, _, _, by rfl⟩, by decide +kernel⟩

theorem witness_PredicateLogic : base.guard always = true ∧ (256 : BitVec 9).toNat ≤ 256 := by decide +kernel

/-- Queue 15 with this fill under the running task's tag, core 0 at both ends. -/
def queued (fill : Nat) : State :=
  { base with queues := [(15, { Queue.reset with tag := 1, fill := fill })] }

theorem witness_ScaleRegistersAndFormats :
    PlainLocal base 0x7FE00 512 64 false ∧ base.guard always = true ∧ (given [] [(1, 32)]).areg 1 = 32 ∧ (32 : Word).toNat % 64 ≠ 0 ∧
    (0x100000 : Word).toNat % 64 = 0 ∧ (0x100000 : Word).toNat / 2 ^ 20 ≠ base.c % 4 ∧
    (¬ (0x7FE40 : Word).toNat % 2 ^ 20 + 512 ≤ (base.coreAt base.c).scr * 2 ^ 16) ∧ (0x7FE40 : Word).toNat / 2 ^ 20 = base.c % 4 ∧
    (0x7FE00 : Word).toNat / 2 ^ 20 = base.c % 4 ∧ (4, 15) ∉ base.core.bad ∧
    ((queued 0).queue 0 15).tag = (queued 0).task.tag ∧ (base.queue 0 15).tag ≠ base.task.tag :=
  ⟨plainLocal (by decide +kernel), by decide +kernel⟩

theorem witness_VectorFloat : fmtFA .f16 = true ∧ base.guardLanes always ≠ 0 ∧
    (∃ s1 vs, base.readVs [.v 1, .v 2, .t 3] = .ok (s1, vs) ∧ CanTake s1 (.v 1535) ∧ CanTake s1 .none) ∧
    ∃ s1 vs, (queued 7).readVs [.v 1] = .ok (s1, vs) ∧ CanTake s1 (.k 15) :=
  ⟨rfl, by decide +kernel, ⟨_, _, rfl, trivial, trivial⟩, ⟨_, _, rfl, by unfold CanTake; decide +kernel⟩⟩

/-- One queue entry, read and taken by an advancing source. -/
theorem witness_VectorInteger : base.guardLanes ⟨3, true⟩ ≠ 0 ∧
    ∃ s1 vs, (queued 1).readVs [.k 15 0 true, .v 2] = .ok (s1, vs) ∧ CanTake s1 (.v 0) :=
  ⟨by decide +kernel, _, _, rfl, trivial⟩

theorem witness_VectorMoveAndConvert : base.guardLanes always ≠ 0 ∧ (∃ s1 vs, base.readVs [] = .ok (s1, vs) ∧ CanTake s1 .none) ∧
    ∃ s1 vs, base.readVs [.v 0, .t 15] = .ok (s1, vs) ∧ CanTake s1 (.v 0) :=
  ⟨by decide +kernel, ⟨_, _, rfl, trivial⟩, _, _, rfl, trivial⟩

theorem witness_VectorReductions : Fmt.i64 ∈ [Fmt.f32, .i32, .i64] ∧ Fmt.e2m1 ≠ .i64 ∧ fmtInt .e2m1 = false ∧ fmtInt .i8 = true ∧
    base.guardLanes always ≠ 0 ∧ ∃ s1 vs, base.readVs [.v 1, .v 1] = .ok (s1, vs) ∧ CanTake s1 (.v 1) :=
  ⟨by decide, by decide, rfl, rfl, by decide +kernel, _, _, rfl, trivial⟩

theorem witness_VectorCompares : base.guardLanes always ≠ 0 ∧ ∃ s1 vs, base.readVs [.v 1, .v 2] = .ok (s1, vs) :=
  ⟨by decide +kernel, _, _, rfl⟩

/-- The base module with results under another tenancy's tag, sixteen of them. -/
def resulting : State := module (hosting { running with results := List.replicate 16 { data := 7, tag := 1025 } })

theorem witness_VectorSourcesAndResults : (2, 1535) ∉ base.core.bad ∧ (8, 16 * base.x + 15) ∉ base.core.bad ∧
    (∃ r, resulting.preTask.results[15]? = some r ∧ base.readable 1 r.tag = false) ∧ base.preTask.results.length ≤ 0 ∧ 63 < 64 ∧
    base.lands base.task.tag = true ∧ base.lands 2 = false ∧ base.readable 1 1 = true ∧ base.readable 1 1025 = false ∧
    base.readableShared 1 1025 (some 1) = true ∧ base.readableShared 1 1025 (some 63) = false ∧
    ({ base with tenancy := [(1, { gen := 1, base := 1, closed := true })] } : State).readableShared 1 1025 (some 1) = false ∧
    (let s := queued 8
     let q := s.queue (s.c / 4) 15
     tagGen q.tag ≠ 0 ∧ q.cons.toNat = s.c % 4 ∧ (7 : BitVec 3).toNat < q.fill ∧ (6, 8 * 15 + (q.rd.toNat + 7) % 8) ∉ s.core.bad) ∧
    tagGen (base.queue (base.c / 4) 15).tag = 0 ∧
    (let q : Queue := { Queue.reset with tag := 1, cons := 1 }; tagGen q.tag ≠ 0 ∧ q.cons.toNat ≠ base.c % 4) :=
  ⟨by decide +kernel, by decide +kernel, ⟨_, by rfl, by decide +kernel⟩, by decide +kernel⟩

/-- A level whose index is n. -/
def counting (n : Word) : Level :=
  { count := 9, index := n, endAddr := 0x40, body := 0, stages := none, total := 9 }

/-- A ready tile of these rows at offset 0. -/
def fullTile (rows : Nat) : Tile := { Tile.none with st := .ready, rows := rows, tag := 1 }

/-- A task in the n-th iteration of a loop, with a ready tile of 64 rows and an address register of 3,071. -/
def arrayReady (n : Word) : State :=
  module { hosting { running with loops := [counting n], a := [(1, 3071)] } with tiles := [(0, fullTile 64)] }

theorem soundLines {s : State} {n off len : Nat} (h : (s.coreAt n).bad = []) : SoundLines s n off len :=
  fun _ _ _ => by rw [h]; simp

theorem witness_MatrixInstructions :
    let s := arrayReady 7
    let t := s.landDue s.c s.now fun p => !p.isScale
    RowIs t (.imm 7) 8 7 ∧ RowIs t .i0 8 7 ∧ (∃ u v, t.readVs [.v 1] = .ok (u, [v])) ∧
    (∃ tile, t.tileReady 0 7 (1024 * 8) = .ok tile) ∧ (∃ tile, t.tileReady 0 63 (128 * 64) = .ok tile) ∧
    SoundLines t t.c (1024 * 7) 1024 ∧ SoundLines t t.c (128 * 63) 128 ∧
    RowOfAcc t ⟨3071, none⟩ 3071 ∧ RowOfAcc t ⟨0, some 1⟩ 3071 ∧ RowIs t (.imm 63) 64 63 ∧ RowIs t (.imm 3) (drainUnits .f32) 3 ∧
    s.guard always = true ∧ (4, 15) ∉ t.core.bad ∧ t.core.loads = [] ∧ (3, 3071) ∉ t.core.bad ∧ (7, 63) ∉ t.core.bad ∧
    (let s := arrayReady 8; let t := s.landDue s.c s.now fun p => !p.isScale; 8 ≤ (t.scalar (.i 0)).toNat) := by
  have tile (name need : Nat) (h : gives (((arrayReady 7).landDue 0 0 fun p => !p.isScale).tileReady 0 name need) (fun _ => true) = true) :
      ∃ x, ((arrayReady 7).landDue 0 0 fun p => !p.isScale).tileReady 0 name need = .ok x := (gives_ok h).imp fun _ h => h.1
  exact ⟨rfl, ⟨by decide +kernel, by decide⟩, ⟨_, _, rfl⟩, tile 7 _ (by decide +kernel), tile 63 _ (by decide +kernel),
    soundLines (by decide +kernel), soundLines (by decide +kernel), rfl, ⟨by decide +kernel, by decide⟩, rfl, rfl, by decide +kernel⟩

theorem witness_BeatArithmetic : 63 < 64 ∧ MFmt.bf16 ≠ .i8 ∧ mfmtScaled .bf16 = false ∧ mfmtScaled .vq2 = true ∧
    Fmt.e2m1 ∈ [Fmt.bf16, .f16, .e4m3, .e5m2, .e2m1] := by decide

/-- Strided and indexed addresses that end at the end of the scratchpad's first kilobyte, and a store's last bytes. -/
theorem witness_LocalAccesses :
    MayAccess base ∧ QuietTiles base ∧ PlainLocal base 0x7FFFF 1 1 false ∧ PlainLocal base 0x7FFF8 8 8 true ∧
    PlainLocal base 0x17FC00 1024 64 false ∧ PlainLocal base 0x7FC00 1024 64 true ∧ PlainLocal base 0x7FFFC 4 4 true ∧
    (∀ e, e < 1024 → PlainLocal base (BitVec.ofNat 64 e * 1) 1 1 true) ∧
    (∀ e, e < 128 → PlainLocal base (0x37FFF8 - BitVec.ofNat 64 e * 8) 8 8 false) ∧
    base.guard always = true ∧ (2, 1535) ∉ base.core.bad ∧
    2 ≤ (3 : BitVec 2).toNat ∧ Fmt.f32 ∈ [Fmt.i32, .i64, .f32] ∧ base.core.requests base.now + lineCount 0x17FC00 1024 ≤ 4096 ∧
    (let crowded := module { hosting running with inFlight := [{ till := 6, requests := 4080, range := none }] }
     crowded.core.requests crowded.now + lineCount 0x7FC00 1024 ≤ 4096 ∧
       ¬crowded.core.requests crowded.now + lineCount 0x7FC01 1024 ≤ 4096) ∧
    base.core.requests base.now + (((List.range 1024).map fun e => (BitVec.ofNat 64 e * 1 : Word).toNat / 64).eraseDups).length ≤ 4096 := by
  refine ⟨⟨rfl, rfl⟩, (fun _ h => nomatch h), plainLocal ?_, plainLocal ?_, plainLocal ?_, plainLocal ?_, plainLocal ?_, ?_, ?_, ?_⟩
  all_goals first
    | decide +kernel
    | (intro e he; apply plainLocal; revert e; decide +kernel)

theorem witness_LocalStoreBytes : base.lands 1 = true ∧ 255 < 256 ∧ 0xFFFFF + ([7] : List Byte).length ≤ 2 ^ 20 := by decide +kernel

/-- Elements 0 and 1 of a strided access of 8-byte elements to 0x7FFF0 with a stride of 8 pass, and element 2 leaves the
scratchpad; with a stride of 4 element 1 is not aligned; an indexed access from 0x37FFF8 leaves the neighbour's scratchpad
at element 1. -/
theorem witness_LocalChecks : MayAccess base ∧ base.guard always = true ∧ (4 : Word).toNat % 8 ≠ 0 ∧
    ((0x400000 : Word).toNat % 64 = 0 ∧ 2 ^ 22 ≤ (0x400000 : Word).toNat) ∧
    (0x7FFC0 : Word).toNat % 64 = 0 ∧ (0x7FFC0 : Word).toNat < 2 ^ 22 ∧ localCore base 0x7FFC0 = base.c ∧
    (base.coreAt (localCore base 0x7FFC0)).scr * 2 ^ 16 < localOffset 0x7FFC0 + 128 ∧ (2, 1535) ∉ base.core.bad ∧
    2 ≤ (3 : BitVec 2).toNat ∧ Fmt.i64 ∈ [Fmt.i32, .i64, .f32] ∧ 127 < 1024 / 2 ^ (3 : BitVec 2).toNat ∧
    (let s := given [(1, 8)] [(1, 0x7FFF0)]
     let at_ := fun (e : Nat) => s.areg 1 + (0 : BitVec 20).signExtend 64 + BitVec.ofNat 64 e * s.scalar (.s 1)
     (∀ j, j < 2 → (at_ j).toNat % 8 = 0 ∧ (at_ j).toNat < 2 ^ 22 ∧ localCore s (at_ j) = s.c ∧
       localOffset (at_ j) + 8 ≤ (s.coreAt (localCore s (at_ j))).scr * 2 ^ 16 ∧
       s.stashSectors (localCore s (at_ j)) (localOffset (at_ j)) 8 = []) ∧
     (at_ 2).toNat % 8 = 0 ∧ (at_ 2).toNat < 2 ^ 22 ∧ (s.coreAt (localCore s (at_ 2))).scr * 2 ^ 16 < localOffset (at_ 2) + 8) ∧
    (let s := given [(1, 4)] [(1, 0x7FF00)]
     (s.areg 1 + (0 : BitVec 20).signExtend 64 + BitVec.ofNat 64 1 * s.scalar (.s 1)).toNat % 8 ≠ 0) ∧
    (let s := { vectors (2 ^ 32) with cores := [(0, { (vectors (2 ^ 32)).coreAt 0 with tasks := [(0, { running with a := [(1, 0x37FFF8)], s := [(1, 0x80000)] })] })] }
     let at_ := fun (e : Nat) => s.areg 1 + s.scalar (.s 0) + BitVec.ofNat 64 (elem .i32 (s.vreg 1) e * 2 ^ (3 : BitVec 2).toNat)
     (at_ 0).toNat % 8 = 0 ∧ localCore s (at_ 0) = 3 ∧ (s.coreAt 3).splitBusy = false ∧ localOffset (at_ 0) + 8 ≤ (s.coreAt 3).scr * 2 ^ 16 ∧
       s.stashSectors 3 (localOffset (at_ 0)) 8 = [] ∧ (s.coreAt (localCore s (at_ 1))).scr * 2 ^ 16 < localOffset (at_ 1) + 8) :=
  ⟨⟨rfl, rfl⟩, by decide +kernel⟩

theorem witness_AtomicValues : ((Fmt.i32 = .i32 ∧ 32 = 32) ∨ (Fmt.i32 = .i64 ∧ 32 = 64)) ∧
    ((Fmt.i64 = .i32 ∧ 64 = 32) ∨ (Fmt.i64 = .i64 ∧ 64 = 64)) ∧ 2 ^ 32 - 1 < 2 ^ 32 := by decide

/-- A root table at 0x10000 whose first entry is a leaf for the first 4 TiB, with every permission and mark set, and whose second
is absent under soft residency; every unit is READY. -/
def mapping (s : State) : State :=
  { s with regs := [(partReg 0 0x40, 0x10001), (resetReg 0x10, BitVec.allOnes 64)], mem := [(0x10000, 0x5F), (0x10008, 0x20)] }

def mapped : State := mapping base

/-- A read that goes to a line that is mapped, and one that goes to an absent page under soft residency. -/
theorem lineRead_mapped (va n : Nat) (soft : Bool) (h : gives (mapped.readAt mapped.agent va n .read .plain) (fun _ => true) = true) :
    ∃ t bs poison, LineRead mapped va n soft t bs false poison := by
  obtain ⟨⟨u, x, l⟩, hr, -⟩ := gives_ok h
  exact ⟨_, _, _, .inl ⟨u, x, l, hr, rfl, rfl, rfl, rfl⟩⟩

theorem lineRead_absent : LineRead mapped (2 ^ 42) 64 true mapped (List.replicate 64 0) true false :=
  .inr ⟨1, 0x10008, fails_error (by decide +kernel), rfl, rfl, rfl, rfl, rfl⟩

theorem witness_GlobalLoads :
    MayAccess mapped ∧ QuietTiles mapped ∧ PlainLocal mapped 0x7FF80 128 64 false ∧
    (∃ t bs poison, LineRead mapped 56 8 false t bs false poison) ∧
    (∃ f : Nat → State, f 0 = mapped ∧ ∃ bs poison, LineRead (f 0) 64 64 false (f 1) bs false poison) ∧
    LineRead mapped (2 ^ 42) 64 true mapped (List.replicate 64 0) true false ∧
    (∃ t, mapped.gatherRow true false 63 0 128 0 0 = .ok t) ∧
    mapped.readAt mapped.agent (2 ^ 42) 8 .read .plain = .error (.fault 1 1 true 0x10008) ∧
    base.readAt base.agent 64 64 .read .plain = .error (.fault 1 0 false 0) ∧
    mapped.guard always = true ∧ (4 : Word).toNat % 8 ≠ 0 ∧ ¬(1 = 1 ∧ true = true ∧ (0 : BitVec 4) ≠ 0) ∧
    ¬(1 = 1 ∧ false = true ∧ (15 : BitVec 4) ≠ 0) ∧
    mapped.mustWait { glob := true, lo := 0, hi := 8 } false = false ∧ mapped.core.requests mapped.now + (8 + 63) / 64 ≤ 4096 ∧
    (4 : BitVec 3).toNat ≤ 4 ∧ (2, 1535) ∉ mapped.core.bad ∧
    mapped.core.requests mapped.now + 2 * ((63 : BitVec 7).toNat + 1) ≤ 4096 := by
  refine ⟨⟨rfl, rfl⟩, (fun _ h => nomatch h), plainLocal (by decide +kernel), lineRead_mapped 56 8 _ (by decide +kernel), ?_,
    lineRead_absent, ?_, fails_error (by decide +kernel), fails_error (by decide +kernel), by decide +kernel⟩
  · obtain ⟨t, bs, p, h⟩ := lineRead_mapped 64 64 false (by decide +kernel)
    exact ⟨fun | 0 => mapped | _ => t, rfl, bs, p, h⟩
  · exact (gives_ok (p := fun _ => true) (by decide +kernel)).imp fun _ h => h.1

theorem witness_GlobalStores :
    MayAccess mapped ∧ (∃ t, mapped.writeAt mapped.agent 56 (toBytes 8 5) = .ok t) ∧
    mapped.writeAt mapped.agent (2 ^ 42) (toBytes 8 5) = .error (.fault 1 1 true 0x10008) ∧
    mapped.writeAt mapped.agent (2 ^ 42) (toBytes 64 (mapped.vreg 1535).toNat) = .error (.fault 1 1 true 0x10008) ∧
    (∃ f : Nat → State, f 0 = mapped ∧ ∃ u, (f 0).writeAt (f 0).agent 64 (toBytes 64 0) = .ok u ∧ f 1 = State.noteWalk (f 0) u 64) ∧
    mapped.guard always = true ∧ (4 : Word).toNat % 8 ≠ 0 ∧ mapped.mustWait { glob := true, lo := 0, hi := 1024 } true = false ∧
    mapped.core.requests mapped.now + (1024 + 63) / 64 ≤ 4096 ∧ (4 : BitVec 3).toNat ≤ 4 ∧ (2, 1535) ∉ mapped.core.bad := by
  refine ⟨⟨rfl, rfl⟩, ?_, fails_error (by decide +kernel), fails_error (by decide +kernel), ?_, by decide +kernel⟩
  · exact (gives_ok (p := fun _ => true) (by decide +kernel)).imp fun _ h => h.1
  · obtain ⟨u, h, -⟩ := gives_ok (r := mapped.writeAt mapped.agent 64 (toBytes 64 0)) (p := fun _ => true) (by decide +kernel)
    exact ⟨fun | 0 => mapped | _ => State.noteWalk mapped u 64, rfl, u, h, rfl⟩

/-- A frame line that die 0 holds in way 0, which partition 0 may use. -/
def cached : State :=
  { mapped with
    regs := (partReg 0 0x40, 0x10001) :: (dcpReg 0 0, 1) :: [(resetReg 0x10, BitVec.allOnes 64)],
    dies := [(0, { Die.reset with lines := [{ key := 0x20000, way := 0, owner := 0, tag := 1, data := 7, valid := 15, dirty := 1, poison := false,
                                              reserved := false, doomed := 0 }] })] }

theorem witness_GlobalStoreBytes :
    mapped.copiesOf (lineOf 0x2003F) = [] ∧ cached.copiesOf (lineOf 0x2003F) = [] ∧ mapped.copiesOf (lineOf 0x20040) = [] ∧
    (∃ c, (cached.die (dieOf 0x2003F)).find (lineOf 0x2003F) = some c ∧ (cached.field (dcpReg (dieOf 0x2003F) 0) 15 0).testBit c.way = true) ∧
    0x2003F % 64 + ([9] : List Byte).length ≤ 64 ∧ mapped.lands 2 = false ∧ mapped.lands 1 = true ∧ lineOf 0x20040 ≠ lineOf 0x2003F ∧
    mapped.stackFailedAt (.frame 0x2003F none) = false ∧ (mapped.line (.frame 0x2003F none)).poison = false ∧
    mapped.field (partReg 0 0xE8) 0 0 = 0 ∧ mapped.field (dcpReg (dieOf 0x2003F) 0) 15 0 = 0 ∧
    (cached.line (.frame 0x2003F none)).poison = false ∧ cached.field (partReg 0 0xE8) 0 0 = 0 :=
  ⟨rfl, rfl, rfl, ⟨_, by rfl, by decide +kernel⟩, by decide +kernel⟩

/-- The states after the lines of a WATOMR have been translated one by one. -/
def walkedTo : Nat → State
  | 0 => mapped
  | i + 1 =>
    match (walkedTo i).translate (walkedTo i).agent (64 * i) .atomic .special with
    | .ok (u, _) => State.noteWalk (walkedTo i) u (64 * i)
    | .error _ => walkedTo i

theorem witness_GlobalAtomics :
    MayAccess mapped ∧ (∃ h : Nat → State, h 0 = mapped ∧ ∀ i, i < 16 →
      gives ((h i).translate (h i).agent (64 * i) .atomic .special) (fun r => decide (State.noteWalk (h i) r.1 (64 * i) = h (i + 1))) = true) ∧
    mapped.guard always = true ∧ Fmt.i64 ∈ [Fmt.i32, .i64, .f32] ∧ mapped.core.requests mapped.now < 4096 ∧
    mapped.core.requests mapped.now + 32 ≤ 4096 ∧
    mapped.mustWait { glob := true, lo := 0, hi := 2048 } true = false ∧ (2, 1535) ∉ mapped.core.bad ∧
    gives (mapped.readAt mapped.agent 56 8 .atomic .atomg) (fun r => !r.2.1.poison &&
      (let t := State.noteWalk mapped r.1 56
       gives ({ t with fresh := t.fresh + 1 }.putPart t.agent r.2.2 56 (toBytes 8 1)) fun _ => true)) = true ∧
    gives (mapped.readAt mapped.agent 56 8 .atomic .special) (fun r => !r.2.1.poison &&
      (let t := State.noteWalk mapped r.1 56
       gives ({ t with fresh := t.fresh + 1 }.giveUpLine r.2.2) fun _ => true)) = true ∧
    gives ({ mapped with poisoned := [(0, true)] }.readAt mapped.agent 56 8 .atomic .special) (fun r => r.2.1.poison) = true ∧
    gives ({ mapped with poisoned := [(0, true)] }.readAt mapped.agent 56 8 .atomic .atomg) (fun r => r.2.1.poison) = true :=
  ⟨⟨rfl, rfl⟩, ⟨walkedTo, rfl, by decide +kernel⟩, by decide +kernel⟩

theorem witness_PageRequestsAndRangeJobs :
    MayAccess mapped ∧ mapped.guard always = true ∧ 2 ^ 55 ≤ (0x80000000000000 : Word).toNat ∧
    gives (mapped.walk mapped.part 0) (fun w => mapped.entryValid mapped.part w.level w.entry) = true ∧
    gives (mapped.walk mapped.part (2 ^ 42)) (fun w => !mapped.entryValid mapped.part w.level w.entry &&
      gives (mapped.armMonitor w.slot) fun u => (u.post u.part { page := 2 ^ 26, die := u.c / 32, kind := 1, detail := 1 }).isSome) = true ∧
    (∀ acc, acc ∈ [Access.read, .write] → ∀ va, va < 64 → (va = 0 ∨ va % 2 ^ 16 = 0) →
      gives (mapped.translate mapped.agent va acc .plain) (fun _ => true) = true) ∧
    fails (mapped.translate mapped.agent (2 ^ 42) .write .plain) (.fault 1 1 true 0x10008) = true ∧
    (64 : Word).toNat % 64 = 0 ∧ (64 : Word) ≠ 0 ∧ (0xFFFFFFC0 : Word).toNat < 2 ^ 32 ∧ 2 ^ 32 ≤ (0x100000000 : Word).toNat ∧
    (32 : Word).toNat % 64 ≠ 0 := ⟨⟨rfl, rfl⟩, by decide +kernel⟩

/-- Stash entry 0 of the running core, active from local address 0 for 1 KiB, with this fault recorded. -/
def stashed (fault : Option (Nat × Word)) : State :=
  module { hosting running with
    stash := [(0, { active := true, base := 0, size := 1024, glob := 0, tag := 1, sectors := [], fault := fault })] }

theorem witness_StashInstructions :
    MayAccess base ∧
    (∃ y, (0, y) ∈ ((stashed none).coreAt 0).stash ∧ y.active = true ∧ ¬(0 = (stashed none).c ∧ 0 = (1 : BitVec 4).toNat) ∧
      y.base < 1024 + 1024 ∧ 1023 < y.base + y.size) ∧
    base.guard always = true ∧
    ¬((512 : Word).toNat % 1024 = 0 ∧ (512 : Word).toNat < 2 ^ 22) ∧ ¬((0x400000 : Word).toNat < 2 ^ 22) ∧
    ((0x7FC00 : Word).toNat % 1024 = 0 ∧ (0x7FC00 : Word).toNat < 2 ^ 22) ∧ ((1024 : Word).toNat % 1024 = 0 ∧ (1024 : Word) ≠ 0) ∧
    localCore base 0x7FC00 = base.c ∧ localOffset 0x7FC00 + 1024 ≤ (base.coreAt (localCore base 0x7FC00)).scr * 2 ^ 16 ∧
    ¬(localOffset 0x7FC00 + 2048 ≤ (base.coreAt (localCore base 0x7FC00)).scr * 2 ^ 16) ∧
    (∀ c, c < 4 → (base.coreAt c).stash = []) ∧
    base.core.jobs = [] ∧ (base.core.stashEntry 0).fault = none ∧ gives (base.writebackAll base.c 0) (fun u => (u.core.stashEntry 0).fault == none) = true ∧
    (base.core.stashEntry 0).active = false ∧
    (let s := stashed none
     let x := s.core.stashEntry 0
     x.active = true ∧ x.fault = none ∧ (∀ c, c < 4 → c ≠ 0 → (s.coreAt c).stash = []) ∧
       s.jobBlocked s.c s.x s.core.issuedJobs [{ glob := false, lo := x.base, hi := x.base + x.size }]
         [{ glob := true, lo := x.glob, hi := x.glob + x.size }] = false ∧
       gives (s.writebackAll s.c 0) (fun u => (u.core.stashEntry 0).fault == none) = true) ∧
    ((stashed (some (3, 9))).core.stashEntry 0).fault = some (3, 9) :=
  ⟨⟨rfl, rfl⟩, ⟨_, .head _, rfl, by decide, by decide, by decide⟩, by decide +kernel⟩

/-- A pump job that is not yet begun. -/
def pumpJob : PumpJob :=
  { id := 1, kind := .copy, ccbAddr := 0, ccb := 0, tag := 1, ctx := 0, launch := none, issued := 0, started := false, done := 0, order := 0 }

theorem witness_PumpInstructions :
    MayAccess base ∧ PlainLocal base 0x7FFC0 64 64 false ∧ base.guard always = true ∧ (base.core.pump 7).code = 0 ∧
    (base.core.pump 7).jobs.length < 16 ∧ (List.replicate 15 pumpJob).length < 16 ∧ (32 : Word).toNat % 64 ≠ 0 ∧
    ((module { hosting running with pumps := [(7, { Pump.init with code := 1 })] }).core.pump 7).code ≠ 0 :=
  ⟨⟨rfl, rfl⟩, plainLocal (by decide +kernel), by decide +kernel⟩

/-- The running core with these entries in its tile table, its task in a loop. -/
def tiled (ts : SMap Tile) : State := module { hosting { running with loops := [counting 0] } with tiles := ts }

/-- An entry of another tenancy. -/
def foreign : Tile := { fullTile 1 with tag := 1025 }

theorem ownLocal {s : State} {a : Word} {size align : Nat}
    (h : a.toNat % align = 0 ∧ a.toNat < 2 ^ 22 ∧ localCore s a = s.c ∧ localOffset a + size ≤ s.core.scr * 2 ^ 16) :
    OwnLocal s a size align := ⟨h.1, h.2.1, h.2.2.1, h.2.2.2⟩

theorem witness_TileInstructions :
    let s := tiled [(0, fullTile 1), (2, foreign), (4, { fullTile 1 with st := .filling }), (62, { fullTile 1 with pair := true })]
    MayAccess s ∧ OwnLocal s 0x7C000 (64 * 128 * 2) 128 ∧ EmptyTile s 8 ∧ EmptyTile s 9 ∧
    s.guard always = true ∧ 2 ^ 32 ≤ (0x100000000 : Word).toNat ∧ (0xFFFFFFFF : Word).toNat < 2 ^ 32 ∧ (s.core.seenTile 0).st ≠ .empty ∧
    (∀ n, n ∈ [0, 8, 9, 62, 63] → (7, n) ∉ s.core.bad) ∧
    s.preTask.level 1 = none ∧ s.preTask.level 0 = some (counting 0) ∧ (30 : BitVec 5).toNat + (2 : BitVec 3).toNat ≤ 32 ∧
    s.core.tileName 0 = 0 ∧ (s.core.seenTile 0).tag = s.task.tag ∧ (s.core.seenTile 0).st = .ready ∧
    (s.core.seenTile 0).bound = false ∧ (s.core.seenTile 4).st = .filling ∧
    (s.core.seenTile 2 ≠ Tile.none ∧ (s.core.seenTile 2).tag ≠ s.task.tag) ∧ (s.core.tile 0).st ≠ .filling ∧
    (s.core.seenTile 62).pair = true ∧ (s.core.tile 62).st ≠ .filling ∧ (s.core.tile 63).st ≠ .draining ∧
    (s.core.seenTile 2).st ≠ .empty :=
  ⟨⟨rfl, rfl⟩, ownLocal (by decide +kernel), ⟨by decide +kernel, by decide +kernel⟩, ⟨by decide +kernel, by decide +kernel⟩,
    by decide +kernel⟩

theorem witness_VolleyInstructions :
    MayAccess base ∧ OwnLocal base 0x7FFC0 64 64 ∧ EmptyTile base (base.core.tileName 5) ∧ ¬EmptyTile (tiled [(0, fullTile 1)]) 0 ∧
    base.guard always = true ∧ 2 ^ 32 ≤ (0x100000000 : Word).toNat ∧ (0xFFFFFFFF : Word).toNat < 2 ^ 32 ∧
    (32 : Word).toNat % 64 ≠ 0 ∧ base.core.sends = [] ∧ base.core.latches.length < 4 ∧ (7, base.core.tileName 63) ∉ base.core.bad :=
  ⟨⟨rfl, rfl⟩, ownLocal (by decide +kernel), ⟨by decide +kernel, by decide +kernel⟩, fun h => absurd h.1 (by decide +kernel),
    by decide +kernel⟩

theorem witness_QueueInstructions :
    MayAccess base ∧ MayAccess (queued 7) ∧ PlainLocal (queued 7) 0x7FC00 1024 64 false ∧ base.guard always = true ∧
    (let q := (queued 7).myQueue 15
     tagGen q.tag ≠ 0 ∧ q.prod.toNat = memberOf (queued 7).c ∧ q.cons.toNat = memberOf (queued 7).c ∧
       q.fill + q.landing.length < 8 ∧ (7 : BitVec 4).toNat ≤ q.fill) ∧
    tagGen (base.myQueue 15).tag = 0 ∧ (8 : BitVec 4).toNat ≤ ((queued 8).myQueue 15).fill :=
  ⟨⟨rfl, rfl⟩, ⟨rfl, rfl⟩, plainLocal (by decide +kernel), by decide +kernel⟩

/-- Bytes stored at a line's start under the running task's tag. -/
def stored (s : State) (a : Nat) (bs : List Byte) : State :=
  { s with
    mem := setRawBytes s.mem a bs,
    tags := (List.range ((bs.length + 63) / 64)).foldl (fun m i => SMap.set nullTag m (a / 64 + i) 1) s.tags }

/-- A graph of one vertex with one element and no neighbour: its descriptor at 0x20000, its record at 0x30000. -/
def graphed : State :=
  stored mapped 0x20000 (toBytes 4 0x52474E47 ++ toBytes 2 1 ++ [0, 0] ++ toBytes 2 1 ++ toBytes 2 1 ++ toBytes 4 1 ++
    toBytes 8 0x30000 ++ toBytes 4 64 ++ toBytes 4 4)

/-- A query packet of this metric for the graph, K and L 1, one entry point. -/
def queryPacket (metric : Nat) : List Byte :=
  toBytes 8 0x20000 ++ toBytes 1 metric ++ [0] ++ toBytes 2 1 ++ toBytes 2 1 ++ [1, 0] ++ toBytes 8 0x20040 ++ toBytes 8 0x20080 ++
    toBytes 8 0x20088 ++ List.replicate 216 0

def query (metric : Nat) : Query := Query.placed 0 1 0 0 none (queryPacket metric) 0 0

/-- The query once accepted. -/
def accepted : Query :=
  { query 0 with dim := 1, deg := 1, nvert := 1, recBase := 0x30000, recSize := 64, nbrOff := 4, qvec := [0] }

/-- The engine of stack 0 with this query in slot 0 and these forwarded requests. -/
def searching (q : Query) (reqs : List GReq) : State :=
  { graphed with gse := [(0, { Gse.reset with slots := [(0, some q)], requests := reqs })] }

def isDone {α : Type} (r : Tried α) : Bool :=
  match r with
  | .done _ _ => true
  | _ => false

def isOk : GRead → Bool
  | .ok _ _ _ => true
  | _ => false

/-- An accepted query that has visited its entry point, with this candidate. -/
def visited (done : Bool) : Query := { accepted with visited := [0], cands := [{ dist := 0, id := 0, done := done }] }

/-- A round of it with this much outstanding and these faults. -/
def round_ (waiting : Nat) (faults : List (Nat × Nat × Nat)) : Round :=
  { Round.open (some 0) with list := some [], fresh := some [], waiting := waiting, faults := faults }

theorem witness_GraphSearch_packets :
    MayAccess graphed ∧ PlainLocal graphed 0x7FF00 256 64 false ∧
    (∀ j, j < 64 → graphed.liveQuery 0 j = none) ∧ (searching (query 0) []).liveQuery 0 0 = some (query 0) ∧
    (query 0).dim = 0 ∧ (query 0).ending = none ∧
    (let s := searching (query 0) []; s.jobBlocked 0 0 0 (query 0).footprint.reads (query 0).footprint.writes = false) ∧
    (query 0).packetCode = 0 ∧ (query 2).packetCode ≠ 0 ∧
    (match (searching (query 0) []).takeQuery (query 0) with | .accept _ _ => true | _ => false) = true ∧
    (match mapped.takeQuery (query 0) with | .refuse _ => true | _ => false) = true ∧
    graphed.guard always = true ∧
    gives ((graphed.touchAt 0x7FF00 256).homeEngine 0x20000)
      (fun home => ((graphed.engine home).query 0).isNone) = true ∧
    (let q := query 0; (searching q []).task.tag = q.tag ∧ ((searching q []).engine 0).query 0 = some q ∧ q.seq = 0 / 2 ^ 11) :=
  ⟨⟨rfl, rfl⟩, plainLocal (by decide +kernel), by decide +kernel⟩

theorem witness_GraphSearch_rounds :
    (let q := { visited false with round := some (round_ 1 []) }
     (searching q []).liveQuery 0 0 = some q ∧ q.dim ≠ 0 ∧ q.ending = none ∧ q.round = some (round_ 1 []) ∧ 0 < (round_ 1 []).waiting) ∧
    (round_ 0 []).fresh = some [] ∧ (round_ 0 [(0, 2, 0)]).faults = [(0, 2, 0)] ∧ (round_ 0 []).waiting = 0 ∧
    (visited true).round = none ∧ (visited true).visited ≠ [] ∧ (∀ c, c ∈ (visited true).cands → c.done = true) ∧
    (visited false).cands[0]? = some { dist := 0, id := 0, done := false } ∧ (visited false).k ≤ (visited false).cands.length ∧
    ({ visited false with cands := [⟨0, 0, true⟩, ⟨0, 0, false⟩] } : Query).k - 1 < 1 ∧ 0 ≤ (visited false).k - 1 ∧
    gives ((searching (visited false) []).askFor 0 0 (visited false) (Round.open (some 0)) false 0 0) (fun r =>
      decide (r.2.waiting = 0 ∧ r.2.list = some [] ∧ r.2.fresh = none ∧ r.2.faults = []) &&
      gives (newIds (visited false) 0 [] []) fun fresh => gives (r.1.askDistances 0 0 (visited false) r.2 fresh) fun w =>
        decide (w.2.waiting = 0 ∧ w.2.faults = [])) = true ∧
    fails (newIds (visited false) 0 [] [1]) (4, 5, 0) = true := by decide +kernel

theorem witness_GraphSearch_requests_results :
    (let q := { visited false with round := some (round_ 1 []) }
     let req : GReq := { home := 0, slot := 0, vertex := 0, dist := true, place := 0 }
     let s := searching q [req]
     (s.engine 0).requests = [req] ∧ s.liveQuery 0 0 = some q ∧ isOk (s.readVertex q 0) = true ∧ isOk (s.readList q 0) = true) ∧
    (searching accepted [{ home := 0, slot := 1, vertex := 0, dist := false, place := 0 }]).liveQuery 0 1 = none ∧
    (let q := { visited true with ending := some (1, 0) }
     let s := searching q []
     s.liveQuery 0 0 = some q ∧ q.written < q.k ∧ gives (s.writeSpan q.agent q.result (q.resultEntry 0) 2) (fun _ => true) = true ∧
       q.lost = false ∧ ({ q with written := 1 } : Query).k ≤ 1 ∧ q.done % 8 = 0 ∧ s.poisonedAt q.agent q.done = false ∧
       isDone (s.tryWrite q.agent q.done (toBytes 8 1)) = true) ∧
    fails (base.writeSpan accepted.agent 0x20080 (accepted.resultEntry 0) 2) (.fault 1 0 false 0) = true ∧
    ([0] : List Nat) ≠ [] ∧ ([0] : List Nat).length = [0].length ∧ (List.replicate 32 0).length ≤ 32 ∧
    (visited false).visited.length ≤ 8192 ∧ gives (newIds (visited false) 0 [] [0, 0]) (fun f => f == []) = true := by decide +kernel

/-- A launch of partition 0 on quad 0 with these entries waiting. -/
def launched (waiting : List Word) : Launch :=
  { part := 0, q := 0, idx := 0, signal := 0, sigval := 0, irq := false, base := 0x20000, codeOff := 64, codeSize := 64, liveOff := 0,
    liveCnt := 1, tensOff := 0, tensCnt := 0, spacing := 1000, arg := 0, err := 0, quads := [0], waiting := waiting, priv := false,
    halt := none, errors := 0, tag := 1, rally := false, extra := [] }

/-- A packet of a type with these words in its body. -/
def packet (type : Nat) (body : List Word) : Packet :=
  { q := 0, idx := 0, part := 0, pasid := 1, words := BitVec.ofNat 64 type :: 0 :: 0 :: body, begun := false, copy := none, launch := none }

/-- Partition 0 owns quad 0 and holds its slice, with an image of one placement entry at 0x20000, a table of one entry at
0x40000, a launch and these packets. -/
def working (l : Launch) (ks : List Packet) : State :=
  let s := stored (stored mapped 0x20000 (toBytes 4 0x494B4E47 ++ toBytes 2 1 ++ toBytes 2 1 ++ toBytes 4 64 ++ toBytes 4 64 ++
    toBytes 4 128 ++ toBytes 2 1 ++ toBytes 2 1000 ++ List.replicate 168 0))
    0x40000 (toBytes 4 0x54524E47 ++ toBytes 2 1 ++ toBytes 2 1 ++ toBytes 4 1 ++ toBytes 4 1 ++ List.replicate 144 0)
  { s with
    cores := [], regs := SMap.set 0 s.regs (partReg 0 0) 1, launches := [(3, some l)], packets := ks,
    slices := [(0, some { part := 0, left := 0, endsAt := 0, quiesce := none })] }

def isRead (r : DispRead) : Bool := match r with | .ok _ _ => true | _ => false
def isFailed (r : DispRead) : Bool := match r with | .fails _ => true | _ => false
def isImage (r : ImageRead) : Bool := match r with | .ok u h ps => u.quadsReady ((u.ownedQuads 0).take h.quads) && ps.length == 1 | _ => false
def isRefused (r : ImageRead) : Bool := match r with | .refused => true | _ => false

theorem witness_LaunchesAndRallies_launches :
    (let l := launched [0]
     let s := working l []
     s.launch 3 = some l ∧ l.waiting[0]? = some 0 ∧ l.quads[0]? = some 0 ∧ ((s.catchUp 0).taskAt 0 0).st = .free ∧
       (s.catchUp 0).onSlice l.part 0 = true ∧ ({ l with extra := [1, 2, 3, 4] } : Launch).extra = [1, 2, 3, 4]) ∧
    (let l := launched []
     let k := { packet 1 [] with begun := true }
     let s := working l [k]
     s.launch 3 = some l ∧ (s.settleLaunch 3).launch 3 = some l ∧ (s.settleLaunch 3).launchOver 3 = true ∧
       (s.settleLaunch 3).packetAt l.q l.idx = some k ∧ s.launchTasks 3 = false ∧ s.haltedBy 3 = [] ∧ s.launchOver 3 = true ∧ l.rally = false ∧ l.errors = 0 ∧
       l.halt = none ∧ s.packetAt l.q l.idx = some k ∧
       ({ s with cores := [(0, { Core.reset with pumps := [(7, { Pump.init with code := 1, failLaunch := some 3 })] })] } : State).haltedBy 3 = [(0, 7)]) ∧
    (let s := { working (launched []) [] with cores := [(0, hosting { running with launch := some 3 })] }
     s.launchTasks 3 = true ∧ s.launchOver 3 = false ∧ s.onSlice 1 0 = false) := by decide +kernel

theorem witness_LaunchesAndRallies_load :
    let k := packet 3 [0x40000]
    let s := working (launched []) [k]
    s.packetAt 0 0 = some k ∧ s.toBegin k.part = some k ∧ k.type = 3 ∧ k.headerOk = true ∧ k.bodyOk = true ∧
    (packet 3 [0x40020]).bodyOk = true ∧ (k.word 3).toNat % 64 = 0 ∧ isFailed (({ s with regs := [] } : State).dispRead 0 0x40000 128) = true ∧
    (match (s.begin k).dispRead 0 0x40000 128 with
      | .ok v bs => ofBytes ((bs.drop 6).take 2) == 1 && isRead (v.dispRead 0 (0x40000 + 128) 32) &&
          headerOk bs (readTable bs [(readEntry (List.replicate 32 0)).1] false 1) && (readEntry (List.replicate 32 0)).2
      | _ => false) = true ∧ (s.rallyOf 0).st = 0 := by decide +kernel

/-- A loaded table of one forward entry, in this state and with this launch in flight. -/
def table (st : Nat) (live : Option Nat) (image : Word) : Rally :=
  { Rally.none with tag := 1, entries := [{ kind := 0, nin := 1, nout := 1, mb := 0, image := image, arg := 0 }], st := st, stashLim := 1,
                    fillF := 1, freeDn := 1, live := live, dnNode := 0x10001, dn := { base := 0, slot := 64, cnt := 1 },
                    fin := { base := 0, slot := 64, cnt := 1 } }

theorem witness_LaunchesAndRallies_entries :
    (let s := { working (launched []) [] with rally := [(0, table 1 none 0x20000)] }
     let r := s.rallyOf 0
     r.entries[r.head]? = some { kind := 0, nin := 1, nout := 1, mb := 0, image := 0x20000, arg := 0 } ∧ r.st = 1 ∧ r.cause = 0 ∧
       isImage (s.readImage 0 0x20000) = true ∧ isRefused (s.readImage 0 0x20040) = true ∧ r.errRec = 0 ∧
       ({ r with stash := 1 } : Rally).cause ≠ 0) ∧
    (let s := { working { launched [] with rally := true } [] with rally := [(0, table 2 (some 3) 0)] }
     (s.rallyOf 0).live = some 3 ∧ s.launchOver 3 = true ∧ ((s.settleLaunch 3).rallyOf 0).posted = 0 ∧
       ((s.settleLaunch 3).rallyOf 0).trBase = 0) ∧
    (let r : Remote := { what := .increment 0 0, core := 0, ctx := 0, tag := 1, launch := none, node := 1, ea := 0, link := 0,
                         deadline := 500000, parts := [0], got := [], bad := 0, born := 0 }
     let s := { base with remotes := [(5, some r)], time := 500000 }
     SMap.get none s.remotes 5 = some r ∧ r.tag ≠ (s.rallyOf 0).tag ∧ r.tag = (table 1 none 0).tag ∧ r.what = .increment 0 0 ∧ r.deadline ≤ s.time ∧ base.time < r.deadline) := by decide +kernel

theorem witness_LaunchesAndRallies_handoff :
    MayAccess base ∧ base.guard always = true ∧ base.task.rally = none ∧
    (let s := { module (hosting { running with rally := some (0, 0) }) with rally := [(0, table 2 none 0)] }
     s.task.rally = some (0, 0) ∧ s.handoffReady = true ∧ (s.rallyOf 0).entries[0]? ≠ none ∧ (s.rallyOf 0).dnNode.getLsbD 16 = true ∧
       (s.rallyOf 0).dn.cnt ≠ 0 ∧ (1 : BitVec 8).toNat ≤ (s.rallyOf 0).fillF) :=
  ⟨⟨rfl, rfl⟩, by decide +kernel⟩

/-- A table of three levels whose first page is a cistern page of die 0, with a quota of this many pages and these reservations. -/
def paged (quota : Nat) (held : List Reserved) : State :=
  { base with
    regs := [(partReg 0 0x40, 0x10001), (dcpReg 0 0, BitVec.ofNat 64 (quota * 2 ^ 40)), (resetReg 0x10, BitVec.allOnes 64)],
    mem := [(0x10000, 1), (0x10002, 2), (0x20000, 1), (0x20002, 3), (0x30000, 0x9F)],
    dies := [(0, { Die.reset with reserved := held })] }

theorem witness_CisternAndSplit :
    MayAccess (paged 1 []) ∧ (∀ j, j < 1 → (paged 1 []).cisternHome (0 + j) = .ok 0) ∧
    (∃ e r, e ∈ (paged 1 [⟨0, 0, 1⟩]).dies ∧ r ∈ e.2.reserved ∧ r.part = (paged 1 [⟨0, 0, 1⟩]).part ∧ 0 ≤ r.page ∧ r.page < 0 + 1) ∧
    (paged 1 []).guard always = true ∧ (0x8000 : Word).toNat % 2 ^ 16 ≠ 0 ∧ (0x10000 : Word) ≠ 0 ∧
    (0x10000 : Word).toNat % 2 ^ 16 = 0 ∧
    (mapped.tlbFind mapped.agent 0).isNone = true ∧
    gives (mapped.walk mapped.part 0) (fun w => mapped.entryValid mapped.part w.level w.entry && bits w.entry 9 7 != 1) = true ∧
    gives (mapped.translate mapped.agent 0 .read .plain) (fun r => (r.1.tlbFind r.1.agent 0).any fun w =>
      r.1.entryValid r.1.part w.level w.entry && bits w.entry 9 7 != 1) = true ∧
    1024 * (paged 0 []).field (dcpReg 0 0) 51 40 < (paged 0 []).reservedOn 0 0 + 1024 ∧
    (∀ d, d < Config.dies → ¬1024 * (paged 1 []).field (dcpReg d 0) 51 40 <
      (paged 1 []).reservedOn d 0 + 1024 * ((List.range 1).filter fun _ => 0 = d).length) ∧
    (12 : BitVec 4).toNat ≤ 12 ∧ base.core.scr < 12 ∧ SMap.wf nullTag base.tags = true ∧
    ((stashed none).unitInUse 0 0 (8 * 2 ^ 16) = true ∧ (0 : BitVec 4).toNat < (stashed none).core.scr) ∧
    base.unitInUse 0 0 (8 * 2 ^ 16) = false ∧ base.localFlying 0 0 (8 * 2 ^ 16) = false ∧
    ∀ c, c < 4 → ∀ x, x < 16 → base.footprints (quadOf base.c * 4 + c) x = ([], []) := by
  refine ⟨⟨rfl, rfl⟩, ?_, ⟨_, _, .head _, .head _, by decide +kernel, by decide, by decide⟩, by decide +kernel⟩
  intro j hj
  obtain ⟨h, hh, h0⟩ := gives_ok (r := (paged 1 []).cisternHome 0) (p := fun h => h == 0) (by decide +kernel)
  obtain rfl : j = 0 := by omega
  rw [hh]; exact congrArg _ (of_decide_eq_true h0)

/-- A binding of node 1 to job 7, and node 1's incarnation known. -/
def bound : State :=
  { base with regs := [(fabricReg 0x10008, 1), (fabricReg 0x20000, 0x10007)] }

theorem witness_RemoteInstructions :
    MayAccess bound ∧ (bound.bindingOf bound.part 1 = .ok 7 ∧ bound.bindingOf bound.part 2 = .error 3 ∧ base.bindingOf base.part 1 = .error 1) ∧
    bound.guard always = true ∧ 2 ^ 16 ≤ (0x10000 : Word).toNat ∧ (0xFFFF : Word).toNat < 2 ^ 16 ∧
    (4 : Word).toNat % 8 ≠ 0 ∧ bound.task.rstpOut = 0 ∧ (2, 1535) ∉ bound.core.bad ∧
    gives (bound.remoteData (.vector 1535) 1024) (fun _ => true) = true ∧ 255 < 256 ∧ Fmt.f32 ∈ [Fmt.i32, .i64, .f32] ∧
    (module (hosting { running with rstpOut := 1 })).task.rstpOut = 1 ∧ bound.task.rstpFail = none ∧
    (module (hosting { running with rstpFail := some ⟨4, 1, 0⟩ })).task.rstpFail = some ⟨4, 1, 0⟩ :=
  ⟨⟨rfl, rfl⟩, ⟨by rfl, by rfl, by rfl⟩, by decide +kernel⟩

theorem witness_Branches : (given [(63, 0x1000)] []).guard always = true ∧ (given [] []).frame = none := ⟨by decide +kernel, rfl⟩

/-- A module whose code holds a bundle at 0. -/
def coded : State := State.reset.withFetchWord 48 0x0010_0018_3400

/-- A task in this many levels, the innermost of them of LOOP.P. -/
def looping (n : Nat) : State :=
  module (hosting { running with loops := { counting 0 with stages := some 8 } :: List.replicate (n - 1) (counting 0) })

theorem witness_LoopPush : coded.guard always = true ∧ gives (coded.afterEnd 0) (fun _ => true) = true ∧ (1 : Word) ≠ 0 ∧
    6 ≤ (looping 6).task.loops.length ∧ (looping 5).task.loops.length < 6 ∧ (∃ l, l ∈ (looping 5).task.loops ∧ l.stages ≠ none) ∧
    ∀ l, l ∈ (arrayReady 7).task.loops → l.stages = none :=
  ⟨by decide +kernel, by decide +kernel, by decide, by decide, by decide, ⟨_, .head _, by decide⟩, by decide +kernel⟩

theorem witness_LoopBack :
    (let s := module (hosting { running with loops := [counting 7, counting 0] })
     s.guard always = true ∧ s.task.loops = counting 7 :: [counting 0] ∧ ((counting 7).index + 1).toNat < (counting 7).total ∧
       (counting 7).index.toNat + 1 < (counting 7).total) ∧
    (counting 8).total ≤ ((counting 8).index + 1).toNat ∧ (counting 8).total ≤ (counting 8).index.toNat + 1 ∧
    (∀ o, [{ counting 0 with endAddr := 0x80 }].head? = some o → o.endAddr ≠ (counting 8).endAddr) ∧
    (∃ o, [counting 0].head? = some o ∧ o.endAddr = (counting 8).endAddr) ∧ base.task.loops = [] ∧
    gives (coded.afterEnd 0) (fun _ => true) = true := by
  refine ⟨⟨by decide +kernel, rfl, by decide, by decide⟩, by decide, by decide, ?_, ⟨_, rfl, by decide⟩, rfl, by decide +kernel⟩
  intro o h; cases h; decide

/-- A task of launch 3, whose live maps are one, with its partition asked to leave quad 0 or not. -/
def safePoint (leave : Option Nat) : State :=
  { module (hosting { running with launch := some 3 }) with
    launches := [(3, some (launched []))], slices := [(0, some { part := 0, left := 0, endsAt := 0, quiesce := leave })] }

theorem witness_OrderingAndWaits :
    base.guard always = true ∧ base.myLaunch = none ∧ (safePoint none).myLaunch = some (launched []) ∧
    (0 : BitVec 22).toNat < (launched []).liveCnt ∧ (launched []).liveCnt ≤ (1 : BitVec 22).toNat ∧ (safePoint none).preempted = false ∧
    (safePoint (some 0)).preempted = true ∧ (safePoint (some 0)).task.handling = false ∧ (0 : Word).ult (base.core.pump 7).below = true ∧
    (1 : Word).ult (base.core.pump 7).below = false ∧ (base.core.pump 7).code = 0 ∧
    (let p := { Pump.init with code := 5 }
     (p.code.toNat, Cause.align, 0) ∈ [(1, Cause.swtrap, 4), (2, .xlate, p.failInfo.toNat % 2 ^ 8), (3, .poison, 0), (4, .lsrange, 0), (5, .align, 0)]) := by
  decide +kernel

theorem witness_Parks : mapped.guard always = true ∧ (4 : Word).toNat % 8 ≠ 0 ∧
    mapped.mustWaitJobs { glob := true, lo := 56, hi := 64 } false = false ∧
    mapped.mustWaitResults { glob := true, lo := 56, hi := 64 } = false ∧
    fails (mapped.readAt mapped.agent (2 ^ 42) 8 .read .plain) (.fault 1 1 true 0x10008) = true ∧
    gives (mapped.readAt mapped.agent 56 8 .read .plain) (fun r => !r.2.1.poison) = true ∧
    gives ({ mapped with poisoned := [(0, true)] }.readAt mapped.agent 56 8 .read .plain) (fun r => r.2.1.poison) = true ∧
    (let q := (queued 0).myQueue 15; tagGen q.tag ≠ 0 ∧ q.cons.toNat = memberOf (queued 0).c) ∧ tagGen (base.myQueue 0).tag = 0 ∧
    2 ^ 55 ≤ (0x80000000000000 : Word).toNat ∧ (0x7FFFFFFFFFFFFF : Word).toNat < 2 ^ 55 ∧
    fails (base.walk base.part 0x7FFFFFFFFFFFFF) (.fault 1 0 false 0) = true ∧
    gives (mapped.walk mapped.part 0) (fun w => mapped.entryValid mapped.part w.level w.entry) = true ∧
    gives (mapped.walk mapped.part (2 ^ 42)) (fun w => !mapped.entryValid mapped.part w.level w.entry &&
      gives (mapped.armMonitor w.slot) fun _ => true) = true := by decide +kernel

theorem witness_TaskStartAndEnd :
    (safePoint none).guard always = true ∧ ((safePoint none).core.task 0).st ≠ .free ∧ ((safePoint none).core.task 15).st = .free ∧
    (safePoint none).myLaunch = some (launched []) ∧ (32 : Word).toNat % 64 ≠ 0 ∧ (launched []).codeSize.toNat ≤ (64 : Word).toNat ∧
    (0 : Word).toNat < (launched []).codeSize.toNat ∧ base.myLaunch = none ∧ (safePoint none).task.launch = some 3 ∧
    (safePoint none).launch 3 = some (launched []) := by decide +kernel

/-- Die barrier 15 of die 0 granted to partition 0. -/
def granted : State := { base with regs := [(partReg 0 0x28, 0x8000)] }

theorem witness_BarrierInstructions :
    granted.guard always = true ∧ granted.field (partReg granted.part 0x28) 15 15 = 1 ∧ ¬base.field (partReg base.part 0x28) 15 15 = 1 ∧
    64 < (65 : Word).toNat ∧ (512 : Word) ≠ 0 ∧ (512 : Word).toNat ≤ 512 ∧ 512 < (513 : Word).toNat := by decide +kernel

/-- A compare to p8 that has not delivered yet. -/
def stageWriter : Board := { key := .p 8, ctx := 0, deliver := 9, lastRead := 0 }

theorem witness_ControlEffects :
    (∃ f, (base.dispatch [] 0).frame = some f) ∧ (∀ n, RegKey.a 31 ≠ .p n) ∧ (∀ line, ParkCause.time 0 ≠ .page line) ∧
    (coded.task.handling = false ∧ coded.core.replay = false ∧ coded.core.issuing = some coded.x ∧ coded.frame = none) ∧
    (module (hosting { running with handling := true })).task.handling = true ∧
    coded.task.endsAt coded.task.pc = false ∧ { running with pc := 0x40, loops := [counting 0] }.endsAt 0x40 = true ∧
    coded.core.loads = [] ∧
    (let s := looping 1
     let l := { counting 0 with stages := some 8 }
     s.core.loads = [] ∧ s.task.around 7 = some l ∧ l.stages ≠ none) ∧
    (let i : Issue := { Core.reset.issue with board := [stageWriter, { stageWriter with key := .a 31 }, { stageWriter with ctx := 1 }] }
     stageWriter ∈ i.board ∧ stageWriter.ctx = base.x ∧ stageWriter.key = .p 8 ∧ 8 ≤ 8 ∧ 14 < 15 ∧
       ({ stageWriter with ctx := 1 } : Board).ctx ≠ base.x) :=
  ⟨⟨_, rfl⟩, (fun _ h => nomatch h), (fun _ h => nomatch h), by decide +kernel⟩

theorem witness_TrapsAndReturns : base.guard always = true ∧ (module (hosting { running with handling := true })).task.handling = true ∧
    (module (hosting { running with vec := 64 })).task.handling = false ∧ (module (hosting { running with vec := 64 })).task.vec ≠ 0 ∧
    base.task.vec = 0 ∧ base.task.launch = none ∧ (safePoint none).task.launch = some 3 ∧ base.core.replay = false ∧ base.frame = none ∧
    (base.dispatch [] 0).frame.isSome = true ∧ (base.dispatch [] 0).guard always = true ∧
    (module { hosting running with replay := true }).core.replay = true := by decide +kernel

theorem witness_SystemRegisters : base.guard always = true ∧ ((0x29 : Word).extractLsb' 0 4).toNat < 10 ∧ ((0x490 : Word).extractLsb' 4 4).toNat < 10 ∧
    ((0x490 : Word).extractLsb' 8 3).toNat < 5 ∧ 10 ≤ ((0x0A : Word).extractLsb' 0 4).toNat ∧ 10 ≤ ((0xA0 : Word).extractLsb' 4 4).toNat ∧
    5 ≤ ((0x500 : Word).extractLsb' 8 3).toNat := by decide +kernel

/-- A privileged task of partition 0; partition 63 with this generation, closed or not. -/
def keeper (gen : BitVec 10) (closed : Bool) : State :=
  { module (hosting { running with privileged := true }) with tenancy := [(63, { gen := gen, base := 1, closed := closed })] }

theorem witness_PrivilegedInstructions :
    base.guard always = true ∧ base.task.privileged = false ∧ (keeper 1 false).guard always = true ∧ (keeper 1 false).task.privileged = true ∧
    63 < (64 : Word).toNat ∧ (63 : Word).toNat ≤ 63 ∧ ((keeper 1 true).ten 63).closed = true ∧ ((keeper 1 false).ten 0).closed = false ∧
    0 = (keeper 1 false).part ∧ 63 ≠ (keeper 1 false).part ∧
    genDist ((keeper 511 false).ten 63).base (nextGen ((keeper 511 false).ten 63).gen) < 512 ∧
    512 ≤ genDist ((keeper 512 false).ten 63).base (nextGen ((keeper 512 false).ten 63).gen) ∧ (1 : Word) ≠ 0 ∧
    (keeper 1 false).field (partReg 63 0xF8) 32 32 = 0 ∧
    ({ keeper 1 false with regs := [(partReg 63 0xF8, 2 ^ 32)] } : State).field (partReg 63 0xF8) 32 32 = 1 := by decide +kernel

/-- A load that is due. -/
def arrived (dest : LoadTo) (tag : Tag) : Load :=
  { ctx := 0, due := 0, dest := dest, data := 5, pr := 1, keep := 0, poison := some 64, tag := tag }

theorem witness_CoreArrivals :
    (∀ l, l ∈ base.core.loads → base.core.clock < l.due) ∧
    (module { hosting running with loads := [arrived (.vector 1535 1024) 1] }).core.nextLoad = some (arrived (.vector 1535 1024) 1) ∧
    (module { hosting running with loads := [arrived (.latch 63) 2] }).core.nextLoad = some (arrived (.latch 63) 2) ∧
    (let m : Load := { arrived (.latch 63) 1 with due := 9 }
     let l : Load := { arrived (.latch 62) 1 with pr := 0 }
     let k := (module { hosting running with loads := [{ m with pr := 0 }, l] }).core
     k.loads = [{ m with pr := 0 }] ++ l :: [] ∧ (∀ x, x ∈ [{ m with pr := 0 }] → k.clock < x.due) ∧ l.due ≤ k.clock ∧
       ∀ x, x ∈ [{ m with pr := 0 }] → ∀ key, key ∈ x.keys → key ∉ l.keys) ∧
    (let m : Load := { arrived (.latch 63) 1 with due := 9 }
     (∃ key, key ∈ m.keys ∧ key ∈ (arrived (.latch 63) 1).keys) ∧ arrived (.latch 63) 1 ∉ m :: []) ∧
    base.lands 1 = true ∧ base.lands 2 = false ∧ (base.core.task 0).st ≠ .free ∧ (base.core.task 0).tag = 1 ∧ 1024 ≤ 1024 ∧
    (let p : Pend := { due := 0, ctx := 0, tag := 1, what := .scale 15 0 }
     [p].filter (fun p => Pend.isScale p && decide (p.due ≤ 0)) = [p]) ∧
    (let p : Pend := { due := 0, ctx := 0, tag := 1, what := .push 15 0 }
     [p].filter (fun p => Pend.isPush p && decide (p.due ≤ 0)) = [p]) ∧
    (let p : Pend := { due := 0, ctx := 0, tag := 1, what := .acc 3071 false true 0 }
     [p].filter (fun p => Pend.isAcc p && decide (p.due ≤ 0)) = [p]) ∧
    (base.queue 0 15).landing = [] ∧
    (let q := { Queue.reset with tag := 1, landing := [{ data := 0, tag := 1, due := 1 }] }
     let s := { base with queues := [(15, q)] }
     (s.queue 0 15).landing = ⟨0, 1, 1⟩ :: [] ∧ s.quadClock 0 < 1 ∧ 0 ≤ s.quadClock 0) := by
  refine ⟨(fun _ h => nomatch h), ?_⟩; decide +kernel

/-- A core with its task in context 0 and another in context 1. -/
def pair (t u : Task) : State := module { hosting t with tasks := [(0, t), (1, u)] }

theorem witness_TaskPicker :
    (∀ c, running.st ≠ .parked c) ∧ (base.core.task 0).stallOn = none ∧
    (let t := { running with stallOn := some (.queueSpace 3), stall := 257 }
     (hosting t).issuing = some 0 ∧ t.parkThresh.toNat < t.stall ∧ ¬(({ t with stall := 256 } : Task).parkThresh.toNat < 256)) ∧
    ((hosting running).clock ≤ (hosting running).issue.lastSlot ∧
      ({ hosting running with clock := 1 } : Core).issue.lastSlot < ({ hosting running with clock := 1 } : Core).clock) ∧
    (let s := module (hosting { running with st := .parked (.time 0), andThen := some (.remote 1) })
     (s.taskAt 0 0).st = .parked (.time 0) ∧ (s.taskAt 0 0).wakeAt = none ∧ s.causeMet 0 0 (.time 0) = true ∧ s.causeMet 0 0 (.time 1) = false ∧
       (s.taskAt 0 0).andThen = some (.remote 1)) ∧
    Core.reset.issuing = none ∧ Core.reset.switch = none ∧ Core.reset.pick = none ∧ (base.coreAt 0).issuing = some 0 ∧
    (let s := { (pair running { running with st := .ready }) with c := 0 }
     (s.coreAt 0).pick = some 1 ∧ 1 ∈ (s.coreAt 0).candidates ∧ (s.coreAt 0).leaving = false ∧ ((s.coreAt 0).task 0).eff.toNat ≤ ((s.coreAt 0).task 1).eff.toNat) ∧
    (let k := { hosting running with clock := 2048, leaving := true }
     k.leaving = true ∧ (k.task 0).stallOn = none ∧ k.drained 0 = true ∧ k.pick = none ∧ ¬k.clock - k.turnStart < 2048 ∧ 2047 < 2048) ∧
    (let k := { (pair running { running with st := .ready, eff := 3 }).coreAt 0 with clock := 4, leaving := true, switch := some { dest := 1, end_ := 4 } }
     k.leaving = true ∧ (k.task 0).stallOn = none ∧ k.drained 0 = true ∧ k.switch = some ⟨1, 4⟩ ∧ 4 ≤ k.clock ∧ (k.task 1).st = .ready ∧
       (k.task 1).stopped = none ∧ (1, 1) ∉ k.bad ∧ (k.task 0).st ≠ .ready ∧ SMap.get none k.cuts 1 = none ∧
       (SMap.get none { k with cuts := [(1, some ⟨[1, 0, 0, 2], 2, [1], [], []⟩)] }.cuts 1).isSome = true) :=
  ⟨(fun c h => nomatch h), by decide +kernel⟩

/-- The mapped module with this core as core 0. -/
def engine (k : Core) : State := mapping (module k)

/-- An FP32 tensor of one dimension of 40 elements at global 0x100 with pad value 5, and a tile that is filled from it at element
-1 or drained to it; its handle is entry 0 of partition 0's table at 0x20000. -/
def tensored (st : TileState) : State :=
  let s := stored (engine { hosting running with
    tiles := [(0, { Tile.none with st := st, handle := 0x80000000, rows := 1, tag := 1, coords := [-1], base := 0x1000 })] }) 0x20000
    (toBytes 8 0x100 ++ toBytes 2 0x40 ++ toBytes 2 0 ++ toBytes 4 5 ++ toBytes 4 40 ++ List.replicate 20 0 ++ toBytes 8 4 ++ List.replicate 80 0)
  { s with regs := (partReg 0 0x18, 0x20000) :: (partReg 0 0x20, 1) :: s.regs }

theorem witness_EngineEvents_stash_tiles :
    ((base.coreAt 0).stashEntry 0).active = false ∧
    (let s := engine { hosting running with
       stash := [(0, { active := true, base := 0, size := 1024, glob := 0, tag := 1, sectors := [], fault := none })] }
     let x := (s.coreAt 0).stashEntry 0
     x.active = true ∧ x.size ≤ 16 * 64 ∧ 16 * 63 < x.size ∧ x.glob % 16 = 0 ∧ (s.sector 0 0 63).filled = false ∧ (s.sector 0 0 63).dirty = false ∧
       gives (s.readAt { part := tagPart x.tag, tag := x.tag, core := some 0 } (x.glob + 16 * 63) 16 .read .plain)
         (fun r => decide (r.1.sectorAddr 0 0 63 % 16 = 0)) = true) ∧
    ((base.coreAt 0).tile 0).st = .empty ∧ ({ Tile.none with st := .filling, volley := true } : Tile).volley = true ∧
    (let s := tensored .filling
     let t := (s.coreAt 0).tile 0
     t.st = .filling ∧ s.tileBlocked 0 t = false ∧ t.volley = false ∧ t.queued = none ∧
       (match s.tensorOf t with
        | .ok (u, x) => gives (u.tileLines t (x.lines t)) (fun r =>
              gives (r.1.engineStore t.tag 0 t.base ((List.range t.rows).flatMap fun j => x.row t r.2 j) (ownAddress 0 t.base))
                fun _ => true) && x.inside (t.coord 0 1) && !x.inside (t.coord 0 0) &&
            1024 / fmtWidth x.fmt == 32
        | _ => false) = true) ∧
    (let s := engine { hosting running with tiles := [(0, { fullTile 1 with st := .filling })] }
     let t := (s.coreAt 0).tile 0
     t.st = .filling ∧ s.tileBlocked 0 t = false ∧ t.volley = false ∧
       (match s.tensorOf t with | .error (.code c _ _) => c == 1 | _ => false) = true) ∧
    (let s := tensored .draining
     let t := (s.coreAt 0).tile 0
     t.st = .draining ∧ s.tileBlocked 0 t = false ∧
       (match s.tensorOf t with
        | .ok (u, x) => gives (u.tileRows 0 t) fun r => (match (x.drainRuns t r.2).foldlM (fun s h => s.drainRun t h) r.1 with
          | .ok _ => true
          | _ => false)
        | _ => false) = true) := by decide +kernel

/-- A control block that copies 64 bytes of global memory from 0 to 0x1000. -/
def copyBlock : LineBits := BitVec.ofNat 512 (0x1000 * 2 ^ 64 + 8 * 2 ^ 128 + 64 * 2 ^ 160)

/-- A core with this job at the head of channel 7, its clock here. -/
def pumping (j : PumpJob) (clock : Nat) : State :=
  engine { hosting running with pumps := [(7, { Pump.init with jobs := [j] })], clock := clock }

theorem witness_EngineEvents_pumps :
    (let j := { pumpJob with ccb := copyBlock }
     let s := pumping j 0
     ((s.coreAt 0).pump 7).code = 0 ∧ ((s.coreAt 0).pump 7).jobs = j :: [] ∧ j.started = false ∧ j.accepted = true ∧
       s.jobBlocked 0 j.ctx j.order [j.regions.1] [j.regions.2] = false) ∧
    pumpJob.started = false ∧ pumpJob.accepted = false ∧
    (let j := { pumpJob with ccb := copyBlock, started := true }
     j.started = true ∧ j.done < j.total ∧ j.kind = .copy ∧ gives ((pumping j 0).pumpLine 0 (some 0) j 63) (fun r => r.2 == 64) = true ∧
       (match ({ pumping j 0 with regs := [] } : State).pumpLine 0 (some 0) j 63 with
        | .error (.trap tr) => tr.cause == .xlate
        | _ => false) = true) ∧
    (let j := { pumpJob with ccb := copyBlock, started := true, done := 64 }
     j.total ≤ j.done ∧ j.issued + 32 ≤ ((pumping j 32).coreAt 0).clock ∧ ((pumping j 31).coreAt 0).clock < j.issued + 32) := by
  decide +kernel

/-- A core with this range job or WATOMR. -/
def ranging (what : JobWhat) : State :=
  engine { hosting running with
    jobs := [{ what := what, ctx := 0, tag := 1, launch := none, glob := true, lo := 0, hi := 64, order := 0 }] }

/-- Core 0 sends to core 1, which has posted this latch or none. -/
def volleying (ls : List Latch) : State :=
  { base with
    launches := [(3, some (launched []))],
    cores := [(0, { hosting { running with launch := some 3 } with
                      sends := [{ ctx := 0, mask := 2, off := 0, num := 0, len := 1, tag := 1, launch := some 3, coreId := 0, order := 0 }] }),
              (1, { Core.reset with latches := ls })] }

theorem witness_EngineEvents_jobs_volleys_release :
    (∀ what, what ∈ [JobWhat.discard 0 64, .flush 0 64 true, .writeback 0 true] →
      (match ((ranging what).coreAt 0).jobs.find? (fun j => j.isRange && !(ranging what).rangeBlocked 0 j) with
       | some j => j.what == what
       | none => false) = true) ∧
    gives ((ranging (.writeback 0 true)).writebackAll 0 0) (fun u => ((u.coreAt 0).stashEntry 0).fault == none) = true ∧
    gives ((ranging (.flush 0 64 true)).flushRange { part := 0, tag := 1, core := some 0 } 0 64 true) (fun _ => true) = true ∧
    (let what := JobWhat.reduce .add .f32 [.frame 0 none] 0 0
     let s := ranging what
     (match (s.coreAt 0).jobs.find? (fun j => !j.isRange && !s.rangeBlocked 0 j) with
      | some j =>
        j.what == what && gives (({ s with cores := [(0, { s.coreAt 0 with jobs := [] })] } : State).giveUpLine (.frame 0 none))
          fun v => !(v.1.rawLine v.2).poison && !v.1.stackFailedAt (.frame 0 none)
      | none => false) = true) ∧
    (base.coreAt 0).sends = [] ∧
    (let l : Latch := { ctx := 0, sender := 0, num := 0, dest := .range 0x100000, tag := 1, launch := some 3, coreId := 1, order := 0 }
     (match ((volleying []).coreAt 0).sends.find? (fun v => v.ctx == 0) with
      | some v => !(volleying []).volleyReady 0 v
      | none => false) = true ∧
     (match ((volleying [l]).coreAt 0).sends.find? (fun v => v.ctx == 0) with
      | some v => (volleying [l]).volleyReady 0 v && (volleying [l]).latchCheck 1 l 64 == 0 &&
          gives ((volleying [l]).engineLoad v.tag 0 v.off (64 * v.len) (ownAddress 0 v.off)) (fun r =>
            gives (r.1.driveAll 0 v r.2.1) fun _ => true) &&
          (let w := ((volleying [l]).coreAt 0).task 0; decide (w.st ≠ .free ∧ w.tag = v.tag ∧ w.launch = v.launch))
      | none => false) = true ∧
     (volleying [l]).latchCheck 1 { l with dest := .range 0x100020 } 64 ≠ 0) ∧
    (let away : Stash := { active := true, base := 0, size := 1024, glob := 2 ^ 42, tag := 1, sectors := [], fault := none }
     let s := engine { hosting running with stash := [(0, away)] }
     (match s.engineLoad 1 0 0 64 (ownAddress 0 0) with | .error (.trap tr) => tr.cause == .xlate | _ => false) = true ∧
       (match s.engineStore 1 0 8 [1] (ownAddress 0 8) with | .error (.trap tr) => tr.cause == .xlate | _ => false) = true) ∧
    (let d := { Die.reset with spillStall := true }
     d.spillStall = true ∧ d.spill.length < 64) ∧
    SMap.get [] base.held 0 = [] ∧
    (let x : Posting := { page := 0, die := 0, kind := 1, detail := 1 }
     let s := { base with held := [(0, [x])] }
     SMap.get [] s.held 0 = x :: [] ∧ s.ringSpace 0 = true ∧
       ({ s with regs := [(partReg 0 0x58, 16)] } : State).ringSpace 0 = false) := by decide +kernel

/-- The state of `working` with a launch that is over, this packet the first, and a control block at 0x50000. -/
def serving (k : Packet) : State := stored (working (launched []) [k]) 0x50000 (toBytes 64 copyBlock.toNat)

/-- A queue 0 of 16 packets, enabled for PASID 1, with this head and tail, its ring at host address 0x1000. -/
def ringing (head tail : Nat) (first : Word) : State :=
  { base with
    regs := [(queueReg 0 0, 0x1000), (queueReg 0 8, 0x100001010), (queueReg 0 0x10, BitVec.ofNat 64 head), (queueReg 0 0x18, BitVec.ofNat 64 tail),
             (resetReg 0x10, 1)],
    mem := setRawBytes [] (hostAddr 1 (0x1000 + 64 * (head % 16))) (toBytes 8 first.toNat) }

/-- A task parked on a word of a host page. -/
def waiting (v : Word) : State :=
  { mapped with
    regs := SMap.set 0 mapped.regs (partReg 0 0x48) 0x100001, mem := [(0x10000, 0x5F), (0x10001, 1)],
    cores := [(0, hosting { running with st := .parked (.word 0 v) })] }

theorem witness_DispatcherEvents_queues :
    (State.reset.inReset = true ∧ 4100 % 4096 ≠ 0 ∧ 64 < 65 * 4096 / 4096 ∧ (ringing 0 0 0).inReset = false ∧
      ((ringing 0 0 0).field (queueReg 0 8) 3 0 = 4) ∧ (16 + 2 ^ 32 - (ringing 0 0 0).field (queueReg 0 0x10) 31 0) % 2 ^ 32 ≤ 2 ^ 4 ∧
      ¬(17 + 2 ^ 32 - (ringing 0 0 0).field (queueReg 0 0x10) 31 0) % 2 ^ 32 ≤ 2 ^ 4) ∧
    base.mayFetch 0 = false ∧ (ringing (2 ^ 32 - 1) 0 0).mayFetch 0 = true ∧
    (∀ p, p ∈ [(0x100000006, true), (0x200000006, false)] →
      let s := ringing (2 ^ 32 - 1) 0 (BitVec.ofNat 64 p.1)
      let cfg := fun (hi lo : Nat) => s.field (queueReg 0 8) hi lo
      let bs := s.rawBytes (hostAddr (cfg 31 12) (s.field (queueReg 0 0) 63 6 * 64 + 64 * ((2 ^ 32 - 1) % 2 ^ cfg 3 0))) 64
      decide (cfg 32 32 ≠ 0 ∧ bits (BitVec.ofNat 64 (ofBytes (bs.take 8))) 51 32 = cfg 31 12) = p.2) ∧
    base.packetAt 0 0 = none ∧
    (waiting 0).task.st = .parked (.word 0 0) ∧ (waiting 1).task.st = .parked (.word 0 1) ∧
    (match (waiting 0).peek { part := 0, tag := 1, core := some 0 } 0 with | some (w, .host _) => w == 0 | _ => false) = true ∧
    (match mapped.peek { part := 0, tag := 1, core := some 0 } 0 with | some (_, .frame _ _) => true | _ => false) = true ∧
    (∀ va v, (mapped.taskAt 0 0).st ≠ .parked (.word va v)) := by
  refine ⟨by decide +kernel, by decide +kernel, by decide +kernel, by decide +kernel, by decide +kernel, rfl, rfl, by decide +kernel,
    by decide +kernel, fun _ _ h => nomatch h⟩

theorem witness_DispatcherEvents_begin :
    (∀ k, k ∈ [packet 0 [], packet 2 [0x50020, 1], packet 3 [0, 1], packet 4 [64], packet 5 [4, 0, 0], packet 6 [1], packet 7 []] →
      let s := serving k
      s.packetAt 0 0 = some k ∧ s.toBegin k.part = some k ∧ ¬(k.headerOk = true ∧ k.bodyOk = true) ∧ k.begun = false ∧
        ({ s with slices := [] } : State).toBegin k.part ≠ some k) ∧
    (∀ k, k ∈ [packet 1 [0x20000, 0, 0], packet 2 [0x50000, 1], packet 3 [0x40000], packet 4 [63], packet 5 [0x40000, 0, 2], packet 6 []] →
      let s := serving k
      s.packetAt 0 0 = some k ∧ s.toBegin k.part = some k ∧ k.headerOk = true ∧ k.bodyOk = true) ∧
    (∀ c, c ∈ [(0, 0x494B4E47), (0, 0), (1, 0), (2, 0), (2, 1)] → ∀ begun, begun ∈ [false, true] →
      let k := { packet 5 [0x20000, BitVec.ofNat 64 c.2, BitVec.ofNat 64 c.1] with begun := begun }
      let s := serving k
      let t := if begun then s else s.begin k
      isRead (t.dispRead k.part (k.word 3).toNat 8) = true ∧ s.packetAt 0 0 = some k ∧ (begun = true ∨ s.toBegin 0 = some k)) ∧
    isFailed (({ serving (packet 5 [0x20000]) with regs := [] } : State).dispRead 0 0x20000 8) = true ∧
    (let k := { packet 5 [0x20000] with begun := true }
     let s := serving k
     k.outcome = none ∧ (s.locate (s.partAgent 0) 0x20000).isSome = true ∧
       (match s.peek (s.partAgent 0) 0x20000 with | some (w, l) => lineOf l.addr == 0x20000 && k.meets w.toNat | none => false) = true) ∧
    (let k := { packet 4 [1] with q := 64 }
     let s := serving k
     s.packetAt 64 0 = some k ∧ s.toBegin 0 = some k ∧ k.headerOk = true ∧ k.bodyOk = true ∧ k.type = 4 ∧ ({ k with begun := true } : Packet).begun = true ∧
       (((s.begin k).endTenancyOf 1).ten 1).closed = false ∧ (s.ten 1).closed = false) := by decide +kernel

/-- A table of three levels with this entry for page 0, and partition 0's migration record 0 at 0x100000 with these old and new
entries and state for page 0; the lines that have moved are all or none. -/
def moving (entry old new state : Nat) (all : Bool) (shoots : SMap (Option Shoot)) : State :=
  { base with
    regs := [(partReg 0 0x40, 0x10001), (partReg 0 0x70, 0x100000), (resetReg 0x10, BitVec.allOnes 64)], shoots := shoots,
    mem := setRawBytes [(0x10000, 1), (0x10002, 2), (0x20000, 1), (0x20002, 3)] 0x30000 (toBytes 8 entry) |> fun m =>
      setRawBytes m 0x100000 (toBytes 8 old ++ toBytes 8 new ++ toBytes 8 state ++ List.replicate 104 0 ++
        List.replicate (if all then 128 else 0) 255) }

/-- Page 0 migrates under record 0 in this state. -/
def migrating (state : Nat) (all : Bool) : State := moving 0x21F 0x5001F 0x6001F state all []

theorem witness_DispatcherEvents_launch_copy :
    (let k := packet 1 [0x20000, 0, 0]
     let s := serving k
     isImage ((s.begin k).readImage 0 0x20000) = true ∧ isRefused ((s.begin k).readImage 0 0x20040) = true ∧
       (match ({ s with regs := [] } : State).readImage 0 0x20000 with | .fails _ => true | _ => false) = true ∧
       (match ({ s with regs := SMap.set 0 s.regs (resetReg 0x10) 0x1FFFFFF } : State).readImage 0 0x20000 with
        | .ok v h _ => !v.quadsReady ((v.ownedQuads 0).take h.quads)
        | _ => false) = true) ∧
    (let k := packet 2 [0x50000, 1]
     let s := serving k
     isRead ((s.begin k).dispRead 0 0x50000 64) = true ∧ isFailed (({ s with regs := [] } : State).dispRead 0 0x50000 64) = true) ∧
    (let j := { pumpJob with ccb := copyBlock, started := true }
     let k := { packet 2 [0x50000, 1] with begun := true, copy := some j }
     let s := serving k
     s.packetAt 0 0 = some k ∧ k.copy = some j ∧ j.started = true ∧ j.issued = 0 ∧ j.done < j.total ∧
       ({ j with done := 64 } : PumpJob).total ≤ 64 ∧ gives (s.pumpLine 0 none j 63) (fun _ => true) = true ∧
       (match ({ s with regs := [] } : State).pumpLine 0 none j 63 with
        | .error (.trap tr) => tr.cause == .xlate
        | _ => false) = true) ∧
    (packet 6 []).signal = 0 ∧
    (let s := migrating 0 false
     (match s.tryWrite (s.partAgent 0) 16 (toBytes 8 0) with | .wait _ => true | _ => false) = true ∧
       s.poisonedAt (s.partAgent 0) 16 = false ∧ (match s.dispRead 0 8 8 with | .wait _ => true | _ => false) = true) ∧
    (let k := { packet 6 [] with words := [6, 0x60000, 9] }
     let s := serving k
     k.signal ≠ 0 ∧ k.signal.toNat % 16 = 0 ∧ s.poisonedAt (s.partAgent 0) 0x60000 = false ∧
       (match s.tryWrite (s.partAgent 0) 0x60000 (toBytes 8 0) with
        | .done v () => isDone (v.tryWrite (s.partAgent 0) (k.signal + 8).toNat (toBytes 8 9))
        | _ => false) = true) := by decide +kernel

/-- Partitions 0 and 1 are scheduled on quad 0, which they own both or partition 0 alone; these slices and tasks, this time and
CTX.STAT of partition 0. -/
def sharing (both : Bool) (ts : List (Nat × Task)) (slice : Option Slice) (time : Nat) (stat : Word) : State :=
  { module { Core.reset with tasks := ts } with
    regs := [(partReg 0 0, 1), (partReg 0 8, 0x400000)] ++ (if stat = 0 then [] else [(partReg 0 0xD8, stat)]) ++
      (if both then [(partReg 1 0, 1), (partReg 1 8, 0x400000)] else []),
    slices := (match slice with | some x => [(0, some x)] | none => []),
    sharedBy := (if slice.isSome then [(0, if both then [0, 1] else [0])] else []), time := time }

/-- A task of partition 1. -/
def other : Task := { Task.free with st := .ready, tag := 0x401 }

def slice (left endsAt : Nat) (quiesce : Option Nat) : Slice := { part := 0, left := left, endsAt := endsAt, quiesce := quiesce }

theorem witness_SliceAndContextEvents_starts :
    SMap.get none (sharing true [] (some (slice 0 0 none)) 0 0).slices 0 ≠ none ∧
    (sharing true [] none 0 0).nextTurn 0 = none ∧
    (let s := sharing true [(0, { running with st := .ready })] none 0 0
     s.nextTurn 0 = some 0 ∧ s.group 0 = [0] ∧ s.leftOn 0 0 = none ∧ isDone (s.readPolicy 0) = true) ∧
    (let s := sharing true [(0, { running with st := .ready }), (1, other)] none 0 0
     SMap.get none s.slices 0 = none ∧ s.nextTurn 0 = some 0 ∧ s.group 0 = [0] ∧ s.leftOn 0 0 = some 1) := by decide +kernel

/-- A quad's partitions after the registers have been read again at the end of a slice. -/
def renewed (s : State) : State := (s.releaseMask [0]).regroup (s.group 0)

theorem witness_SliceAndContextEvents_ends :
    (let s := sharing true [(0, running)] (some (slice 0 10 none)) 9 0
     SMap.get none s.slices 0 = some (slice 0 10 none) ∧ s.mayRun 0 = true ∧ s.hasWork 0 (s.group 0) = true ∧ s.time < 10) ∧
    (let s := sharing true [(0, running)] (some (slice 1 10 none)) 10 0
     ¬s.time < 10 ∧ s.mayRun 0 = true ∧ s.hasWork 0 (s.group 0) = true ∧ s.group 0 = [0] ∧ (renewed s).mayRun 0 = true ∧ s.inUse 0 0 = true ∧
       isDone ((renewed s).readPolicy 0) = true) ∧
    (renewed (sharing false [(0, running)] (some (slice 0 10 none)) 10 0)).nextTurn 0 = some 0 ∧
    (let s := sharing true [(0, running), (1, other)] (some (slice 0 10 none)) 10 0
     ({ s with lastTurn := [(0, 0)] } : State).nextTurn 0 = some 1 ∧
       ((s.group 0).filter fun q => match SMap.get none s.slices q with
         | some y => y.part == 0 && y.quiesce.isNone
         | none => false) = [0] ∧ s.nothingOn 0 0 = false) ∧
    (let s := sharing true [] (some (slice 0 10 none)) 10 0
     s.hasWork 0 (s.group 0) = false ∧ (renewed s).nextTurn 0 = none ∧ (renewed s).nothingOn 0 0 = true) := by decide +kernel

/-- A task of launch 3 that stopped at its first live map. -/
def stopped : Task := { running with st := .ready, stopped := some 0, launch := some 3 }

theorem witness_SliceAndContextEvents_saves :
    (sharing true [(0, running)] (some (slice 0 10 (some 0))) 10 0).quadQuiet 0 0 = false ∧
    (let s := sharing true [(0, stopped)] (some (slice 0 10 (some 0))) 10 1
     s.quadQuiet 0 0 = true ∧ s.field (partReg 0 0xD8) 1 0 = 1 ∧ (s.coreAt 0).stash = [] ∧ s.front ≤ (s.coreAt 0).clock ∧
       (0, stopped) ∈ s.tasksOn 0 0 ∧
       (match [0].foldlM (fun (t : State) q => t.beforeSave q 0) { s with fresh := s.fresh + 1 } with | .ok _ => true | _ => false) = true ∧
       ((List.range 64).filter fun q => (match SMap.get none s.slices q with | some y => y.part == 0 && y.quiesce.isSome | none => false) &&
          (s.field (partReg 0 0xD8) 1 0 == 1 || (s.group 0).contains q)) = [0]) ∧
    (let s := sharing true [(0, stopped)] (some (slice 0 10 (some 0))) 10 0
     1 ≤ Config.saveUnits s.fresh → s.quadQuiet 0 0 = true ∧
       ¬(s.field (partReg 0 0xD8) 1 0 = 1 ∨ Config.saveUnits s.fresh ≤ s.field (partReg 0 0xC8) 23 0)) ∧
    (let s := { sharing true [(0, { running with launch := some 3 })] (some (slice 0 10 (some 0))) 10 0 with launches := [(3, some (launched []))] }
     (s.taskAt 0 0).launch.bind s.launch = some (launched []) ∧ (s.taskAt 0 0).stopped = none ∧ (s.taskAt 0 0).overran = false ∧
       tagPart (s.taskAt 0 0).tag = 0 ∧ (launched []).spacing < (1001 : BitVec 48).toNat ∧ ¬(launched []).spacing < (1000 : BitVec 48).toNat ∧
       s.field (partReg 0 0xD8) 12 12 = 0 ∧
       ({ s with regs := [(partReg 0 0xD8, 0x1000)] } : State).field (partReg 0 0xD8) 12 12 = 1) := by
  refine ⟨by decide +kernel, by decide +kernel, ?_, by decide +kernel⟩
  intro s h
  refine ⟨by decide +kernel, fun hc => ?_⟩
  have h0 : s.field (partReg 0 0xD8) 1 0 = 0 := by decide +kernel
  have h1 : s.field (partReg 0 0xC8) 23 0 = 0 := by decide +kernel
  omega

/-- A command runs on partition 0 with these engines; its save area is this many units at this base. -/
def commanded (stat units base : Word) (gs : SMap Gse) : State :=
  { State.reset with
    regs := (if base = 0 then [] else [(partReg 0 0xC0, base)]) ++ (if units = 0 then [] else [(partReg 0 0xC8, units)]) ++ [(partReg 0 0xD8, stat)],
    gse := gs }

/-- A module all of whose stacks are READY. -/
theorem all_ready {s : State} (h : ∀ n, n < 32 → s.field (resetReg 0x10) (1 + n) (1 + n) = 1 ∧ s.field (resetReg 0x20) n n ≠ 1) (pa : Nat) :
    s.stackReady pa = true ∧ s.stackFailed pa = false := by
  have hs : stackOf pa < 32 := Nat.mod_lt _ (by decide : 0 < 32)
  simp [State.stackReady, State.stackFailed, h _ hs]

theorem witness_SliceAndContextEvents_commands :
    (let s := { commanded 2 1 0x1000000 [] with regs := (resetReg 0x10, BitVec.allOnes 64) :: (commanded 2 1 0x1000000 []).regs }
     ∀ pa, (s.flushCisterns 0).stackReady pa = true ∧ (s.flushCisterns 0).stackFailed pa = false) ∧
    ({ commanded 2 1 0x1000000 [] with regs := [(resetReg 0x20, BitVec.allOnes 64)] } : State).stackFailed 0x1000000 = true ∧
    (commanded 0 0 0 []).field (partReg 0 0xD8) 1 0 ≠ 1 ∧ (sharing true [] (some (slice 0 0 none)) 0 1).offQuads 0 = false ∧
    (commanded 1 0 0 []).field (partReg 0 0xD8) 1 0 = 1 ∧ (commanded 1 0 0 []).offQuads 0 = true ∧
    (let s := commanded 2 1 0x1000000 []
     let u := s.flushCisterns 0
     s.field (partReg 0 0xD8) 1 0 = 2 ∧ u.area 0 = (0x1000000, 0x10000) ∧ (u.image 0).length ≤ 0x10000 ∧
       0x1000000 + (u.image 0).length ≤ Config.physLimit ∧ 0 < ((u.image 0).length + 63) / 64 ∧ u.stackReady 0x1000000 = false) ∧
    (let s := commanded 2 0 0x1000000 []
     0 < ((s.flushCisterns 0).image 0).length ∧ (s.flushCisterns 0).area 0 = (0x1000000, 0)) ∧
    (let s := commanded 2 1 0x1FFFFFFFFFF0000 []
     Config.physLimit < 0x1FFFFFFFFFF0000 + ((s.flushCisterns 0).image 0).length ∧
       (s.flushCisterns 0).area 0 = (0x1FFFFFFFFFF0000, 0x10000)) :=
  ⟨fun pa => all_ready (by decide +kernel) pa, by decide +kernel⟩

/-- A checksum whose every step is a number, and that it is the same. -/
def crcFrom (c : Nat) : List Byte → Nat
  | [] => c
  | b :: bs => Nat.rec (motive := fun _ => Nat) (crcFrom 0 bs) (fun n _ => crcFrom (n + 1) bs) (crcByte c b.toNat)

theorem crcFrom_cons (c : Nat) (b : Byte) (bs : List Byte) : crcFrom c (b :: bs) = crcFrom (crcByte c b.toNat) bs := by
  show Nat.rec (motive := fun _ => Nat) (crcFrom 0 bs) (fun n _ => crcFrom (n + 1) bs) (crcByte c b.toNat) = _
  cases crcByte c b.toNat <;> rfl

theorem crcFrom_eq (bs : List Byte) (c : Nat) : crcFrom c bs = bs.foldl (fun c b => crcByte c b.toNat) c := by
  induction bs generalizing c with
  | nil => rfl
  | cons b bs ih => rw [crcFrom_cons, ih]; rfl

theorem crc32c_eq (bs : List Byte) : crc32c bs = crcFrom 0xFFFFFFFF bs ^^^ 0xFFFFFFFF := by simp only [crc32c, crcFrom_eq]

/-- RESTORE runs on partition 0 with these engines, over an image with this checksum and these records of queries. -/
def restoring (sum : Nat) (queries : List Byte) (gs : SMap Gse) : State :=
  let image := toBytes 4 0x58434E47 ++ toBytes 2 0x100 ++ toBytes 2 0 ++ toBytes 2 1 ++ toBytes 2 1 ++ toBytes 4 0 ++ toBytes 8 1152 ++
    [0, 64, 64, 128, 192, 256, 640, 1088].flatMap (toBytes 4) ++ toBytes 4 sum ++ List.replicate (640 - 0x3C) 0 ++ queries
  { commanded 3 1 0x1000000 gs with mem := setRawBytes [] 0x1000000 image }

def unsaved : State := restoring 2218175669 [] []

/-- One recorded query in slot 0 of engine 0, which partition 1 has. -/
def taken : State :=
  restoring 4080962086 (toBytes 8 1 ++ queryPacket 0) [(0, { Gse.reset with slots := [(0, some { accepted with part := 1 })] })]

/-- Partition 0 owns quad 0. -/
def owning (s : State) : State := { s with regs := (partReg 0 0, 1) :: s.regs }

theorem opens_blank : gives (unsaved.openImage 0) (fun r => r.2 == 1 && r.1.queries.isEmpty) = true := by
  unfold State.openImage; simp only [crc32c_eq]; decide +kernel

theorem opens_taken : gives (taken.openImage 0) (fun r => r.2 == 1 && r.1.queries.any fun q => taken.slotTaken 0 q) = true := by
  unfold State.openImage; simp only [crc32c_eq]; decide +kernel

theorem witness_SliceAndContextEvents_restore :
    unsaved.field (partReg 0 0xD8) 1 0 = 3 ∧ ({ unsaved with cores := [(0, hosting running)] } : State).idle 0 = false ∧
    unsaved.idle 0 = true ∧ fails ((commanded 3 1 0x1000000 []).openImage 0) 2 = true ∧ (unsaved.ownedQuads 0).length < 1 ∧
    1 ≤ ((owning unsaved).ownedQuads 0).length ∧ taken.idle 0 = true ∧ 1 ≤ ((owning taken).ownedQuads 0).length := by decide +kernel

theorem all_moved {s : State} (h : ∀ k, k < 16 → s.word64 (s.recordAddr 0 0 + 0x80 + 8 * k) = BitVec.allOnes 64) :
    ∀ l, l < 1024 → s.lineMoved 0 0 l = true := by
  intro l hl
  rw [State.lineMoved, h (l / 64) (by omega), BitVec.getLsbD_allOnes]
  exact decide_eq_true (Nat.mod_lt _ (by decide))

/-- A spilled line of page 0 of partition 0, whose page has a frame. -/
def spilled : State :=
  { moving 0x5009F 0 0 0 false [] with
    dies := [(0, { Die.reset with
      backed := [{ part := 0, page := 0, frame := 0x50000 }],
      spill := [{ key := 2 ^ 104, way := 0, owner := 0, tag := 1, data := 7, dirty := 15, poison := false, reserved := false,
                  doomed := 0 }] })] }

theorem witness_ShootDownsMigrationAndSweep_shoots :
    (∃ d x c pa, spilled.dies = [(d, x)] ∧ x.spill = [c] ∧ isCistern c.key = true ∧ (c.key - 2 ^ 104) / 2 ^ 56 = 0 ∧
      sdNames 0 ((c.key - 2 ^ 104) % 2 ^ 56 / 65536) = true ∧ (spilled.die 0).frameOf c.key = some pa) ∧
    State.reset.inReset = true ∧ base.field (partReg 0 0x80) 44 44 ≠ 1 ∧
    ({ mapped with regs := [(partReg 0 0x80, 2 ^ 44), (resetReg 0x10, 1)] } : State).field (partReg 0 0x80) 44 44 = 1 ∧
    mapped.inReset = false ∧
    gives (spilled.walk 0 0) (fun w => spilled.entryValid 0 w.level w.entry && bits w.entry 9 7 == 1 && bits w.entry 12 10 == 0) = true ∧
    (base.die 0).frameOf (2 ^ 104) = none ∧ ({ spilled.die 0 with backed := [] } : Die).frameOf (2 ^ 104) = none ∧
    SMap.get none base.shoots 0 = none ∧
    (let x : Shoot := { value := 0, cores := [0, 255] }
     let s := { base with shoots := [(0, some x)] }
     SMap.get none s.shoots 0 = some x ∧ 1 ∉ x.cores ∧ 0 ∈ x.cores ∧ (s.coreAt 0).updatesIn 0 x.value = false ∧
       (s.coreAt 0).stash = [] ∧ 255 ∈ x.cores) ∧
    (let y : Stash := { active := true, base := 0, size := 1024, glob := 0, tag := 1,
                        sectors := [(0, { filled := true, dirty := false, at_ := some 0 })], fault := none }
     ((stashed none).coreAt 0).stash.length = 1 ∧ tagPart y.tag = 0 ∧ (∀ z, z ∈ y.sectors → z.2.dirty = false) ∧
       sdNames 0 ((y.glob + 16 * 0) / 65536) = true ∧ sdNames 1 ((y.glob + 16 * 0) / 65536) = false) ∧
    (let x : Shoot := { value := 0, cores := [] }
     x.cores = [] ∧ (mapped.post 0 { page := bits x.value 38 0, die := 0, kind := 4, detail := 0 }).isSome = true) :=
  ⟨⟨0, _, _, 0x50000, rfl, rfl, by decide +kernel⟩, by decide +kernel⟩

theorem witness_ShootDownsMigrationAndSweep_migration :
    Config.physLimit < ({ base with regs := [(partReg 0 0x70, 0x1000000000000)] } : State).recordAddr 0 0 + 256 ∧
    (let s := migrating 0 false
     let r := s.recordAddr 0 0
     r + 256 ≤ Config.physLimit ∧ s.inReset = false ∧ bits (s.word64 (r + 0x10)) 1 0 = 0 ∧ recordEntryOk (s.word64 r) true = true ∧
       recordEntryOk (s.word64 (r + 8)) false = true ∧ (s.word64 (r + 8)).getLsbD 0 = true) ∧
    recordEntryOk ((moving 0x21F 0x5001F 0x60 0 false []).word64 0x100008) false = false ∧
    (let s := migrating 1 false
     s.lineMoved 0 0 0 = false ∧ (match s.moveLine 0 0 0 0 with | .ok _ => true | .error _ => false) = true) ∧
    (let s := migrating 1 true
     (∀ l, l < 1024 → s.lineMoved 0 0 l = true) ∧ SMap.get none s.shoots (64 + 4096 * 0 + 0) = none ∧
       (match s.walk 0 (0 * 65536) with
        | .ok w => bits w.entry 9 7 == 4 && bits w.entry 27 16 == 0
        | .error _ => false) = true) ∧
    (let x : Shoot := { value := 0, cores := [] }
     let s := moving 0x21F 0x5001F 0x6001F 1 true [(64, some x)]
     SMap.get none s.shoots (64 + 4096 * 0 + 0) = some x ∧
       (s.post 0 { page := bits x.value 38 0, die := 0, kind := 3, detail := 0 }).isSome = true) := by
  refine ⟨by decide +kernel, by decide +kernel, by decide +kernel, by decide +kernel,
    ⟨all_moved (by decide +kernel), by decide +kernel, by decide +kernel⟩, by decide +kernel⟩

theorem witness_ShootDownsMigrationAndSweep_sweep :
    (let w := { Sweeper.reset with running := true, todo := [.ctx 0 0] }
     Sweeper.reset.running = false ∧ w.running = true ∧ SweepElem.ctx 0 0 ∈ w.todo ∧ SweepElem.ctx 0 1 ∉ w.todo) ∧
    (let s := { base with sweeper := { Sweeper.reset with running := true } }
     s.sweeper.running = true ∧ s.sweeper.todo = [] ∧ (∀ p, p < 64 → s.oldOps p = 0) ∧ ∀ p, p < 64 → (s.ten p).closed = false) := by
  decide +kernel

/-- Node 5 with port 0 up, in this state. -/
def linked (p : Port) : State :=
  { mapped with
    regs := [(partReg 0 0x40, 0x10001), (fabricReg 0, 1018), (portStat 0, 1), (resetReg 8, 31 * 4), (resetReg 0x10, BitVec.allOnes 64)],
    ports := [(0, p)] }

/-- A packet of this kind and route from node 7 to this node for job 9, with this many data bytes. -/
def flown (dst kind route ndata : Nat) : FPacket :=
  { dst := dst, src := 7, dinc := 1, sinc := 3, kind := kind, route := route, job := 9, pseq := 0, addr := 64, rtag := 1, opw := 0,
    imm := 0, data := List.replicate ndata 1, vc := kindVc kind, port := some 0, since := 0 }

def flit : Flit := { payload := 0, ctl := 0 }

theorem witness_LinkEvents_ports :
    (0 < ({ Port.reset with resend := 1 } : Port).resend ∧ Port.reset.resend = 0 ∧ base.portUp 0 = false ∧
      512 ≤ (List.replicate 512 flit).length ∧ (linked Port.reset).portUp 0 = true ∧ (List.replicate 511 flit).length < 512 ∧
      Port.reset.sending = [] ∧ Port.reset.nextPacket = none ∧ ({ Port.reset with sending := [flit] } : Port).sending = flit :: []) ∧
    (let k := flown 6 1 0 0
     ({ Port.reset with out := [(0, [k])] } : Port).nextPacket = some (0, k) ∧
       ({ Port.reset with out := [(0, [k])], sentOn := [(0, 256)] } : Port).nextPacket = none) ∧
    (let f := (flown 5 2 0 64).toFlits
     let h := ((f[0]?).getD flit).sealed 0
     let d := ((f[1]?).getD flit).sealed 1
     let g := (((flown 5 1 0 0).toFlits[0]?).getD flit).sealed 0
     let two := (((flown 5 2 0 128).toFlits[0]?).getD flit).sealed 0
     flitOk h.payload h.ctl = true ∧ ctlSeq h.ctl = Port.reset.rcvd % 2 ^ 8 ∧ ctlPos h.ctl = 0 ∧ headerNdata h = 1 ∧ headerNdata g = 0 ∧
       flitOk g.payload g.ctl = true ∧ ctlPos g.ctl = 0 ∧
       flitOk d.payload d.ctl = true ∧ ctlSeq d.ctl = 1 ∧ ctlPos d.ctl = 2 ∧ ([] : List Flit).length + 1 = headerNdata h ∧
       ([] : List Flit).length + 1 ≠ headerNdata two ∧ flitOk h.payload (h.ctl ^^^ 1) = false) := by decide +kernel

theorem witness_LinkEvents_routes :
    (linked Port.reset).node < 993 ∧ (flown 5 1 0 0).dst = (linked Port.reset).node ∧ (flown 6 1 0 0).dst ≠ (linked Port.reset).node ∧
    (∀ r, r ∈ [0, 2 ^ 12, 4 * 2 ^ 13, 3 * 2 ^ 13 + 2 ^ 12] → r.testBit 10 = false) ∧ 4 ≤ 4 * 2 ^ 13 / 2 ^ 13 ∧ (3 * 2 ^ 13 + 2 ^ 12) / 2 ^ 13 < 4 ∧
    (∀ r, r ∈ [2 ^ 10 + 5, 2 ^ 10 + 6 + 3 * 2 ^ 13] → r.testBit 10 = true ∧ r.testBit 11 = false ∧ r.testBit 12 = false) ∧
    (2 ^ 10 + 5) % 2 ^ 10 = (linked Port.reset).node ∧ (2 ^ 10 + 6 + 3 * 2 ^ 13) % 2 ^ 10 ≠ (linked Port.reset).node ∧
    (flown 5 1 (2 ^ 10 + 6) 0).dst = (linked Port.reset).node ∧
    (∀ r, r ∈ [(linked Port.reset).report 0, (linked { Port.reset with sent := 1 }).report 0] →
      flitOk r.payload r.ctl = true ∧ ctlPos r.ctl = 3 ∧ flitOk r.payload (r.ctl ^^^ 1) = false) ∧
    (let at_ := fun (sent : Nat) => ((linked { Port.reset with sent := sent }).report 0).payload.toNat / 2 ^ 64 % 2 ^ 32
     (at_ 0 + 2 ^ 32 - Port.reset.rcvd) % 2 ^ 32 = 0 ∧ (at_ 1 + 2 ^ 32 - Port.reset.rcvd) % 2 ^ 32 = 1) := by decide +kernel

theorem witness_LinkEvents_escape_training :
    (let q := [{ flown 6 1 0 0 with since := 0 }]
     let s := { linked { Port.reset with out := [(0, q)] } with time := 50000 }
     SMap.get [] (s.port 0).out 0 = q ∧ 0 + s.dlr ≤ s.time ∧ ¬0 + s.dlr ≤ 49999 ∧ SMap.get [] (s.port 0).out 1 = []) ∧
    (let s := linked Port.reset
     31 < 32 ∧ s.groupBegun (portGroup 31) = true ∧ s.field (resetReg 0x18) 31 31 = 0 ∧ ¬32 < 32 ∧
       neighbours s.node 992 = true ∧ neighbours s.node 5 = false) ∧
    (let polar := fun (n : Nat) => let z := nodePoint n; (z.1 * z.1 + z.2.1 * z.2.1 + z.2.2 * z.2.2) % 31 = 0
     polar 137 ∧ ¬polar 5 ∧ ({ linked Port.reset with regs := (fabricReg 0, 1023 ^^^ 137) :: (linked Port.reset).regs } : State).node = 137) ∧
    State.reset.inReset = true ∧ (linked Port.reset).inReset = false ∧
    (let k := flown 1023 255 65535 64
     k.dst < 2 ^ 10 ∧ k.src < 2 ^ 10 ∧ k.dinc < 2 ^ 16 ∧ k.sinc < 2 ^ 16 ∧ k.kind < 2 ^ 8 ∧ k.route < 2 ^ 16 ∧ k.job < 2 ^ 16 ∧
       k.pseq < 2 ^ 16 ∧ k.rtag < 2 ^ 32 ∧ k.opw < 2 ^ 32 ∧ k.data.length % 64 = 0) ∧
    flit.ctl.toNat / 2 ^ 12 % 2 ^ 4 = 0 := by decide +kernel

/-- Node 5 knows node 7's incarnation 3 and binds job 9 to partition 0; these packets have arrived. -/
def reached (ks : List FPacket) : State :=
  { linked Port.reset with
    regs := [(partReg 0 0x40, 0x10001), (fabricReg 0, 1018), (portStat 0, 1), (fabricReg (0x10000 + 8 * 7), 3),
             (fabricReg 0x30000, 9 + 2 ^ 22), (resetReg 0x10, BitVec.allOnes 64)],
    arrived := ks, time := 500000 }

def isServed (r : Served) : Bool := match r with | .done _ => true | _ => false

/-- A packet whose job was bound to partition 0 as it arrived. -/
def named (k : FPacket) : FPacket := { k with bound := some 1 }

/-- The agent that serves it. -/
def server : Agent := { part := tagPart 1, tag := 1, core := none }

theorem witness_FabricTargetEvents_requests :
    (∀ kind, kind ∈ [1, 2, 4, 8] →
      let k := flown 5 kind 0 0
      let s := reached [k, named k]
      (∀ x, x ∈ s.arrived → x.kind ≠ 5 ∧ x.kind ≠ 6 ∧ x.kind ≠ 7) ∧ s.arrived.filter (fun k => k.kind = kind) = k :: [named k] ∧
        k.dinc = s.incarnation ∧ k.sinc = s.peerInc k.src ∧ k.bound = none ∧ (named k).bound = some 1) ∧
    (∀ x, x ∈ [(1, State.targetRead), (2, State.targetWrite), (4, State.targetAtomic), (8, State.targetIncrement)] →
      isServed (x.2 (reached []) server (named (flown 5 x.1 0 0))) = true) ∧
    (reached []).targetPart 9 = some 0 ∧ (reached []).targetPart 8 = none ∧
    (reached []).arrived.filter (fun k => k.kind = 1) = [] ∧ ¬(∀ k, k ∈ (reached [flown 5 5 0 0]).arrived → k.kind ≠ 5 ∧ k.kind ≠ 6 ∧ k.kind ≠ 7) ∧
    (let k := { flown 5 1 0 0 with dinc := 2 }
     k.dinc ≠ (reached []).incarnation ∧ k.sinc = (reached []).peerInc k.src ∧ k.kind ≠ 6) ∧
    (let k := named (flown 5 3 0 0)
     let s := reached [k]
     k.aligned = true ∧ ({ k with opw := 6 } : FPacket).aligned = false ∧ s.arrived.filter s.postedReady = k :: [] ∧ s.pseqAhead k = 0 ∧
       s.pseqAhead { k with pseq := 2 ^ 15 } = 2 ^ 15 ∧ isServed ((s.takeArrived k).targetWrite server k) = true) ∧
    (let k := { flown 5 3 0 0 with pseq := 1 }
     let s := reached [k]
     s.heldPosted 7 = [k] ∧ k.since + 500000 ≤ s.time ∧ s.arrived.filter s.postedReady = [] ∧ ¬k.since + 500000 ≤ 499999 ∧ s.pseqAhead k = 1) := by
  decide +kernel

theorem witness_FabricTargetEvents_performed :
    (let s := reached []
     let ag := s.partAgent 0
     let k := flown 5 2 0 0
     gives (s.readSpan ag 64 1 .plain 2) (fun r => r.2.2 == none) = true ∧
       gives (({ s with poisoned := [(1, true)] } : State).readSpan ag 64 1 .plain 2) (fun r => r.2.2 != none) = true ∧
       fails (s.readSpan ag (2 ^ 42) 1 .plain 2) (.fault 1 1 true 0x10008) = true ∧
       fails (s.writeSpan ag (2 ^ 42) k.bytes 2) (.fault 1 1 true 0x10008) = true ∧
       gives (s.translate ag 64 .write .plain) (fun _ => true) = true ∧ gives (s.writeSpan ag 64 k.bytes 2) (fun _ => true) = true ∧
       (Fmt.codeOk (BitVec.ofNat 4 ((6 * 2 ^ 6 : Nat) / 2 ^ 6)) = true ∧ atomOk (AtomOp.dec 0) .i32 = true ∧ ¬(7 * 2 ^ 3 / 2 ^ 3 % 8 ≠ 7)) ∧
       gives (s.readAt ag 64 4 .atomic .atomg) (fun r => !r.2.1.poison &&
         gives (r.1.putPart ag r.2.2 64 (toBytes 4 0)) fun _ => true) = true) ∧
    (let s := { reached [] with rally := [(0, table 1 none 0)] }
     (reached []).rallyOf 0 = Rally.none ∧ Rally.none.st = 0 ∧ (s.rallyOf 0).st ≠ 0 ∧ s.lands (s.curTag 0) = true ∧
       (s.rallyOf 0).tag = s.curTag 0 ∧
       ({ s with rally := [(0, { table 1 none 0 with tag := 0x801 })] } : State).curTag 0 ≠ 0x801) := by decide +kernel

theorem witness_FabricTargetEvents_responses :
    (∀ p e what, what ∈ [RemoteWhat.store, .posted] → what ≠ .increment p e) ∧
    (reached []).responseHead = none ∧
    (∀ kind, kind ∈ [5, 6, 7] →
      let k := flown 5 kind 0 0
      let s := reached [k]
      s.responseHead = some k ∧ k.kind = kind ∧ k.dinc = s.incarnation ∧ ({ k with dinc := 2 } : FPacket).dinc ≠ s.incarnation) ∧
    992 < 993 ∧ (reached []).peerInc 992 ≠ 1 ∧ 992 ≠ (reached []).node ∧
    (let r : Remote := { what := .store, core := 0, ctx := 0, tag := 1, launch := none, node := 7, ea := 0, link := 0,
                         deadline := 500000, parts := [64], got := [], bad := 0, born := 0 }
     let s := { reached [] with remotes := [(1, some r)] }
     let k := flown 5 5 0 0
     SMap.get none s.remotes k.rtag = some r ∧ SMap.get none (reached []).remotes k.rtag = none ∧ r.node = k.src ∧ 64 ∈ r.parts ∧
       r.parts.erase 64 = [] ∧ [64, 128].erase 64 ≠ [] ∧ 0 ∉ r.parts ∧ r.deadline ≤ s.time ∧ ¬r.deadline ≤ 499999 ∧
       (SMap.get none (s.learn 7 4).remotes 1 = some r ∨ SMap.get none (s.learn 7 4).remotes 1 = none)) ∧
    (let s := module (hosting { running with st := .parked (.remote 1) })
     (s.taskAt 0 0).st = .parked (.remote 1) ∧ (s.taskAt 0 0).waitsRemote 1 = true ∧ s.lands 1 = true) ∧
    (let y := { running with st := .parked (.time 9), andThen := some (.remote 1) }
     y.waitsRemote 1 = true ∧ y.st ≠ .parked (.remote 1) ∧ y.waitsRemote 2 = false ∧ running.waitsRemote 1 = false) ∧
    [(64, ([] : List Byte))] = [(64, [])] := by
  refine ⟨fun p e what h he => ?_, by decide +kernel⟩
  subst he; simp at h

/-- Die 0 holds a line with these dirty sectors; memory has partition 0's mapping. -/
def dirtied (dirty : BitVec 4) : State :=
  { mapped with
    dies := [(0, { Die.reset with lines := [{ key := 0, way := 0, owner := 0, tag := 1, data := 7, dirty := dirty, poison := false,
                                              reserved := false, doomed := 0 }] })] }

/-- Every unit READY, with this register besides. -/
def ready (off : Nat) (v : Word) : State := { base with regs := SMap.set 0 [(resetReg 0x10, BitVec.allOnes 64)] off v }

theorem witness_ResetAndReliabilityEvents_resets :
    memoryOk mapped ∧ SMap.wf 0 mapped.regs = true ∧
    (∃ d x c, (dirtied 15).dies = [(d, x)] ∧ x.lines = [c]) ∧
    (let s := { State.reset with resetAt := 0, time := 25000 }
     1 ≤ 1 ∧ 1 ≤ 31 ∧ s.field (resetReg 8) 6 2 + 1 = 1 ∧ s.resetAt + 25000 * 1 ≤ s.time ∧ ¬s.resetAt + 25000 * 1 ≤ 24999) ∧
    (let s := { State.reset with regs := [(resetReg 8, 31 * 4)] }
     s.groupBegun (portGroup 31) = true ∧ s.field (resetReg 0x18) 31 31 = 0 ∧
     (∀ n, n < 24 → n + 1 ≤ s.field (resetReg 8) 6 2 ∧ s.field (resetReg 0x10) (1 + n) (1 + n) = 0 ∧ s.field (resetReg 0x20) n n = 0) ∧
     ∀ n, n < 8 → 25 + n / 2 ≤ s.field (resetReg 8) 6 2 ∧ s.field (resetReg 0x10) (25 + n) (25 + n) = 0 ∧
       s.field (resetReg 0x20) (24 + n) (24 + n) = 0) ∧
    ¬25 ≤ State.reset.field (resetReg 8) 6 2 := by
  refine ⟨⟨by decide +kernel, by decide +kernel, by decide +kernel⟩, by decide +kernel, ⟨_, _, _, rfl, rfl⟩, by decide +kernel,
    by decide +kernel, by decide +kernel⟩

/-- A record ring of 64 entries with one record, of this class, made in this cycle by unit 1 of kind 2. -/
def recorded (cls : Nat) : State :=
  { base with
    regs := [(relReg 8, 0x10), (relReg 0x10, 1)],
    recent := [{ time := 0, cycle := 0, cls := cls, sev := 0, inj := false, kind := 2, index := 1, pmask := 0, addr := 0, detail := 0, seq := 0 }] }

/-- Die 0 holds the line of the record ring. -/
def ringHeld : State :=
  { base with
    regs := [(relReg 8, 0x10)],
    dies := [(0, { Die.reset with lines := [{ key := 0, way := 0, owner := 0, tag := 1, data := 0, dirty := 0, poison := false,
                                              reserved := false, doomed := 0 }] })] }

theorem witness_ResetAndReliabilityEvents_errors :
    (let s := { base with regs := [(relReg 8, 0x10)] }
     s.field (relReg 8) 4 4 = 1 ∧ (s.field (relReg 0x10) 31 0 + 2 ^ 32 - s.field (relReg 0x10) 63 32) % 2 ^ 32 < 2 ^ (s.field (relReg 8) 3 0 + 6) ∧
       base.field (relReg 8) 4 4 ≠ 1 ∧ s.recent = [] ∧ s.stackFailed 0 = false ∧ (s.frameLine 0).poison = false ∧ ((s.die 0).find 0).isNone = true) ∧
    (dieOf 0 = 0 ∧ ((ringHeld.die 0).find 0).isSome = true ∧ ringHeld.dies.length = 1 ∧ (ringHeld.frameLine 0).poison = false) ∧
    (∀ r, r ∈ (recorded 4).recent → r.time = (recorded 4).time ∧ r.cycle = (recorded 4).front ∧ r.kind = 2 ∧ r.index = 1 ∧ 3 < r.cls ∧ ¬4 < r.cls ∧
      ((recorded 4).field (relReg 0x10) 31 0 + 2 ^ 32 - r.seq) % 2 ^ 32 ≤
        ((recorded 4).field (relReg 0x10) 31 0 + 2 ^ 32 - (recorded 4).field (relReg 0x10) 63 32) % 2 ^ 32) ∧
    (let s := base.setCorrected 1 255 { count := 256, addr := 0, part := 63 }
     1 ≤ s.field (relReg 8) 47 32 ∧ s.field (relReg 8) 47 32 ≤ (s.corrected 1 255).count ∧
       (base.corrected 1 255).count < base.field (relReg 8) 47 32) ∧
    (∀ k, k ∈ [UnitKind.core, .dieCache, .wellhead, .walker] → unitCode k ∈ [1, 2, 3, 6]) ∧ unitCode .port ∉ [1, 2, 3, 6] ∧ 255 < 256 ∧ 63 < 64 ∧
    mapped.holder 0 = none ∧ (∀ d, d ∈ [0, 15] → ((dirtied d).holder 0).isSome = true) ∧ isDevice (64 * 2 ^ 35) = false ∧ isDevice 0 = true ∧
    ((mapped.die 0).lines.find? fun c => c.key == 0) = none ∧ (((dirtied 15).die 0).lines.find? fun c => c.key == 0).isSome = true ∧
    isCistern 0 = false ∧ State.reset.inReset = true ∧ mapped.inReset = false ∧
    (let a : Armed := { kind := 1, index := 0, cls := 2, since := 0, last := true }
     let s := { base with armed := [a] }
     (s.armed.any fun a => a.kind == 1 && a.index == 0 && a.cls == 2) = true ∧ (s.armed.any fun a => a.kind == 1 && a.index == 0 && a.cls == 1) = false ∧
       (({ base with armed := [{ a with cls := 1 }] } : State).armed.any fun a => a.kind == 1 && a.index == 0 && a.cls == 1) = true) := by
  decide +kernel

theorem witness_ResetAndReliabilityEvents_rollback_power_registers :
    (∃ n d, (dirtied 15).dies = [(n, d)] ∧ ∀ c, c ∈ d.lines → isHome n c.key = true) ∧
    (let r := partReg 0 0xF8
     mapped.field r 32 32 = 0 ∧ (ready r (2 ^ 32)).field r 32 32 = 1 ∧
       gives ((ready r (2 ^ 32)).flushStash 0) (fun u => SMap.get 0 (u.flushPart 0).ckptNext 0 == 0) = true ∧
       gives (({ ready r (2 ^ 32) with ckptNext := [(0, 2)] } : State).flushStash 0) (fun u => SMap.get 0 (u.flushPart 0).ckptNext 0 == 2) = true ∧
       (ready r (2 ^ 34)).field r 34 34 = 1 ∧ mapped.field r 34 34 = 0 ∧ mapped.rollbackCode 0 ≠ 0 ∧
       ({ State.reset with regs := [(partReg 0 0xE8, 1)] } : State).rollbackCode 0 = 0) ∧
    (base.tickAt + 1000000 ≤ ({ base with time := 1000000 } : State).time ∧ ¬base.tickAt + 1000000 ≤ 999999) ∧
    600 < base.field (relReg 0x48) 27 16 ∧
    (let s := { base with regs := [(relReg 0x48, BitVec.ofNat 64 (600 * 2 ^ 16) ^^^ regReset (relReg 0x48))] }
     s.field (relReg 0x48) 27 16 ≤ 600 ∧ s.field (relReg 0x40) 12 0 < (4201 : BitVec 13).toNat ∧ (4200 : BitVec 13).toNat ≤ s.field (relReg 0x40) 12 0) ∧
    ({} : RegRule).fix 5 = 5 ∧
    (∀ off, off ∈ [partReg 63 0, partReg 63 0x78, partReg 63 0x80, partReg 63 0xD0, partReg 63 0x100, partReg 63 0x838] → off ≠ resetReg 0) ∧
    (regRule 1).isNone = true ∧ (regRule (partReg 0 8)).isSome = true ∧ partReg 0 8 ∉ [resetReg 0, fabricReg 0, relReg 0x28] ∧
    (∀ p, p < 64 → ∀ x, x ∈ [0, 0x78, 0x80, 0xD0, 0x100, 0x838] → partReg 0 8 ≠ partReg p x) ∧
    mapped.field (partReg 0 0xD8) 1 0 = 0 ∧ (commanded 3 1 0 []).field (partReg 0 0xD8) 1 0 ≠ 0 :=
  ⟨⟨_, _, rfl, by decide +kernel⟩, by decide +kernel⟩

theorem witness_IndexRegisters :
    base.task.loops.length ≤ (0 : BitVec 3).toNat ∧ (looping 6).task.loops[(5 : BitVec 3).toNat]? = some (counting 0) ∧
    base.guard always = true ∧ (16383 : BitVec 14) ≠ 0 ∧ (looping 5).task.loops.length < 6 ∧
    (let s := given [(63, -1)] []
     s.scalar (.s 63) ≠ 0 ∧ s.task.loops.length < 6 ∧ ∀ l, l ∈ s.task.loops → l.stages = none) ∧
    (∀ l, l ∈ (arrayReady 7).task.loops → l.stages = none) ∧ (arrayReady 7).task.loops ≠ [] ∧
    (module (hosting { running with loops := [counting 7] })).task.loops = counting 7 :: [] ∧
    (counting 7).index.toNat + 1 < (counting 7).total ∧ (counting 7).index.toNat + 1 < 2 ^ 64 := by decide +kernel

theorem witness_FalseGuardNoEffect :
    let x := SlotWord.ofNum 1 0x0010_0018_3400
    let y := SlotWord.ofNum 1 0x0010_0018_3401
    let z := SlotWord.ofNum 6 0x0304_FFFF_8100_9021
    (∀ w, x ≠ .v w) ∧ (∀ w, y ≠ .v w) ∧ (∀ w, z ≠ .v w) ∧
    x.instr? = some (.addi ⟨0, false⟩ (.s 3) (.s 3) 8) ∧ ((base.pred 0).getLsbD 0 ^^ false) = true ∧
    y.instr? = some (.addi ⟨1, false⟩ (.s 3) (.s 3) 8) ∧ ((base.pred 1).getLsbD 0 ^^ false) = false ∧
    (y.withGuard { pred := 0, neg := false }).instr? = some (.addi ⟨0, false⟩ (.s 3) (.s 3) 8) ∧
    z.instr?.isSome = true ∧ ¬(6 ≤ y.slot) ∧ 6 ≤ z.slot ∧ base.preCore.walk.isSome = false ∧ base.preCore.splitBusy = false ∧
    (module { hosting running with splitBusy := true }).preCore.splitBusy = true :=
  ⟨(fun _ h => nomatch h), (fun _ h => nomatch h), (fun _ h => nomatch h), by decide +kernel⟩

theorem witness_DecodeEncode :
    (Instr.addi ⟨7, true⟩ (.s 63) (.s 63) 0x7FFF).wf = true ∧ (encode (.addi ⟨7, true⟩ (.s 63) (.s 63) 0x7FFF)).isSome = true ∧
    (SlotWord.ofNum 1 0x0010_0018_3400).instr? = some (.addi ⟨0, false⟩ (.s 3) (.s 3) 8) := by decide +kernel

/-- The bundle that a state's core 0 meets at its pc is legal and waits for nothing, as O58 asks, and has this one word. -/
def meets (s : State) (word : Nat × Nat) : Bool :=
  let u := ({ s with agenda := [] } : State).turnTo 0 0
  let pc := u.task.pc
  u.task.deferred.isEmpty && !u.core.bad.contains (1, 0) &&
  match u.codeLine pc.toNat with
  | .ok (s1, line, false) =>
    match (bundles line).find? fun b => b.off == pc.toNat % 64 with
    | some b =>
      let v := s1.modTask fun t => { t with link := s1.nextBundle (lineOf pc.toNat) (bundles line) b }
      b.reasons == 0 && !v.nullified b.ops && (v.core.awaited v.x b.ops).isEmpty && v.task.deferred.isEmpty && b.words == [word]
    | none => false
  | _ => false

/-- The bundle met has reasons to be illegal, or none starts at the pc. -/
def illegal (s : State) (starts : Bool) : Bool :=
  let u := ({ s with agenda := [] } : State).turnTo 0 0
  match u.codeLine u.task.pc.toNat with
  | .ok (_, line, false) =>
    match (bundles line).find? fun b => b.off == u.task.pc.toNat % 64 with
    | some b => starts && b.reasons != 0
    | none => !starts
  | _ => false

/-- A hand-off that the task of core 0 has left to be done, of a rally table of partition 0. -/
def leftHandoff : State :=
  { module (hosting { running with rally := some (0, 0) }) with
    rally := [(0, table 2 none 0)],
    later := [(0, some { task := running, core := Core.reset, ops := [(7, .rlydone always 1)], traps := [], holds := [], ctl := none,
                         park := none, resumed := true })] }

theorem witness_StepRunsDecodedBundle :
    (∃ e, ({ base with agenda := [.event e] } : State).agenda = .event e :: []) ∧
    (∃ f, SMap.get none leftHandoff.later (16 * 0 + 0) = some f ∧ f.ops = [(7, .rlydone always 1)] ∧
      (match exec (.rlydone always 1) { leftHandoff.turnTo 0 0 with slot := 7, now := (leftHandoff.coreAt 0).clock, frame := some f } with
        | .next t => t.frame.all fun g => g.holds.isEmpty
        | _ => false) = true) ∧
    isHandoff (.rlydone always 1) = true ∧ coded.armed = [] ∧
    coded.frame = none ∧ coded.agenda = .core 0 :: [] ∧ (coded.coreAt 0).issuing = some 0 ∧ (coded.coreAt 0).switch = none ∧
    (coded.coreAt 0).leaving = false ∧ SMap.get none coded.later 0 = none ∧ meets coded (1, 0x0010_0018_3400) = true ∧
    (SlotWord.ofNum 1 0x0010_0018_3400).instr? = some (.addi ⟨0, false⟩ (.s 3) (.s 3) 8) ∧
    illegal (State.reset.withFetchWord 48 0x0001_1C36_6022) true = true ∧
    illegal (coded.setTaskAt 0 0 { coded.taskAt 0 0 with pc := (coded.taskAt 0 0).pc + 1 }) false = true ∧
    State.reset.agenda = [] ∧ ({ base with sweeper := { Sweeper.reset with owed := true } } : State).nextEvent.isSome = true :=
  ⟨⟨.coldReset, rfl⟩, ⟨_, rfl, rfl, by decide +kernel⟩, by decide +kernel⟩

theorem witness_StepKeepsMemoryCanonical : memoryOk coded ∧ ∃ t, step coded = .next t := by
  have h : (match step coded with | .next _ => true | _ => false) = true := by decide +kernel
  refine ⟨⟨by decide +kernel, by decide +kernel, by decide +kernel⟩, ?_⟩
  cases e : step coded with
  | next t => exact ⟨t, rfl⟩
  | fault f => rw [e] at h; cases h
  | refused r => rw [e] at h; cases h

/-! ## The assembler: the worked example of spec/04, and what a source may not say -/

/-- A source's characters. -/
def source (s : String) : List Nat := s.toList.map Char.toNat

/-- The bytes of the first kernel of a source; none where it does not assemble. -/
def kernelOf (s : String) : List Nat :=
  match Zwixa.assemble (source s) with
  | .ok o => match o.kernels with | (_, k) :: _ => k | [] => []
  | .error _ => []

/-- The kernel of spec/04's example (R103 to R106). -/
def countUp : List Nat := kernelOf
  ".text\n.kernel count_up, 1, 1000\n.place 0, 0, 0, 1, entry, 0\nentry: ADDI s5, s5, 64\nADDI s5, s5, 64\nADDI s5, s5, 80\n(!p3) ADDI s5, s5, 80\nTEXIT\n.endk\n"

/-- spec/04: a full word, a repeat, a delta of 16, a full word under (!p3), TEXIT; the words are the example's, each
stored as R6 says. -/
theorem test_zwixa_bundles : (countUp.drop 0x40).take 30 =
    [0x02, 0, 0x00, 0x54, 0x28, 0x00, 0x80, 0x00, 0, 0x02, 0x02, 0x02, 0x10, 0x02, 0, 0x13, 0x54, 0x28, 0x00, 0xA0, 0x00,
     0x01, 0, 0x00, 0x02, 0, 0, 0, 0, 0] := by decide +kernel

/-- spec/04: the image is padded to 0xC0 and its placement entry at 0x80 is 0x1000. -/
theorem test_zwixa_image : countUp.length = 0xC0 ∧ (countUp.drop 0x80).take 8 = [0, 0x10, 0, 0, 0, 0, 0, 0] := by decide +kernel

/-- R99: truncating division, the dividend's sign for %, C's levels. -/
theorem test_zwixa_expressions : (match Zwixa.assemble (source ".data\n.byte -7/2, -7%3, 1+2*3, 1|2==2, ~0>>4") with
    | .ok o => o.sections.lookup "data" | .error _ => none) = some [0xFD, 0xFF, 7, 1, 0xFF] := by decide +kernel

/-- R99, R92, R131: an undefined symbol, a reserved name, two writers of one register. -/
theorem test_zwixa_refuses : [".data\n.byte x", ".equ lr, 1", ".text\nLI s1, 1 || LDS.D s1, [a0]"].all
    (fun s => match Zwixa.assemble (source s) with | .ok _ => false | .error _ => true) = true := by decide +kernel

end Sys2Proof.Tests
end

namespace Sys2Proof.Machine

/-! SUPPORT. Ordering points and waits (R146 to R148, R242): SYNC, SAFE and WAITX by cases, and O37. -/

/-- A fold whose steps never go down ends no lower than it began. -/
theorem le_foldl_of_grows {α : Type} {f : Nat → α → Nat} (hf : ∀ m a, m ≤ f m a) (l : List α) (n : Nat) : n ≤ l.foldl f n := by
  induction l generalizing n with
  | nil => exact Nat.le_refl n
  | cons a l ih => exact Nat.le_trans (hf n a) (ih (f n a))

/-- A fold whose steps never go down ends no lower than what the step of any one of its elements reaches. -/
theorem le_foldl_of_reached {α : Type} {f : Nat → α → Nat} (hf : ∀ m a, m ≤ f m a) {l : List α} {a : α} (ha : a ∈ l) {b : Nat}
    (hb : ∀ m, b ≤ f m a) (n : Nat) : b ≤ l.foldl f n := by
  induction l generalizing n with
  | nil => cases ha
  | cons c l ih =>
    rcases List.mem_cons.mp ha with rfl | h
    · exact Nat.le_trans (hb n) (le_foldl_of_grows hf l _)
    · exact ih h _

/-- The hold of queue r after queue q takes a hold. -/
theorem Issue.hold_setHold (i : Issue) {q r : Nat} (hq : q < 4) (hr : r < 4) (t : Nat) :
    (i.setHold q t).hold r = if r = q then t else i.hold r := by
  have hq4 : q = 0 ∨ q = 1 ∨ q = 2 ∨ q = 3 := by omega
  have hr4 : r = 0 ∨ r = 1 ∨ r = 2 ∨ r = 3 := by omega
  rcases hq4 with rfl | rfl | rfl | rfl <;> rcases hr4 with rfl | rfl | rfl | rfl <;> rfl

/-- Every queue of a list holds until cycle n, or longer where it already did. -/
def Issue.holdUntil (i : Issue) (qs : List Nat) (n : Nat) : Issue := qs.foldl (fun i q => i.setHold q (max (i.hold q) n)) i

/-- What holding leaves: everything but the holds. -/
theorem Issue.holdUntil_eq (i : Issue) (qs : List Nat) (n : Nat) :
    i.holdUntil qs n = { i with holdC := (i.holdUntil qs n).holdC, holdV := (i.holdUntil qs n).holdV,
                                holdM := (i.holdUntil qs n).holdM, holdL := (i.holdUntil qs n).holdL } := by
  induction qs generalizing i with
  | nil => rfl
  | cons q qs ih =>
    refine (ih (i.setHold q (max (i.hold q) n))).trans ?_
    rcases q with _ | _ | _ | q <;> rfl

/-- The hold of queue r after the queues of a list hold until cycle n. -/
theorem Issue.hold_holdUntil (i : Issue) {qs : List Nat} (hqs : ∀ q ∈ qs, q < 4) (n : Nat) {r : Nat} (hr : r < 4) :
    (i.holdUntil qs n).hold r = if r ∈ qs then max (i.hold r) n else i.hold r := by
  induction qs generalizing i with
  | nil => rfl
  | cons q qs ih =>
    have hq : q < 4 := hqs q List.mem_cons_self
    have h := ih (i.setHold q (max (i.hold q) n)) fun p hp => hqs p (List.mem_cons_of_mem _ hp)
    rw [Issue.hold_setHold i hq hr] at h
    refine h.trans ?_
    by_cases hrq : r = q
    · subst hrq; simp
    · simp [hrq]

/-- The queues of a SYNC's mask. -/
def syncQueues (mask : BitVec 4) : List Nat := (List.range 4).filter fun q => mask.getLsbD q

theorem mem_syncQueues {mask : BitVec 4} {q : Nat} : q ∈ syncQueues mask ↔ q < 4 ∧ mask.getLsbD q = true := by
  simp [syncQueues]

/-- The queue whose exposed results a pending one is of: XLDs are the P slot's, in the C queue, and the rest the M slot's. -/
def Pend.queue (p : Pend) : Nat := if p.isScale then 0 else 2

/-- A SYNC holds its queues until a cycle by which each has issued, and with LAND each pending result of theirs of the
context has landed (R146). -/
theorem Core.syncHold_spec (k : Core) (x : Nat) (mask : BitVec 4) (land : Bool) :
    ∃ n, k.syncHold x mask land = k.issue.holdUntil (syncQueues mask) n ∧
      (∀ r, r ∈ syncQueues mask → k.issue.last r ≤ n) ∧
      (land = true → ∀ p, p ∈ k.pend → p.ctx = x → p.queue ∈ syncQueues mask → p.due ≤ n) := by
  have hlast : ∀ r, r ∈ syncQueues mask → k.issue.last r ≤ (syncQueues mask).foldl (fun m q => max m (k.issue.last q)) 0 :=
    fun r hr => le_foldl_of_reached (f := fun m q => max m (k.issue.last q)) (fun m q => Nat.le_max_left m _) hr
      (fun m => Nat.le_max_right m _) 0
  cases land with
  | false => exact ⟨_, rfl, hlast, nofun⟩
  | true =>
    have grows : ∀ m (p : Pend), m ≤ if p.ctx == x && (syncQueues mask).contains p.queue then max m p.due else m := by
      intro m p; split
      · exact Nat.le_max_left m _
      · exact Nat.le_refl m
    refine ⟨_, rfl, fun r hr => Nat.le_trans (hlast r hr) (le_foldl_of_grows grows _ _), fun _ p hp hx hq => ?_⟩
    refine le_foldl_of_reached grows hp (fun m => ?_) _
    rw [if_pos (by simp [hx, hq])]
    exact Nat.le_max_right m _

/-- A SYNC under a true guard holds its queues, and changes nothing but holds of the executing core (R146). -/
theorem exec_sync_holds {s : State} {g : Guard} (hg : s.guard g = true) (mask : BitVec 4) (land : Bool) :
    ∃ n, (∀ r, r ∈ syncQueues mask → s.core.issue.last r ≤ n) ∧
      (land = true → ∀ p, p ∈ s.core.pend → p.ctx = s.x → p.queue ∈ syncQueues mask → p.due ≤ n) ∧
      exec (.sync g mask land) s = .next (s.setCore { s.core with issue := s.core.issue.holdUntil (syncQueues mask) n }) := by
  obtain ⟨n, hn, hlast, hland⟩ := s.core.syncHold_spec s.x mask land
  refine ⟨n, hlast, hland, ?_⟩
  rw [exec_sync, execSync, State.guarded_true hg, ← hn]
  rfl

/-- A write of the executing core touches no other core and nothing outside the cores. -/
theorem onlyCore_setCore (s : State) (k : Core) : OnlyCore s (s.setCore k) s.c :=
  ⟨rfl, fun m hm => by simp [State.setCore, State.coreAt_setCoreAt, hm]⟩

/-- The live maps of the executing task's launch (R147). -/
def State.liveCnt (s : State) : Nat := match s.myLaunch with | some l => l.liveCnt | none => 0

/-- SAFE under a true guard, by its three cases (R147, R280). -/
theorem exec_safe_eq {s : State} {g : Guard} (hg : s.guard g = true) (map : BitVec 22) :
    exec (.safe g map) s = s.settle (if s.liveCnt ≤ map.toNat then outOfRange (map.setWidth 64)
      else if s.preempted && !s.task.handling then .ok (s.control (.stop map.toNat)) else .ok s) := by
  rw [exec_safe, execSafe, State.guarded_true hg]
  rfl

theorem exec_safe_beyond {s : State} {g : Guard} (hg : s.guard g = true) {map : BitVec 22} (h : s.liveCnt ≤ map.toNat) :
    exec (.safe g map) s = .next (s.raise (preciseTrap .lsrange 0 (map.setWidth 64))) := by
  rw [exec_safe_eq hg, if_pos h]
  rfl

theorem exec_safe_stops {s : State} {g : Guard} (hg : s.guard g = true) {map : BitVec 22} (h : map.toNat < s.liveCnt)
    (hp : s.preempted = true) (hh : s.task.handling = false) :
    exec (.safe g map) s = .next (s.control (.stop map.toNat)) := by
  rw [exec_safe_eq hg, if_neg (Nat.not_le.mpr h), if_pos (by simp [hp, hh]), State.settle_ok]

theorem exec_safe_passes {s : State} {g : Guard} (hg : s.guard g = true) {map : BitVec 22} (h : map.toNat < s.liveCnt)
    (hs : s.preempted = false ∨ s.task.handling = true) : exec (.safe g map) s = .next s := by
  rw [exec_safe_eq hg, if_neg (Nat.not_le.mpr h), if_neg (by rcases hs with h | h <;> simp [h]), State.settle_ok]

/-- WAITX under a true guard, by its three cases (R148, R242). -/
theorem exec_waitx_eq {s : State} {g : Guard} (hg : s.guard g = true) (ch : BitVec 3) (sa : SReg) :
    exec (.waitx g ch sa) s = .next (if (s.scalar sa).ult (s.core.pump ch.toNat).below = true then s
      else if (s.core.pump ch.toNat).code ≠ 0 then s.control (.trapAfter (haltTrap ch.toNat (s.core.pump ch.toNat)))
      else s.control (.park (.pump ch.toNat (s.scalar sa)))) := by
  rw [exec_waitx, execWaitx, State.guarded_true hg]
  simp only [BitVec.ult, decide_eq_true_eq]
  split
  · rfl
  · split <;> rfl

/-- What the trap of a halted channel says of each halt code (R242): its cause and the high half of its INFO. -/
theorem haltTrap_eq {p : Pump} {cause : Cause} {hi : Nat} (ch : Nat)
    (h : (p.code.toNat, cause, hi) ∈ [(1, Cause.swtrap, 4), (2, .xlate, p.failInfo.toNat % 2 ^ 8), (3, .poison, 0), (4, .lsrange, 0), (5, .align, 0)]) :
    p.code ≠ 0 ∧ haltTrap ch p = {
      cause := cause, addr := p.failAddr, info := BitVec.ofNat 64 (hi * 2 ^ 32 + (ch * 2 + p.failId.toNat % 2 ^ 28 * 2 ^ 4)),
      at_ := .link } := by
  have code : ∀ n, p.code.toNat = n → p.code = BitVec.ofNat _ n := fun n hn => by rw [← hn]; simp
  simp only [List.mem_cons, Prod.mk.injEq, List.not_mem_nil, or_false] at h
  rcases h with ⟨hc, rfl, rfl⟩ | ⟨hc, rfl, rfl⟩ | ⟨hc, rfl, rfl⟩ | ⟨hc, rfl, rfl⟩ | ⟨hc, rfl, rfl⟩ <;>
    simp [haltTrap, code _ hc]

/-- Settles O37: each clause is the instruction's own case equation; for SYNC the holds are those of a fold over the masked
queues, each raised to one cycle that bounds their last issues and, with LAND, the landings of their results. -/
theorem orderingAndWaits : Obligations.OrderingAndWaits := by
  refine ⟨fun g s i hi => ?nops, fun s g hg => ⟨fun mask land => ?sync, fun map => ?safe, fun ch sa => ?waitx⟩⟩
  case nops =>
    simp only [List.mem_cons, List.not_mem_nil, or_false] at hi
    rcases hi with rfl | rfl | rfl | rfl | rfl | rfl | rfl <;> rfl
  case sync =>
    obtain ⟨n, hlast, hland, hexec⟩ := exec_sync_holds hg mask land
    refine ⟨_, hexec, onlyCore_setCore _ _, ?_, ?_, fun q hq => ?_⟩
    · rw [State.core_setCore]
    · rw [State.core_setCore]; exact Issue.holdUntil_eq _ _ n
    · have hhold := Issue.hold_holdUntil s.core.issue (fun p hp => (mem_syncQueues.mp hp).1) n (qs := syncQueues mask) hq
      rw [State.core_setCore]
      refine ⟨fun hm => ?_, fun hm => ?_⟩
      · rw [hhold, if_neg fun h => by simp [(mem_syncQueues.mp h).2] at hm]
      · rw [hhold, if_pos (mem_syncQueues.mpr ⟨hq, hm⟩)]
        refine ⟨Nat.le_max_left _ _, fun r hr hmr => ?_, fun hl p hp hx hmp => ?_⟩
        · exact Nat.le_trans (hlast r (mem_syncQueues.mpr ⟨hr, hmr⟩)) (Nat.le_max_right _ _)
        · have hq4 : p.queue < 4 := by unfold Pend.queue; split <;> decide
          exact Nat.le_trans (hland hl p hp hx (mem_syncQueues.mpr ⟨hq4, hmp⟩)) (Nat.le_max_right _ _)
  case safe =>
    exact ⟨exec_safe_beyond hg, exec_safe_stops hg, exec_safe_passes hg⟩
  case waitx =>
    refine ⟨fun h => ?_, fun h hc => ?_, fun h cause hi hmem => ?_⟩
    · rw [exec_waitx_eq hg, if_pos h]
    · rw [exec_waitx_eq hg, if_neg (by simp [h]), if_neg fun h => h hc]
    · obtain ⟨hc, ht⟩ := haltTrap_eq ch.toNat hmem
      rw [exec_waitx_eq hg, if_neg (by simp [h]), if_pos hc, ht]

end Sys2Proof.Machine

namespace Sys2Proof.Machine

/-! SUPPORT. A step runs the decoded instructions of the bundle at the pc (R111, R133, R137): the equations from input to
closing, and O58. -/

/-- With no detector armed a step is nothing more than what it does (R434). -/
theorem State.notice_unarmed {s : State} (h : s.armed = []) (o : Host.Outcome State Fault Refusal) : s.notice o = o := by
  cases o <;> simp [State.notice, h]

/-- With no bundle dispatched, a step takes the oldest input. -/
theorem step_input {s : State} {i : Input} {rest : List Input} (hf : s.frame = none) (ha : s.agenda = i :: rest) :
    step s = s.notice (({ s with agenda := rest } : State).takeInput i) := by
  simp [step, State.advanceOnce, State.moveOn, hf, ha]

/-- With no bundle dispatched, a core's turn is taken as the oldest input. -/
theorem step_core {s : State} {n : Nat} {rest : List Input} (hf : s.frame = none) (ha : s.agenda = .core n :: rest) :
    step s = s.notice (({ s with agenda := rest } : State).coreTurn n) := step_input hf ha

/-- With no bundle dispatched and no input, a step performs the event that is due. -/
theorem step_event {s : State} {e : Event} (hf : s.frame = none) (ha : s.agenda = []) (he : s.nextEvent = some e) :
    step s = s.notice (e.run s) := by
  simp [step, State.advanceOnce, State.moveOn, State.selfStep, hf, ha, he]

/-- A hand-off that a bundle has left, and that waits for nothing, is its exec (R330, R331). -/
theorem postHandoff_eq {u t : State} {c y : Nat} {f : Frame} {i : Instr} (hl : SMap.get none u.later (16 * c + y) = some f)
    (ho : f.ops = [(7, i)]) (hi : isHandoff i = true)
    (he : exec i { u.turnTo c y with slot := 7, now := (u.coreAt c).clock, frame := some f } = .next t)
    (hh : ∀ g, t.frame = some g → g.holds = []) :
    u.postHandoff c y = .next (({ t with frame := none } : State).setLater c y f.waiting) := by
  have hw : (t.frame.any fun g => !g.holds.isEmpty) = false := by
    cases hf : t.frame with
    | none => rfl
    | some g => simp [hh g hf]
  simp [State.postHandoff, hl, ho, hi, he, hw]

/-- BUNDLE_FETCH on a core that fetches is that of its ISSUING task. -/
theorem execBundleFetch_issuing {s : State} {n x : Nat} (hf : s.frame = none) (hi : (s.coreAt n).issuing = some x)
    (hs : (s.coreAt n).switch = none) (hl : (s.coreAt n).leaving = true → (s.coreAt n).issue.owed = true) :
    execBundleFetch n s = (s.turnTo n x).bundleFetch := by
  have hlo : ((s.coreAt n).leaving && !(s.coreAt n).issue.owed) = false := by
    cases h : (s.coreAt n).leaving with
    | false => rfl
    | true => simp [hl h]
  simp [execBundleFetch, hf, hi, hs, hlo]

/-- Such a core fetches in its turn. -/
theorem fetches_of {k : Core} {x : Nat} (hi : k.issuing = some x) (hs : k.switch = none)
    (hl : k.leaving = true → k.issue.owed = true) : k.fetches = true := by
  cases h : k.leaving with
  | false => simp [Core.fetches, hi, hs, h]
  | true => simp [Core.fetches, hi, hs, hl h]

/-- With the last bundle complete, no deferred trap and no uncorrectable error, the bundle at the pc is fetched (R111). -/
theorem bundleFetch_complete {u : State} (hl : SMap.get none u.later (16 * u.c + u.x) = none) (hd : u.task.deferred = [])
    (hb : u.core.bad.contains (1, u.x) = false) : u.bundleFetch = u.fetchNext := by
  simp only [State.bundleFetch, hl, hd, hb]
  rfl

section
variable {u s1 : State} {line : List Byte} (hline : u.codeLine u.task.pc.toNat = .ok (s1, line, false))
include hline

/-- A pc at which no bundle of its line starts traps (R112). -/
theorem fetchNext_noStart (h : ∀ b, b ∈ bundles line → b.off ≠ u.task.pc.toNat % 64) :
    u.fetchNext = .next (u.fetchStops 0 { cause := .illbundle, addr := u.task.pc, info := 0x100, at_ := .address u.task.pc }) := by
  have hnone : ((bundles line).find? fun b => b.off == u.task.pc.toNat % 64) = none := by
    simpa [List.find?_eq_none] using h
  simp [State.fetchNext, State.fetch, hline, hnone, notBundleStart, fetchTrap]

/-- Fetch of a bundle that starts at the pc: its trap if it is illegal, else what follows its decoding (R134). -/
theorem fetchNext_found {b : Bundle} (h : ((bundles line).find? fun b => b.off == u.task.pc.toNat % 64) = some b) :
    let v := s1.modTask fun t => { t with link := s1.nextBundle (lineOf u.task.pc.toNat) (bundles line) b }
    u.fetchNext = if b.reasons ≠ 0 then .next (v.fetchStops b.marks (b.trap v.task.pc)) else .next (v.afterDecode b.ops b.len) := by
  simp [State.fetchNext, State.fetch, hline, h]

end

/-- A bundle that is not removed and waits for no load is dispatched (R268, R221). -/
theorem afterDecode_dispatches {v : State} {ops : List SlotOp} (len : Nat) (hn : v.nullified ops = false)
    (ha : v.core.awaited v.x ops = []) (hd : v.task.deferred = []) : v.afterDecode ops len = v.dispatch ops len := by
  have hw : v.awaitLoads ops = v := by simp [State.awaitLoads, ha]
  simp [State.afterDecode, hn, hw, hd]

/-- The frame that dispatch opens. -/
def State.opened (v : State) (ops : List SlotOp) (len : Nat) : Frame :=
  { task := v.task, core := v.core, ops := ops, traps := [], holds := [], ctl := none, park := none, len := len }

theorem dispatch_frame (v : State) (ops : List SlotOp) (len : Nat) : (v.dispatch ops len).frame = some (v.opened ops len) := rfl

/-- The slots of a fresh bundle find its frame with the registers as they stand at issue (R51). -/
theorem openSlots_frame (s : State) {f : Frame} (tm : Timing) (h : f.resumed = false) :
    ∃ k t, (s.openSlots f tm).frame = some { f with task := t, core := k } := by
  simp only [State.openSlots, h]
  exact ⟨_, _, rfl⟩

/-- A hand-off performs no access later of its own. -/
theorem not_performsLater_of_isHandoff {i : Instr} (h : isHandoff i = true) : performsLater i = false := by
  unfold isHandoff at h
  split at h
  · rfl
  · rfl
  · cases h

/-- The only slot of a fresh bundle does what exec gives: no other slot orders its access or its hand-off behind it. -/
theorem afterSlot_single {s t : State} {f : Frame} {k : Nat} {i : Instr} (hf : s.frame = some f) (hops : f.ops = [(k, i)])
    (hctl : f.ctl = none) (hpark : f.park = none) (hlater : f.later = []) : State.afterSlot s t k i = t := by
  have hdefers : s.defers k i = false := by
    simp [State.defers, hf, hpark, Frame.ordersAccesses, hctl]
  have hoff : s.handsOff i = false := by
    cases hi : isHandoff i with
    | false => simp [State.handsOff, hf, hi]
    | true => simp [State.handsOff, hf, hops, hlater, not_performsLater_of_isHandoff hi]
  simp only [State.afterSlot, hf, hdefers, hoff]
  cases t.frame <;> rfl

/-- The instruction of a bundle's only word is its only slot operation. -/
theorem ops_of_single_word {b : Bundle} {k w : Nat} {i : Instr} (hw : b.words = [(k, w)])
    (hi : (SlotWord.ofNum k w).instr? = some i) : b.ops = [(k, i)] := by
  have hd : (SlotWord.ofNum k w).decode.instr = some i := by
    unfold SlotWord.instr? at hi
    split at hi
    · exact hi
    · cases hi
  simp [Bundle.ops, hw, hd]

/-- A dispatched bundle whose slots all go on closes (R133, R137). -/
theorem issueBundle_closes {d t : State} {f : Frame} (hf : d.frame = some f)
    (hrun : runSlots exec (d.core.timing d.x f.ops) f.ops (d.openSlots f (d.core.timing d.x f.ops)) = .next t) :
    d.issueBundle exec = .next (State.closeBundle { d with frame := none } t (d.core.timing d.x f.ops)
      ((f.ops.find? fun o => o.1 == 0).map (·.2))) := by
  simp only [State.issueBundle, hf, hrun]

/-- A turn in which a core dispatches a bundle whose slots all go on is their run, between opening and closing. -/
theorem coreTurn_closes {s d t : State} {n : Nat} {f : Frame} (hk : (s.coreAt n).fetches = true)
    (hd : execBundleFetch n s = .next d) (hf : d.frame = some f)
    (hrun : runSlots exec (d.core.timing d.x f.ops) f.ops (d.openSlots f (d.core.timing d.x f.ops)) = .next t) :
    s.coreTurn n = .next (State.closeBundle { d with frame := none } t (d.core.timing d.x f.ops)
      ((f.ops.find? fun o => o.1 == 0).map (·.2))).moveFront := by
  simp only [State.coreTurn, hk, if_true, hd, State.issueNow, issueBundle_closes hf hrun, settleFront]

/-- The run of a fresh bundle of one slot is the exec of its instruction. -/
theorem runSlots_single {d t : State} {f : Frame} {tm : Timing} {k : Nat} {i : Instr} (hops : f.ops = [(k, i)])
    (hfresh : f.resumed = false ∧ f.ctl = none ∧ f.park = none ∧ f.later = [])
    (he : exec i { d.openSlots f tm with slot := k, now := tm.slot k } = .next t) :
    runSlots exec tm [(k, i)] (d.openSlots f tm) = .next t := by
  obtain ⟨hresumed, hctl, hpark, hlater⟩ := hfresh
  obtain ⟨core, task, hframe⟩ := openSlots_frame d tm hresumed
  have hafter := afterSlot_single (s := { d.openSlots f tm with slot := k, now := tm.slot k }) (t := t) hframe hops hctl hpark hlater
  simp only [runSlots, he, hafter]

/-- Settles O58: the step is traced from the input through fetch, decoding and dispatch to the run of the slots, one equation
for each; a bundle's only slot has no other to wait behind, so what it leaves is what exec gives. -/
theorem stepRunsDecodedBundle : Obligations.StepRunsDecodedBundle := by
  intro s n x rest hf
  refine ⟨State.notice_unarmed, fun e ha => step_input hf ha, fun e ha he => step_event hf ha he, fun u => rfl,
    Event.run_eq_exec, fun c y f i t u hl ho hi he hh => postHandoff_eq hl ho hi he hh, ?_⟩
  intro hi hs hl hlater ha s0 u pc hd hbad s1 line hline
  have hfetch : execBundleFetch n s0 = u.fetchNext :=
    (execBundleFetch_issuing (s := s0) hf hi hs hl).trans (bundleFetch_complete (u := u) hlater hd hbad)
  refine ⟨fun hno => hfetch.trans (fetchNext_noStart hline hno), ?_⟩
  intro b hb v
  have hfound := hfetch.trans (fetchNext_found hline hb)
  refine ⟨fun hr => hfound.trans (if_pos hr), ?_⟩
  intro hr hnull hawait hdef d tm c
  have hdisp : execBundleFetch n s0 = .next d := by
    rw [hfound, if_neg fun h => h hr, afterDecode_dispatches b.len hnull hawait hdef]
  have hturn : ∀ t, runSlots exec tm b.ops (d.openSlots (v.opened b.ops b.len) tm) = .next t →
      step s = s.notice (.next (State.closeBundle { d with frame := none } t tm c).moveFront) := fun t ht => by
    rw [step_core hf ha, coreTurn_closes (s := s0) (fetches_of hi hs hl) hdisp (dispatch_frame v b.ops b.len) ht]
    rfl
  refine ⟨hdisp, v.opened b.ops b.len, rfl, rfl, rfl, rfl, hturn, fun k w i hwords hinstr t he => ?_⟩
  have hops : b.ops = [(k, i)] := ops_of_single_word hwords hinstr
  have hc : c = if k = 0 then some i else none := by
    show (b.ops.find? fun o => o.1 == 0).map (·.2) = _
    rw [hops]
    by_cases hk : k = 0 <;> simp [hk]
  rw [← hc]
  refine hturn t ?_
  rw [hops] at he ⊢
  exact runSlots_single rfl ⟨rfl, rfl, rfl, rfl⟩ he

end Sys2Proof.Machine
